-- ==== Sys2Proof/Word.lean ====
section
/-! DEFINITION. The word types, the identifiers of the part's units and their plainest arithmetic (R15, R29, R43). -/

namespace Sys2Proof

/-- A byte of host memory or of a message. -/
abbrev Byte := BitVec 8
/-- A register word (R478). -/
abbrev Word := BitVec 32
/-- A 64-bit value: a check word, a seed, a timestamp, a signature. -/
abbrev DWord := BitVec 64
/-- Bank number (R15). -/
abbrev BankId := Fin 192
/-- Physical position of a core in its cluster (R15). -/
abbrev Pos := Fin 264
/-- Logical core number within a cluster (R18). -/
abbrev Logical := Fin 256
/-- Context identifier (R31). -/
abbrev CtxId := Fin 1024
/-- Anvil channel of a Bank (R19). -/
abbrev Chan := Fin 16
/-- Offset in zc within a frame (R5, R43). -/
abbrev Zc := Fin 2048
/-- A byte address of host memory; the part carries 48 bits of it (R496, BK_CC_RPL4). -/
abbrev Addr := BitVec 48
/-- The 17-bit unit index space (R29). -/
abbrev UnitId := Fin 131072

/-- Frames per counter period: the frame counter is 53 bits wide (R37). -/
def frameMod : Nat := 2 ^ 53

/-- A timestamp: frame number in [63:11], zc offset in [10:0] (R43). -/
def mkStamp (frame zc : Nat) : DWord := BitVec.ofNat 64 (frame * 2048 + zc % 2048)

/-- The low word of a 64-bit value. -/
def lo32 (x : DWord) : Word := x.setWidth 32
/-- The high word of a 64-bit value. -/
def hi32 (x : DWord) : Word := (x >>> 32).setWidth 32

/-- Bits [hi:lo] of a word as a number (the manual's bit ranges). -/
def bitsOf (w : Word) (hi lo : Nat) : Nat := (w.toNat / 2 ^ lo) % 2 ^ (hi + 1 - lo)

/-- Bit `k` of a word. -/
def bitOf (w : Word) (k : Nat) : Bool := w.getLsbD k

/-- The word `w` with bits [hi:lo] replaced by `v`. -/
def setBits (w : Word) (hi lo v : Nat) : Word :=
  let width := hi + 1 - lo
  let n := w.toNat
  let below := n % 2 ^ lo
  let above := n / 2 ^ (hi + 1)
  BitVec.ofNat 32 (above * 2 ^ (hi + 1) + (v % 2 ^ width) * 2 ^ lo + below)

/-- A number as a word, wrapping at 2^32. -/
def w32 (n : Nat) : Word := BitVec.ofNat 32 n

/-- A truth value as a bit. -/
def bit (b : Bool) : Nat := if b then 1 else 0

/-- ⌊log2 n⌋, and 0 for 0. -/
def log2 (n : Nat) : Nat := Nat.log2 n

/-- Division rounding up. -/
def ceilDiv (a b : Nat) : Nat := (a + b - 1) / b

/-- The bytes of a number, least significant first (all multi-byte fields are little-endian). -/
def leBytes : Nat → Nat → List Byte
  | 0, _ => []
  | n + 1, v => BitVec.ofNat 8 v :: leBytes n (v / 256)

/-- The number little-endian bytes spell. -/
def leNat : List Byte → Nat
  | [] => 0
  | b :: bs => b.toNat + 256 * leNat bs

/-- The words of a number, least significant first. -/
def leWords : Nat → Nat → List Word
  | 0, _ => []
  | n + 1, v => BitVec.ofNat 32 v :: leWords n (v / 2 ^ 32)

/-- The number little-endian words spell. -/
def leWordNat : List Word → Nat
  | [] => 0
  | w :: ws => w.toNat + 2 ^ 32 * leWordNat ws

/-- Sum of a list of numbers. -/
def sumNat (l : List Nat) : Nat := l.foldl (· + ·) 0

/-- Core unit index and Wisp index: b × 264 + p (R29). -/
def coreUnit (b p : Nat) : Nat := b * 264 + p

end Sys2Proof
end

