-- ==== Sys2Proof/Machine/Table.lean ====
section
/-! DEFINITION. A table keyed by numbers, held sparsely in one canonical form: keys strictly rising, and no entry equal
to the value an unlisted key reads as. Every array of the part (register files, Wisps, Banks, health entries, thermal
nodes, memory bytes) is one of these, so that equal arrays are equal data. -/

namespace Sys2Proof.Machine

/-- A sparse table; what an unlisted key reads as is given where the table is read. -/
abbrev Tbl (α : Type) := List (Nat × α)

/-- The listed value of a key. -/
def Tbl.find {α : Type} : Tbl α → Nat → Option α
  | [], _ => none
  | (j, x) :: t, k => if k = j then some x else Tbl.find t k

/-- The value of a key; `d` is what an unlisted key reads as. -/
def Tbl.get {α : Type} (d : α) (t : Tbl α) (k : Nat) : α := (Tbl.find t k).getD d

/-- List a key with a value, in order. -/
def Tbl.put {α : Type} : Tbl α → Nat → α → Tbl α
  | [], k, v => [(k, v)]
  | (j, x) :: t, k, v =>
    if k = j then (k, v) :: t else if k < j then (k, v) :: (j, x) :: t else (j, x) :: Tbl.put t k v

/-- Take a key off the list. -/
def Tbl.erase {α : Type} : Tbl α → Nat → Tbl α
  | [], _ => []
  | (j, x) :: t, k => if k = j then Tbl.erase t k else (j, x) :: Tbl.erase t k

/-- Write a key; the default value is not listed. -/
def Tbl.set {α : Type} [DecidableEq α] (d : α) (t : Tbl α) (k : Nat) (v : α) : Tbl α :=
  if v = d then Tbl.erase t k else Tbl.put t k v

/-- Change the value of a key. -/
def Tbl.modify {α : Type} [DecidableEq α] (d : α) (t : Tbl α) (k : Nat) (f : α → α) : Tbl α :=
  Tbl.set d t k (f (Tbl.get d t k))

/-- Change every listed entry; for a change that leaves the default value alone, this changes every key. -/
def Tbl.mapAll {α : Type} [DecidableEq α] (d : α) (f : Nat → α → α) : Tbl α → Tbl α
  | [] => []
  | (k, x) :: t => if f k x = d then Tbl.erase (Tbl.mapAll d f t) k else (k, f k x) :: Tbl.mapAll d f t

/-- Change the values of the `n` keys from `lo` on; the table is walked three times, and looked up only within the range. -/
def Tbl.updRange {α : Type} [DecidableEq α] (d : α) (f : Nat → α → α) (n lo : Nat) (t : Tbl α) : Tbl α :=
  let inner : Tbl α := t.filter (fun e => decide (lo ≤ e.1) && decide (e.1 < lo + n))
  t.filter (fun e => decide (e.1 < lo)) ++
    (List.range n).filterMap (fun i =>
      let v := f (lo + i) (Tbl.get d inner (lo + i))
      if v = d then none else some (lo + i, v)) ++
    t.filter (fun e => decide (lo + n ≤ e.1))

/-- The canonical form: keys strictly rising and no entry equal to the default. -/
def Tbl.wf {α : Type} [DecidableEq α] (d : α) : Tbl α → Bool
  | [] => true
  | [(_, x)] => decide (x ≠ d)
  | (j, x) :: (k, y) :: t => decide (j < k) && decide (x ≠ d) && Tbl.wf d ((k, y) :: t)

/-- The value of a key where an unlisted key reads as `f` of it. -/
def Tbl.getK {α : Type} (f : Nat → α) (t : Tbl α) (k : Nat) : α := (Tbl.find t k).getD (f k)

/-- Write a key where an unlisted key reads as `f` of it. -/
def Tbl.setK {α : Type} [DecidableEq α] (f : Nat → α) (t : Tbl α) (k : Nat) (v : α) : Tbl α :=
  if v = f k then Tbl.erase t k else Tbl.put t k v

/-- How many listed entries satisfy `p`. -/
def Tbl.countP {α : Type} (p : Nat → α → Bool) (t : Tbl α) : Nat := (t.filter (fun e => p e.1 e.2)).length

/-- The listed keys that satisfy `p`, in rising order. -/
def Tbl.keysP {α : Type} (p : Nat → α → Bool) (t : Tbl α) : List Nat :=
  (t.filter (fun e => p e.1 e.2)).map Prod.fst

/-- The first free key below `n` (not listed). -/
def Tbl.freeKey {α : Type} (t : Tbl α) (n : Nat) : Option Nat :=
  (List.range n).find? (fun k => (Tbl.find t k).isNone)

end Sys2Proof.Machine
end

