-- ==== Sys2Proof/Machine/Entries.lean ====
section
/-! DEFINITION. What the ledger module holds (R374, R375, R414, R415, R419): records, health states, repair rows, journal entries, and the
header; and the content of a module that takes the place of another. -/

namespace Sys2Proof.Machine

/-- A Bank record (R365). -/
structure Rec where
  ts : DWord
  code : Nat
  flags : Nat
  source : Nat
  ctx : Nat
  rpt : Nat
  p0 : Word
  p1 : Word
  p2 : Word
  p3 : Word
  deriving DecidableEq, Repr

/-- The health states (R227). -/
inductive Health where
  | dawn
  | clear
  | haze
  | overcast
  | eclipse
  deriving DecidableEq, Repr

/-- One entry of a Bank's repair table (R297): kind 1 a row repair, 2 a core remap; what fails and what takes its place. -/
structure RepairRow where
  kind : Nat
  fused : Bool
  badFuse : Bool
  pos : Nat
  array : Nat
  frm : Nat
  dst : Nat
  deriving DecidableEq, Repr

/-- The body of a journal entry (R375, R419). -/
inductive JBody where
  | event (bank : Nat) (r : Rec)
  | health (u : Nat) (old new : Health) (reason : Nat) (entry : List Word) (ts : DWord)
  | ages (first : Nat) (entries : List (List Word))
  | remap (bank : Nat) (map : Tbl Nat) (vacant : List Nat)
  | repair (bank : Nat) (rows : List RepairRow)
  | start (start : Word) (kind : Nat) (cause : Word) (chip : BitVec 128) (digest : BitVec 384)
  | cert (fields : List Word)
  | patslot (slot : Nat) (version : DWord)
  | ckptBegin (start : Word)
  | ckptEnd (seq : DWord) (count : Word)
  | alarm (level : Nat) (source : Nat) (ts : DWord)
  | wear (wear : Nat) (stage : Nat)
  | exported (digest : BitVec 384)
  | imported (digest : BitVec 384)
  deriving DecidableEq, Repr

/-- A journal entry with the start and sequence number it was appended under (R374). -/
structure JEntry where
  start : Word
  seq : Nat
  body : JBody
  deriving DecidableEq, Repr

/-- A copy of the module header (R415); `salt` is the one that it was sealed under, none where it authenticates under no key. -/
structure LedgerHeader where
  chip : BitVec 128
  uid : DWord
  gen : DWord
  wear : Nat
  endurance : Nat
  slotWear0 : Nat
  slotWear1 : Nat
  sectors : Nat
  imported : Bool
  salt : Option (BitVec 256)
  deriving DecidableEq, Repr

/-- What a ledger module holds beside the configuration image (R414, R415): the two copies of its header, the journal's sectors with the one
being filled and its fill, the erase count of each, and the bytes of its two pattern slots. -/
structure ModuleContent where
  copyA : Option LedgerHeader
  copyB : Option LedgerHeader
  sectors : Tbl (List JEntry)
  sector : Nat
  sectorFill : Nat
  erases : Tbl Nat
  slots : Tbl (List Byte)
  deriving DecidableEq, Repr

end Sys2Proof.Machine
end

