-- ==== Sys2Proof/Syntax.lean ====
section
/-! DEFINITION. The commands of the block: one constructor of `Instr` per row of the table of operations and events, with
the operands each carries. A row whose moment the manual fixes (every 2^k F, at a tick, when a limit passes) is a command
too: it asks whether that moment has come. -/

namespace Sys2Proof

/-- The path a register access arrives by (R477). -/
inductive Path where
  /-- Host register port at P1. -/
  | hostP1
  /-- Host register port at P2, with its context ID (R384). -/
  | hostP2 (ctx : CtxId)
  /-- Management path, Afsin REG_READ and REG_WRITE, at P0. -/
  | mgmt
  /-- Steward processor, at P0; the only path that may write KICK. -/
  | steward
  /-- Control-core port of one Bank, at P1 for its own Bank only. -/
  | cc (bank : BankId)
  deriving DecidableEq, Repr

/-- The tile tag that accompanies an operator command (R124). -/
structure TileTag where
  decl : Addr
  origin0 : Word
  origin1 : Word
  extent0 : BitVec 16
  extent1 : BitVec 16
  deriving DecidableEq, Repr

/-- One command on a core's command tap (R509, WS_CMD): its tags, its tensor description (R64) and the replay mark (R205). -/
structure Cmd where
  ctx : CtxId
  layer : BitVec 16
  oper : BitVec 16
  step : Word
  tile : TileTag
  handle : Word
  base : Addr
  length : Word
  fmt : BitVec 4
  carry : Bool
  isStore : Bool
  replay : Bool
  ticket : BitVec 16
  deriving DecidableEq, Repr

/-- What a Bank sees of a command offered to a core (R511, BK_CMD_TAG). -/
structure CmdTag where
  logical : Logical
  ctx : CtxId
  layer : BitVec 16
  oper : BitVec 16
  step : Word
  handle : Word
  base : Addr
  length : Word
  fmt : BitVec 4
  carry : Bool
  isStore : Bool
  replay : Bool
  deriving DecidableEq, Repr

/-- One capture read of a Bank (R340, R341): the position, or the cluster; the offsets in zc between which it was read, whether it
was cut short, and the state bytes that the capture port delivered. -/
structure CapRead where
  pos : Option Pos
  start : BitVec 16
  stop : BitVec 16
  truncated : Bool
  bytes : List Byte
  deriving DecidableEq, Repr

/-- What one Wisp brings to a tick, of the frame whose tick it received before: the activity counts (R309), the deepest droop (R311),
the increments of the operation counters since then (R386), the core clock edges counted (R250), whether a command was in progress
during the frame (R332) and is in progress now (R244), the stalls that ended (R360) and the wait target (R335); and `sync`, the core
clock edges between this tick's arrival and the next one's, which decide whether the Wisp receives the tick (R47). The beacons of
counter 28 are the model's own. -/
structure WispTick where
  bank : BankId
  pos : Pos
  acts : List Nat
  droop : BitVec 8
  counts : List Nat
  edges : Nat
  sync : Nat
  busy : Bool
  inProgress : Bool
  stalls : List Word
  wait : Word
  deriving DecidableEq, Repr

/-- What a Wisp measured in the frame whose tick it received last before its clock stopped: the activity counts (R309) and the deepest droop
(R311). -/
structure LastFrame where
  acts : List Nat
  droop : BitVec 8
  deriving DecidableEq, Repr

/-- One reading of a host temperature sensor (R315). -/
structure DiodeIn where
  diode : Fin 80
  reading : BitVec 16
  valid : Bool
  deriving DecidableEq, Repr

/-- Where a byte of an array without the page code is read (R465). -/
inductive ParityHit where
  | histogram (bank : BankId) (pos : Pos) (bin : BitVec 8)
  | counter (bank : BankId) (pos : Pos) (n : Fin 32)
  | extreme (bank : BankId) (pos : Pos) (n : Fin 16)
  | pending (bank : BankId) (pos : Pos) (n : Fin 4)
  | packet (bank : BankId) (pos : Pos)
  | bitmap (bank : BankId) (pos : Pos)
  | anvilContext (bank : BankId)
  | remap (bank : BankId) (logical : Logical)
  | sessionKey
  | vault (both : Bool)
  | seedKey (period : BitVec 37)
  deriving DecidableEq, Repr

/-- The stores that carry the page code (R32). -/
inductive PageStore where
  | ring (bank : BankId)
  | queue (bank : BankId)
  | operand (bank : BankId)
  | stager (bank : BankId)
  | healthTable
  | pattern
  | steward
  | journal
  | thermal
  | horizon
  | context
  deriving DecidableEq, Repr

/-- A position of a page (R459): 0 to 4,095 data bytes, the others check symbols. -/
structure PagePos where
  store : PageStore
  page : Nat
  pos : Fin 4352
  deriving DecidableEq, Repr

/-- A packet of the data channel (R273): a DATA packet of the round, its END, or a REPAIR packet for a position. -/
inductive ChannelItem where
  | data (seq : BitVec 24)
  | finish
  | repair (target : Pos) (seq : BitVec 24)
  deriving DecidableEq, Repr

/-- Where a byte is read with parity alone: from an array, or at the end of a datapath, from a transfer with its number on its way to
an array or to a page of a store (R465, R466). -/
inductive ReadPlace where
  | array (a : ParityHit)
  | toArray (transfer : Nat) (dest : ParityHit)
  | toPage (transfer : Nat) (store : PageStore) (page : Nat)
  deriving DecidableEq, Repr

/-- A byte read with its parity bit, bit 8, from an array without the page code or a datapath (R457). -/
structure ByteRead where
  place : ReadPlace
  bits : BitVec 9
  deriving DecidableEq, Repr

/-- What reaches the part with a tick: the Wisps whose clocks run (a Wisp not listed has no clock edge, R47), the bits of the tick
header, by Bank, that arrive inverted (R41), the Banks whose frame copy an upset changed, with the difference, before the header came
(R40), the Banks that returned no summary (R351), the sensor readings, the skew measured, the alarm sources still asserted (R425), the
bytes read from arrays with parity alone, as they stood (R465), the bits of page-coded stores that upsets inverted and the data
bytes of them that were written since the tick before (R457, R461), and the supply inputs as sampled: Odtil's in its window, the
clusters out of theirs, and the fuse programming power (R504). -/
structure TickIn where
  wisps : List WispTick
  headerFlips : List (BankId × BitVec 256)
  upsets : List (BankId × BitVec 53)
  noSummary : List BankId
  diodes : List DiodeIn
  skew : BitVec 8
  alarms : BitVec 6
  parity : List ByteRead
  pageUpsets : List (PagePos × BitVec 9)
  pageWrites : List PagePos
  odtSupply : Bool
  supplyBad : List BankId
  fusePwr : Bool
  deriving DecidableEq, Repr

/-- How a Wisp takes up the tick again (R48): in the middle of a frame or not, and what it measured in its last frame. -/
structure ClockRestart where
  midFrame : Bool
  last : LastFrame
  deriving DecidableEq, Repr

/-- A packet as a Wisp receives it (R273, R274): the packet, and the bits of its words inverted on the way. -/
structure Received where
  item : ChannelItem
  flips : List (Fin 67 × Word)
  deriving DecidableEq, Repr

/-- A page of a store that carries the page code (R32, R458). -/
structure PageRef where
  store : PageStore
  page : Nat
  deriving DecidableEq, Repr

/-- A location in a host memory error report (R469). -/
inductive HostLoc where
  | tier1 (bank : BankId) (pos : Pos)
  | tier2 (addr : Addr)
  | lane (ident : BitVec 16)
  | channel (stack : Fin 16) (ch : Fin 4)
  deriving DecidableEq, Repr

/-- The header an Afsin request arrives with: its sequence number, whether AUTH is set and the tag it carries (R429). -/
structure AfsHead where
  seq : Word
  auth : Bool
  tag : BitVec 128
  deriving DecidableEq, Repr

/-- Where an array test finds a failure (R291 to R293): Zenith, a Bank with its Anvil, or a Wisp. -/
inductive ArrayLoc where
  | zenith
  | bank (bank : BankId)
  | wisp (bank : BankId) (pos : Pos)
  deriving DecidableEq, Repr

/-- A failure that an array self-test finds: where, the array code, the row (none for the known products of an Anvil or the CRC
vectors of a Wisp), whether the repeated test would fail with a repair applied, and for a tier-1 slice the spare rows on BK_SREP_SPARES
(R290 to R292, R511). -/
structure ArrayFail where
  loc : ArrayLoc
  array : BitVec 7
  row : Option (BitVec 16)
  retestFails : Bool
  slicePort : BitVec 4
  deriving DecidableEq, Repr

/-- The identification of the ledger module that answers: its JEDEC ID, the density that its SFDP tables report, as log2 of bits,
and its unique ID (R413); and what it holds, where it was exchanged for another since the last start (R422). -/
structure ModuleId where
  jedec : BitVec 24
  density : BitVec 8
  uid : DWord
  content : Option Machine.ModuleContent
  deriving DecidableEq, Repr

/-- The commands. -/
inductive Instr where
  -- Frame and time
  | tick (inp : TickIn)
  | seedPeriod
  | zclkMeasure (khz : BitVec 21)
  | zclkChange (khz : BitVec 21)
  | coreClockRestart (bank : BankId) (pos : Pos) (restart : ClockRestart)
  | launchArm (p : Path)
  | launchCancel (p : Path) (entry : Fin 8)
  | gstop
  | stopCaptureDone (bank : BankId) (reads : List CapRead)
  | gresume
  | sigcap
  | ctrsnap
  | timeSnap (p : Path) (zc : Zc)
  | seedRead (p : Path)
  -- Check words
  | commandTap (bank : BankId) (pos : Pos) (cmd : Cmd)
  | carriedStore (bank : BankId) (pos : Pos) (addr : Addr) (data : List Byte)
  | checkWordWrite (bank : BankId) (pos : Pos)
  | carriedLoad (bank : BankId) (pos : Pos) (addr : Addr) (data : List Byte)
  | cwOutcomeAccept
  -- Anvil
  | candidatePresent (bank : BankId) (pos : Pos)
  | descriptorAccept (bank : BankId)
  | operandFetch (bank : BankId) (chan : Chan)
  | slot (bank : BankId)
  | submit (p : Path) (bank : BankId)
  | verdictAccept
  -- Contexts and the commit horizon
  | endStep (p : Path) (bank : BankId) (epoch : Bool) (ctx : CtxId)
  | levelChangeApply (ctx : CtxId)
  | create (p : Path)
  | setlvl (p : Path)
  | teardown (p : Path)
  | drainComplete (ctx : CtxId)
  | coolingExpire (ctx : CtxId)
  | epochCounted (ctx : CtxId) (epoch : Word)
  | epochSettle (ctx : CtxId)
  | tokenEmit
  | swIssue (ctx : CtxId)
  | nochkTransfer (ctx : CtxId) (epoch8 : BitVec 8)
  | provisionalNotice (peer : BitVec 16) (tag : BitVec 48) (link : Fin 16)
  | helloReceive (link : Fin 16) (msg : List Byte) (now : Zc)
  | commitReceive (link : Fin 16) (msg : List Byte)
  | retractReceive (link : Fin 16) (msg : List Byte)
  | exposeReceive (link : Fin 16) (msg : List Byte)
  | periodicHello
  | linkTrained (link : Fin 16) (width : Fin 65)
  | linkDown (link : Fin 16)
  | peerIdValid (id : BitVec 16)
  | tokenRefresh
  | entryExpire (peer : BitVec 16) (ctx : CtxId) (incarn : BitVec 16) (epoch8 : BitVec 8)
  | replayWaitExpire (ctx : CtxId) (step : Word)
  | resume (p : Path)
  | ccAnswerDone (p : Path) (bank : BankId) (ticket : BitVec 16)
  | ccAnswerNofit (p : Path) (bank : BankId) (ticket : BitVec 16)
  -- Unit health and field tests
  | testDue (u : UnitId)
  | graceExpire (u : UnitId)
  | hazeClearAge (u : UnitId)
  | dawnAgeQualify (u : UnitId)
  | ceWindowRestart
  | testLaunch (bank : BankId) (pos : Pos)
  | stashSaveDone (bank : BankId) (pos : Pos)
  | testDone (bank : BankId) (pos : Pos) (ended : Bool)
  | testLimit (bank : BankId) (pos : Pos)
  | restoreDone (bank : BankId) (pos : Pos) (upsetsA upsetsB : List (Nat × Byte))
  | remapApply (bank : BankId) (logical : Logical)
  | take (p : Path) (bank : BankId)
  | testReqStart (p : Path)
  | testReqCancel (p : Path)
  | onDemandExpire
  | uhtRead (p : Path)
  | uhtSet (p : Path)
  -- Pattern packages
  | install (p : Path)
  | packageCheckDone
  | rebcast (p : Path)
  | patSlotWriteDone (ok : Bool)
  | packetReceive (bank : BankId) (pos : Pos) (packet : Received)
  | imageCheckDone (bank : BankId) (pos : Pos)
  | broadcastTailEnd (bank : BankId)
  | lateRepair (bank : BankId) (pos : Pos)
  | retryRound
  -- Shutdown
  | shutdown (p : Path)
  | sdCancel (p : Path)
  | quiesceEnd
  | quiesceLimit
  | checkpointEnd (ok : Bool)
  | arrayTestEnd (failures : List ArrayFail)
  | coreTestGroupEnd (bank : BankId)
  | fuseEntryDone (bank : BankId) (ok : Bool)
  | certDone (ok : Bool)
  | sdLimitExpire
  -- Thermal
  | thermalUpdate
  | stopFramesExpire
  -- Hangs and recovery
  | hangDetect (ctx : CtxId)
  | captureEnd (incident : Word) (reads : List (BankId × CapRead))
  | recover (p : Path)
  | rcDone (ticket : BitVec 16)
  | rcFail (ticket : BitVec 16)
  | recovLimitExpire (ticket : BitVec 16)
  | suppressionEnd (incident : Word)
  | anvReset (p : Path) (bank : BitVec 8)
  | anvilNoProgress (bank : BankId)
  | anvilResetDone (bank : BankId) (pass : Bool)
  | anvRstLimitExpire (bank : BankId)
  | bankReset (p : Path) (bank : BitVec 8)
  | bankSummaryMissing (bank : BankId)
  | bankResetEnd (bank : BankId)
  | bankRstLimitExpire (bank : BankId)
  | kick (p : Path)
  | watchdogExpire
  -- Records and the journal
  | bankRecordAccept (bank : BankId) (zc : Zc)
  | journalAppend (zc : Zc)
  | journalEntryDurable
  | sectorErase
  | agesCheckpoint
  | recRdWrite (p : Path) (bank : BankId) (value : Word)
  | recFreeze (p : Path) (bank : BankId) (value : Word)
  | recFreezeExpire (bank : BankId)
  | wsRecFreeze (p : Path) (bank : BankId) (pos : Pos) (value : Word)
  | wsRecFreezeExpire (bank : BankId) (pos : Pos)
  | recClrArm (p : Path) (zc : Zc)
  | recClrClear (p : Path) (zc : Zc)
  | recW0Read (p : Path) (bank : BankId)
  | recW7Read (p : Path) (bank : BankId)
  | jnlSeqSnap (p : Path)
  -- Debug and profiling
  | counterSample (stream : Fin 8) (bank : BankId)
  | syncWaitEnd (bank : BankId) (pos : Pos) (clocks : Word) (target : Word) (zc : Zc)
  | commandOffer (bank : BankId) (tag : CmdTag)
  | contextHalted (ctx : CtxId)
  | continueHit (p : Path) (ctx : CtxId)
  | continueAll (p : Path)
  | dumpArm (p : Path) (entry : Fin 4)
  | dumpCancel (p : Path) (entry : Fin 4)
  | dumpCopyDone (entry : Fin 4)
  | graph (p : Path)
  | graphDone
  | counterRead (p : Path) (bank : BankId) (pos : Pos)
  | extremeRead (p : Path) (bank : BankId) (pos : Pos)
  -- Keys, alarms, ledger, Afsin
  | drbgReseed (healthy : Bool)
  | exportCmd (p : Path)
  | importApply
  | vglitch
  | cglitch
  | tamper
  | debugChallenge
  | debugUnlock (signature : BitVec 768)
  | entdaa (addr : BitVec 7)
  | setdasa (addr : BitVec 7)
  | setEndpointId (eid : BitVec 8)
  | getEndpointId
  | getMctpVersionSupport
  | getMessageTypeSupport
  | getVendorDefinedMessageSupport
  | getId (seq : Word)
  | sessionOpen (seq : Word) (pubKey : BitVec 776) (nonce : BitVec 256) (signature : BitVec 768)
  | sessionClose (h : AfsHead)
  | sessionTimeout
  | noticeAck (h : AfsHead) (ackSeq : Word)
  | noticeReoffer
  | regRead (h : AfsHead) (space : BitVec 8) (addr : Word)
  | regWrite (h : AfsHead) (space : BitVec 8) (addr value : Word)
  | unitSet (h : AfsHead) (u : UnitId) (state : BitVec 3) (reason : BitVec 8)
  | testReq (h : AfsHead) (sel count : Word)
  | patFragment (h : AfsHead) (offset : Word) (data : List Byte)
  | patCommit (h : AfsHead) (length : Word)
  | afsinShutdown (h : AfsHead)
  | recClear (h : AfsHead) (bank : BitVec 8)
  | afsinExport (h : AfsHead)
  | importFragment (h : AfsHead) (offset : Word) (data : List Byte)
  | importCommit (h : AfsHead) (length : Word)
  | format (h : AfsHead)
  | alarmClear (h : AfsHead)
  -- Start
  | odtResetRelease
  | startSelftestDone (failures : List ArrayFail) (module : Option ModuleId)
  | imageReadDone (image : List Byte)
  | journalReplayDone (bad : Option DWord) (readError : Bool)
  | hostCoresUp
  | hostwaitExpire
  | startupTestsDone
  -- Storage protection and scrub
  | pageDecodeDone (page : PageRef)
  | patrol
  | patrolNow (p : Path)
  | hostMemoryReport (ue consumed scrub : Bool) (loc : HostLoc)
  | hmrDropCount (n : BitVec 16)
  | scrubStart (p : Path)
  | scrubCancel (p : Path)
  | scrubDone
  -- Register interface
  | registerWrite (p : Path) (offset : BitVec 16) (value : Word) (byteEnables : BitVec 4)
  | indDataRead (p : Path)
  | indDataWrite (p : Path) (value : Word)
  | bitAliasWrite (bank : BankId) (addr : BitVec 21) (value : Word)
  | accumulatorRead (p : Path)
  | mailboxLastRead (p : Path) (offset : BitVec 16)
  -- Ports and pins
  | hostCoreReset (bank : BankId) (pos : Pos)
  | coreSupplyLoss (bank : BankId) (pos : Pos)
  | parkRequest (bank : BankId) (pos : Pos)
  | parkRelease (bank : BankId) (pos : Pos)
  | odtResetAssert
  | odtPwrOkFall
  | aonPor
  | packageSlotReadDone (bytes : List Byte)
  | exportDone
  deriving DecidableEq, Repr

end Sys2Proof
end

