-- ==== Sys2Proof/Decode.lean ====
section
/-! DEFINITION. The commands that words spell. The table of operations and events gives none of its rows any bits: the block
has no instruction encoding, and its commands arrive at ports and pins. -/

namespace Sys2Proof

/-- The command that a word spells by the table's bits: no row has bits, so no word spells one (log entry 3). -/
def decodeTableWord (_nbits _w : Nat) : Option Instr := none

end Sys2Proof
end

