-- ==== Sys2Proof/Machine/PageCode.lean ====
section
/-! DEFINITION. The odd parity of a byte and the page code: the field GF(2^8), the Reed–Solomon code RS(136,128) with its encoder and
decoder, and a page as 32 interleaved codewords (R457 to R461). -/

namespace Sys2Proof.Machine

/-! ## Parity (R457) -/

/-- The number of ones among the lowest `n` bits. -/
def ones (n x : Nat) : Nat := ((List.range n).filter (fun i => x.testBit i)).length

/-- The parity bit written with a byte: it gives odd parity over the nine bits. -/
def parityBit (b : Byte) : Bool := decide (ones 8 b.toNat % 2 = 0)

/-- The nine bits in which a byte is stored: its parity bit is bit 8. -/
def nineBits (b : Byte) : BitVec 9 := BitVec.ofNat 9 (b.toNat + 256 * bit (parityBit b))

/-- A read of nine stored bits has a parity hit: their parity is even. -/
def readHits (c : BitVec 9) : Bool := decide (ones 9 c.toNat % 2 = 0)

/-! ## The field (R458) -/

/-- Multiplication by α = 0x02 in GF(2^8) over 0x11D. -/
def gfDouble (a : Nat) : Nat := if a < 128 then 2 * a else (2 * a) ^^^ 0x11D

/-- The product of `a` and the lowest `n` bits of `b`. -/
def gfMulBits : Nat → Nat → Nat → Nat
  | 0, _, _ => 0
  | n + 1, a, b => (if b % 2 = 1 then a else 0) ^^^ gfMulBits n (gfDouble a) (b / 2)

/-- The product of two field elements. -/
def gfMul (a b : Nat) : Nat := if a = 0 then 0 else gfMulBits 8 a b

/-- α^n. -/
def alphaPow : Nat → Nat
  | 0 => 1
  | n + 1 => gfDouble (alphaPow n)

/-- The inverse of a field element other than 0: a^254. -/
def gfInv (a : Nat) : Nat :=
  let r := (List.range 6).foldl (fun (r : Nat) _ => gfMul (gfMul r r) a) a
  gfMul r r

/-! ## The generator and the check symbols (R458) -/

/-- The sum of two polynomials, coefficients from x^0 up. -/
def polyAdd : List Nat → List Nat → List Nat
  | [], q => q
  | p, [] => p
  | a :: p, b :: q => (a ^^^ b) :: polyAdd p q

/-- A polynomial times a field element. -/
def polyScale (c : Nat) (p : List Nat) : List Nat := p.map (gfMul c)

/-- The value of a polynomial. -/
def polyEval (p : List Nat) (x : Nat) : Nat := p.foldr (fun c v => c ^^^ gfMul x v) 0

/-- g(x) = (x − α^0)(x − α^1) … (x − α^7), coefficients from x^0 up. -/
def generator : List Nat :=
  (List.range 8).foldl (fun (g : List Nat) i => polyAdd (polyScale (alphaPow i) g) (0 :: g)) [1]

/-- The remainder, coefficients from x^7 down, after one more data symbol, the highest first. -/
def checkStep (r : List Nat) (d : Nat) : List Nat :=
  let fb := d ^^^ r.headD 0
  List.zipWith (fun (a g : Nat) => a ^^^ gfMul fb g) (r.tail ++ [0]) ((generator.take 8).reverse)

/-- The 8 check symbols of data symbols, the coefficient of x^135 first: check symbol k is the coefficient of x^(7 − k) of the remainder
of d(x) × x^8 divided by g(x). -/
def checkSymbols (data : List Nat) : List Nat := data.foldl checkStep (List.replicate 8 0)

/-- c(j, k): the coefficient that the generator matrix gives data symbol j in check symbol k (R461). -/
def genCoeff (j k : Nat) : Nat := (checkSymbols (1 :: List.replicate (127 - j) 0)).getD k 0

/-! ## One interleave (R460) -/

/-- Syndrome `l` of the byte errors of an interleave, each by its index m, the coefficient of x^(135 − m). -/
def syndrome (errs : List (Nat × Nat)) (l : Nat) : Nat :=
  errs.foldl (fun (s : Nat) e => s ^^^ gfMul e.2 (alphaPow (l * (135 - e.1) % 255))) 0

/-- The locator of symbols at known indices: the product of 1 − α^(135 − m) x. -/
def locator (ms : List Nat) : List Nat :=
  ms.foldl (fun (p : List Nat) m => polyAdd p (0 :: polyScale (alphaPow (135 - m)) p)) [1]

/-- The state of the search for the locator of erasures and errors: the locator, its last correction and its length. -/
structure Locator where
  lam : List Nat
  aux : List Nat
  len : Nat
  deriving DecidableEq, Repr

/-- Step `r` of the search (Berlekamp and Massey) with `e` erasures. -/
def Locator.next (syn : List Nat) (e : Nat) (x : Locator) (r : Nat) : Locator :=
  let delta := ((List.range (r + 1)).map (fun j => gfMul (x.lam.getD j 0) (syn.getD (r - j) 0))).foldl (· ^^^ ·) 0
  let shifted := 0 :: x.aux
  if delta = 0 then { x with aux := shifted }
  else
    let lam := polyAdd x.lam (polyScale delta shifted)
    if 2 * x.len ≤ r + e then { lam := lam, aux := polyScale (gfInv delta) x.lam, len := r + 1 + e - x.len }
    else { lam := lam, aux := shifted, len := x.len }

/-- The formal derivative of a polynomial. -/
def polyDeriv (p : List Nat) : List Nat := (p.tail.zipIdx).map (fun c => if c.2 % 2 = 0 then c.1 else 0)

/-- The correction of one interleave: of the erasures at `erased` and of at most (8 − e)/2 other symbols, the index and value of each;
none where the decoder finds no solution. -/
def decodeSymbols (errs : List (Nat × Nat)) (erased : List Nat) : Option (List (Nat × Nat)) :=
  let e := erased.length
  if 8 < e then none
  else
    let syn := (List.range 8).map (syndrome errs)
    let init := locator erased
    let x := (List.range (8 - e)).foldl (fun (x : Locator) i => x.next syn e (e + i)) { lam := init, aux := init, len := e }
    let roots := (List.range 136).filter (fun m => decide (polyEval x.lam (alphaPow (120 + m)) = 0))
    let omega := ((List.range 8).map (fun r =>
      ((List.range (r + 1)).map (fun j => gfMul (x.lam.getD j 0) (syn.getD (r - j) 0))).foldl (· ^^^ ·) 0))
    let value (m : Nat) : Nat :=
      let xi := alphaPow (120 + m)
      gfMul (alphaPow (135 - m)) (gfMul (polyEval omega xi) (gfInv (polyEval (polyDeriv x.lam) xi)))
    let fix := roots.map (fun m => (m, value m))
    let left := (List.range 8).all (fun l => syndrome (errs ++ fix) l == 0)
    if 2 * (x.len - e) + e ≤ 8 && decide (roots.length = x.len) && left then some fix else none

/-- The nine-bit difference of a byte that differs by `v` and has the parity of what it holds. -/
def cellOf (v : Nat) : BitVec 9 := BitVec.ofNat 9 (v + 256 * (ones 8 v % 2))

/-- A difference shows a parity hit: an odd number of its bits. -/
def cellHits (c : BitVec 9) : Bool := decide (ones 9 c.toNat % 2 = 1)

/-- Decode one interleave of stored differences, by index: the differences left and the symbols corrected; none where it is
uncorrectable. Each corrected byte that was not an erasure must agree with its stored parity bit. -/
def decodeInterleave (cells : Tbl (BitVec 9)) : Option (Tbl (BitVec 9) × Nat) :=
  let erased := Tbl.keysP (fun _ c => cellHits c) cells
  match decodeSymbols (cells.map (fun c => (c.1, c.2.toNat % 256))) erased with
  | none => none
  | some fix =>
    let after (m v : Nat) : Nat := (Tbl.get 0 cells m).toNat % 256 ^^^ v
    let agrees (f : Nat × Nat) : Bool :=
      erased.contains f.1 || decide (f.2 = 0) ||
        !cellHits (BitVec.ofNat 9 (after f.1 f.2 + 256 * ((Tbl.get 0 cells f.1).toNat / 256)))
    if fix.all agrees then
      some (fix.foldl (fun (acc : Tbl (BitVec 9) × Nat) f =>
        let c := if f.2 = 0 && !erased.contains f.1 then Tbl.get 0 cells f.1 else cellOf (after f.1 f.2)
        (Tbl.set 0 acc.1 f.1 c, acc.2 + bit (decide (c ≠ Tbl.get 0 cells f.1)))) (cells, 0))
    else none

/-! ## A page (R459) -/

/-- The interleave of a position. -/
def interleaveOf (pos : Nat) : Nat := pos % 32

/-- The index of a position within its interleave: the coefficient of x^(135 − index), for data and check symbols alike. -/
def indexOf (pos : Nat) : Nat := pos / 32

/-- The position of data byte j of interleave i. -/
def dataPos (i j : Nat) : Nat := 32 * j + i

/-- The position of check symbol k of interleave i. -/
def checkPos (i k : Nat) : Nat := 4096 + 32 * k + i

/-- The differences of one interleave, by index. -/
def interleave (cells : Tbl (BitVec 9)) (i : Nat) : Tbl (BitVec 9) :=
  (cells.filter (fun c => decide (interleaveOf c.1 = i))).map (fun c => (indexOf c.1, c.2))

/-- Decode a page of stored differences: the differences left and the symbols corrected; none where an interleave is uncorrectable
(R460). -/
def decodePage (cells : Tbl (BitVec 9)) : Option (Tbl (BitVec 9) × Nat) :=
  (List.range 32).foldl (fun (acc : Option (Tbl (BitVec 9) × Nat)) i =>
    match acc with
    | none => none
    | some (t, n) =>
      match interleave cells i with
      | [] => some (t, n)
      | l => match decodeInterleave l with
        | none => none
        | some (left, m) =>
          some (left.foldl (fun (t : Tbl (BitVec 9)) c => Tbl.set 0 t (32 * c.1 + i) c.2)
            (t.filter (fun c => decide (interleaveOf c.1 ≠ i))), n + m)) (some (cells, 0))

/-- A write of data position `pos` in the same access reads the byte that it replaces and the check symbols of its interleave; one of
them shows a parity hit (R461, R462). -/
def writeHits (cells : Tbl (BitVec 9)) (pos : Nat) : Bool :=
  cellHits (Tbl.get 0 cells pos) ||
    (List.range 8).any (fun k => cellHits (Tbl.get 0 cells (checkPos (interleaveOf pos) k)))

/-- The stored differences after a write of data position `pos`: the byte is as written, and the linear delta of the byte it replaced
carries that byte's difference into the check symbols (R461). -/
def writeCell (cells : Tbl (BitVec 9)) (pos : Nat) : Tbl (BitVec 9) :=
  let v := (Tbl.get 0 cells pos).toNat % 256
  let t := Tbl.erase cells pos
  if v = 0 then t
  else (List.range 8).foldl (fun (t : Tbl (BitVec 9)) k =>
    let at_ := checkPos (interleaveOf pos) k
    Tbl.set 0 t at_ (cellOf ((Tbl.get 0 t at_).toNat % 256 ^^^ gfMul v (genCoeff (indexOf pos) k)))) t

end Sys2Proof.Machine
end

