-- ==== Sys2Proof/Machine/Crc.lean ====
section
/-! DEFINITION. CRC-32C (R74) and the mixing function of R127. -/

namespace Sys2Proof.Machine

/-- One bit of the CRC register, reflected polynomial 0x82F6_3B78 (R74). -/
def crcBit (r : Word) : Word := if r.getLsbD 0 then (r >>> 1) ^^^ 0x82F63B78 else r >>> 1

/-- One byte into the CRC register. -/
def crcByte (r : Word) (b : Byte) : Word :=
  let x := r ^^^ b.setWidth 32
  crcBit (crcBit (crcBit (crcBit (crcBit (crcBit (crcBit (crcBit x)))))))

/-- CRC-32C of bytes in address order (R74). -/
def crc32c (l : List Byte) : Word := ~~~(l.foldl crcByte 0xFFFFFFFF)

/-- CRC-32C of words, low byte first. -/
def crcWords (l : List Word) : Word := crc32c (l.flatMap (fun w => leBytes 4 w.toNat))

/-- The mixing function (R127). -/
def mix64 (z0 : DWord) : DWord :=
  let z1 := (z0 ^^^ (z0 >>> 30)) * 0xBF58476D1CE4E5B9
  let z2 := (z1 ^^^ (z1 >>> 27)) * 0x94D049BB133111EB
  z2 ^^^ (z2 >>> 31)

end Sys2Proof.Machine
end

