-- ==== Sys2Proof/Config.lean ====
section
/-! DEFINITION. What a part or an implementation fixes and the manual leaves open: constants without a body, so that nothing
can be proved of their values. -/

namespace Sys2Proof.Config

/-- Free value: LAT of ZN_TICK_LAT is 1 plus this value modulo 255 (R38: 1 to 255, not fixed by the manual). -/
opaque tickLatRaw : Nat

/-- Free value: STEPPING of ZN_ID_REVISION (R498: implementation value). -/
opaque stepping : BitVec 8

/-- The fused chip identity CHIP_ID (R408): any 128-bit value. DESIGN CHOICE (log entry 141). -/
opaque chipId : BitVec 128

/-- The fused chip root key (R408). -/
opaque rootKey : BitVec 256

/-- The fused SHA-384 digest of the image key (R438). -/
opaque imageKeyDigest : BitVec 384

/-- Free value: the n-th 512-bit draw from the DRBG (R411). -/
opaque drbg : Nat → BitVec 512

/-- Free value: the zc offset, within the current frame, of a moment that the command does not state. -/
opaque freeZc : Nat → Zc

/-- Free value: the n-th choice that the manual leaves open; its user reduces it to the alternatives there are. -/
opaque freeChoice : Nat → Nat

/-- Free value: to which side of the true value the internal format of an element function errs (R113: by at most 2^-40 of it, not stated
further), by function code and the exactly decoded input: sign, significand, exponent. DESIGN CHOICE (log entry 58). -/
opaque elemUp : Nat → Bool → Nat → Int → Bool

/-- Free value: the same for SOFTMAX_NORM, by the row of decoded inputs. -/
opaque softmaxUp : List (Bool × Nat × Int) → Bool

end Sys2Proof.Config
end

