-- ==== Sys2Proof/Machine/Formats.lean ====
section
/-! DEFINITION. The numbers of an Anvil (R93 to R103, R108): formats and their decoding, exact values in the long accumulator,
rounding to a format, and rationals rounded to binary64 and binary32. -/

namespace Sys2Proof.Machine

/-! ## Formats (R95) -/

/-- A floating-point format: element bits, exponent bits e, fraction bits t, bias. -/
structure FloatFmt where
  bits : Nat
  e : Nat
  t : Nat
  bias : Nat
  deriving DecidableEq, Repr

/-- The floating-point formats by code (R95). -/
def floatFmt : Nat → Option FloatFmt
  | 0x3 => some { bits := 4, e := 2, t := 1, bias := 1 }
  | 0x4 => some { bits := 6, e := 2, t := 3, bias := 1 }
  | 0x5 => some { bits := 6, e := 3, t := 2, bias := 3 }
  | 0x6 => some { bits := 8, e := 4, t := 3, bias := 7 }
  | 0x7 => some { bits := 8, e := 5, t := 2, bias := 15 }
  | 0x8 => some { bits := 16, e := 5, t := 10, bias := 15 }
  | 0x9 => some { bits := 16, e := 8, t := 7, bias := 127 }
  | 0xA => some { bits := 32, e := 8, t := 23, bias := 127 }
  | _ => none

/-- FP32, the format of the mimic arithmetic. -/
def fp32 : FloatFmt where
  bits := 32
  e := 8
  t := 23
  bias := 127

/-- The bits of an element (R93, R95); reserved codes are never read. -/
def elemBits : Nat → Nat
  | 0x0 => 4
  | 0x1 => 8
  | 0x2 => 8
  | 0xB => 32
  | c => ((floatFmt c).map (fun f => f.bits)).getD 8

/-- Products per zc of a format (R95). -/
def elemRate (c : Nat) : Nat := if c ≤ 2 then 128 else if c = 0xA ∨ c = 0xB then 16 else 64

/-- An integer format. -/
def isIntFmt (c : Nat) : Bool := decide (c ≤ 2) || decide (c = 0xB)

/-- A format code that is not reserved (R95). -/
def isFmt (c : Nat) : Bool := decide (c ≤ 0xB)

/-- A format that R96 allows block scaling with. -/
def isScalable (c : Nat) : Bool := decide (c = 1) || (decide (3 ≤ c) && decide (c ≤ 7))

/-! ## Decoded values (R94) -/

/-- A decoded value: (−1)^neg × m × 2^q, an infinity, or NaN. -/
inductive Num where
  | fin (neg : Bool) (m : Nat) (q : Int)
  | inf (neg : Bool)
  | nan
  deriving DecidableEq, Repr

/-- The value is a finite number. -/
def Num.isFin : Num → Bool
  | .fin _ _ _ => true
  | _ => false

/-- The long accumulator's integer for a finite value (R98, R99): its value times 2^320. -/
def Num.fix : Num → Int
  | .fin neg m q =>
    let v := Int.ofNat (m * 2 ^ (q + 320).toNat)
    if neg then -v else v
  | _ => 0

/-- A zero of negative sign. -/
def Num.isNegZero : Num → Bool
  | .fin neg m _ => neg && decide (m = 0)
  | _ => false

/-- The number of an accumulator integer, with the sign of an exact zero (R101). -/
def Num.ofFix (v : Int) (negZero : Bool) : Num := .fin (decide (v < 0) || (decide (v = 0) && negZero)) v.natAbs (-320)

/-- The exact sum of terms: NaN if any is or if infinities of both signs occur, else an infinity, else exact with the zero sign
of R101 (R101, R111). -/
def Num.sum (l : List Num) : Num :=
  let pos := l.any (fun x => x == .inf false)
  let neg := l.any (fun x => x == .inf true)
  if l.any (fun x => x == .nan) || (pos && neg) then .nan
  else if pos then .inf false
  else if neg then .inf true
  else .ofFix (l.foldl (fun a x => a + x.fix) 0) (!l.isEmpty && l.all Num.isNegZero)

/-- A product: exact, with the classes of R111. -/
def Num.mul : Num → Num → Num
  | .fin s m q, .fin s' m' q' => .fin (s != s') (m * m') (q + q')
  | .nan, _ => .nan
  | _, .nan => .nan
  | .inf s, .inf s' => .inf (s != s')
  | .inf s, .fin s' m _ => if m = 0 then .nan else .inf (s != s')
  | .fin s m _, .inf s' => if m = 0 then .nan else .inf (s != s')

/-- Decode a floating-point element (R94, R95). -/
def FloatFmt.decode (f : FloatFmt) (raw : Nat) (daz : Bool) : Num :=
  let frac := raw % 2 ^ f.t
  let ex := (raw / 2 ^ f.t) % 2 ^ f.e
  let neg := decide ((raw / 2 ^ (f.t + f.e)) % 2 = 1)
  let top := 2 ^ f.e - 1
  if f.bits = 8 && f.e = 4 && ex = top && frac = 7 then .nan
  else if 5 ≤ f.e && ex = top then (if frac = 0 then .inf neg else .nan)
  else if ex = 0 then .fin neg (if daz then 0 else frac) (1 - Int.ofNat f.bias - Int.ofNat f.t)
  else .fin neg (2 ^ f.t + frac) (Int.ofNat ex - Int.ofNat f.bias - Int.ofNat f.t)

/-- Decode an integer element (R94). -/
def decodeInt (code raw : Nat) : Num :=
  let n := elemBits code
  let v := raw % 2 ^ n
  if code ≠ 2 && 2 ^ (n - 1) ≤ v then .fin true (2 ^ n - v) 0 else .fin false v 0

/-- Decode an element of a code under DAZ (R94, R97). -/
def decodeElem (code raw : Nat) (daz : Bool) : Num :=
  match floatFmt code with
  | some f => f.decode raw daz
  | none => decodeInt code raw

/-- A block scale applied to a decoded element (R96): X = 0xFF is NaN; MXINT8 counts in units of 2^-6. -/
def Num.scaled (code x : Nat) : Num → Num
  | .fin neg m q =>
    if x = 0xFF then .nan else .fin neg m (q + Int.ofNat x - (if code = 1 then 133 else 127))
  | v => if x = 0xFF then .nan else v

/-! ## Rounding to a format (R102, R103) -/

/-- The largest finite value, as an accumulator integer. -/
def FloatFmt.largest (f : FloatFmt) : Nat :=
  if f.bits = 8 && f.e = 4 then 14 * 2 ^ 325
  else if f.e < 5 then (2 ^ (f.t + 1) - 1) * 2 ^ (320 + 2 ^ f.e - 1 - f.bias - f.t)
  else (2 ^ (f.t + 1) - 1) * 2 ^ (320 + f.bias - f.t)

/-- The overflow threshold: the largest finite value plus half its last ulp (R102, R112). -/
def FloatFmt.threshold (f : FloatFmt) : Nat :=
  let m := if f.bits = 8 && f.e = 4 then 14 else 2 ^ (f.t + 1) - 1
  f.largest + f.largest / m / 2

/-- Round to nearest, ties to even, of `a / 2^s`. DEDUCED (log entry 66). -/
def rne (a s : Nat) : Nat :=
  let n := a / 2 ^ s
  let r := a % 2 ^ s
  if 2 ^ s < 2 * r || (2 * r = 2 ^ s && n % 2 = 1) then n + 1 else n

/-- The encoding of a sign and a code without sign. -/
def FloatFmt.signed (f : FloatFmt) (neg : Bool) (code : Nat) : Nat := (if neg then 2 ^ (f.bits - 1) else 0) + code

/-- The encoding of an infinity; E4M3 has NaN in its place (R102). -/
def FloatFmt.infCode (f : FloatFmt) (neg : Bool) : Nat :=
  if f.bits = 8 && f.e = 4 then f.signed neg 0x7F else f.signed neg ((2 ^ f.e - 1) * 2 ^ f.t)

/-- The encoding of NaN. -/
def FloatFmt.nanCode (f : FloatFmt) : Nat := 2 ^ (f.bits - 1) - 1

/-- An exact value converted with round-to-nearest, ties-to-even (R102), under FTZ. -/
def FloatFmt.roundFix (f : FloatFmt) (ftz : Bool) (v : Int) (negZero : Bool) : Nat :=
  let a := v.natAbs
  let neg := decide (v < 0) || (decide (v = 0) && negZero)
  if a = 0 then f.signed neg 0
  else if f.threshold ≤ a then f.infCode neg
  else
    let least := 321 - f.bias - f.t
    let s := max (Nat.log2 a - f.t) least
    let n := rne a s
    let code := if n < 2 ^ f.t then n else (s - least + 1) * 2 ^ f.t + (n - 2 ^ f.t)
    f.signed neg (if ftz && decide (n < 2 ^ f.t) then 0 else code)

/-- A value converted to a format (R102). -/
def FloatFmt.round (f : FloatFmt) (ftz : Bool) : Num → Nat
  | .nan => f.nanCode
  | .inf neg => f.infCode neg
  | .fin neg m q => f.roundFix ftz (Num.fin neg m q).fix neg

/-- The clamp of SAT (R103): an exact value brought to the range of the format. -/
def FloatFmt.clamp (f : FloatFmt) (v : Int) : Int :=
  if Int.ofNat f.largest < v then Int.ofNat f.largest
  else if v < -Int.ofNat f.largest then -Int.ofNat f.largest
  else v

/-- A value clamped by SAT, and whether that changed it (R103, R106). -/
def FloatFmt.saturate (f : FloatFmt) (sat : Bool) : Num → Num × Bool
  | .nan => (.nan, false)
  | .inf neg => if sat then (.ofFix (if neg then -Int.ofNat f.largest else Int.ofNat f.largest) false, true) else (.inf neg, false)
  | x =>
    let v := f.clamp x.fix
    if sat && decide (v ≠ x.fix) then (.ofFix v false, true) else (x, false)

/-- Round an exact value to FP32 (R105). -/
def rne32 (ftz : Bool) (x : Num) : Num :=
  match x with
  | .fin _ _ _ => fp32.decode (fp32.round ftz x) false
  | y => y

/-! ## Rationals for the bound (R109) -/

/-- A non-negative rational, `n / d`. -/
structure Frac where
  n : Nat
  d : Nat
  deriving DecidableEq, Repr

/-- An accumulator integer's magnitude as a rational. -/
def Frac.ofFix (a : Nat) : Frac where
  n := a
  d := 2 ^ 320

/-- A whole number. -/
def Frac.ofNat (a : Nat) : Frac where
  n := a
  d := 1

/-- `m × 2^q`. -/
def Frac.dyadic (m : Nat) (q : Int) : Frac where
  n := m * 2 ^ q.toNat
  d := 2 ^ (-q).toNat

/-- Sum. -/
def Frac.add (a b : Frac) : Frac where
  n := a.n * b.d + b.n * a.d
  d := a.d * b.d

/-- Product. -/
def Frac.mul (a b : Frac) : Frac where
  n := a.n * b.n
  d := a.d * b.d

/-- Quotient. -/
def Frac.div (a b : Frac) : Frac where
  n := a.n * b.d
  d := a.d * b.n

/-- Strictly less. -/
def Frac.lt (a b : Frac) : Bool := decide (a.n * b.d < b.n * a.d)

/-- ⌊log2⌋ of a positive rational. -/
def Frac.log2 (x : Frac) : Int :=
  let e := Int.ofNat (Nat.log2 x.n) - Int.ofNat (Nat.log2 x.d)
  if x.d * 2 ^ e.toNat ≤ x.n * 2 ^ (-e).toNat then e else e - 1

/-- A positive rational rounded to `p` significant bits, down or up, with least weight 2^least: the significand and its weight. -/
def Frac.roundTo (p : Nat) (least : Int) (up : Bool) (x : Frac) : Nat × Int :=
  let q := max (x.log2 - (Int.ofNat p - 1)) least
  let a := x.n * 2 ^ (-q).toNat
  let b := x.d * 2 ^ q.toNat
  (if up then ceilDiv a b else a / b, q)

/-- Rounded to binary64, upward or toward zero. -/
def Frac.f64 (up : Bool) (x : Frac) : Frac :=
  if x.n = 0 then Frac.ofNat 0
  else
    let (m, q) := x.roundTo 53 (-1074) up
    .dyadic m q

/-- Rounded down to binary32: the encoding (R109 step 11). -/
def Frac.f32Down (x : Frac) : Word :=
  if x.n = 0 || x.d = 0 then 0
  else
    let (m, q) := x.roundTo 24 (-149) false
    let code := if m < 2 ^ 23 then m else (q + 150).toNat * 2 ^ 23 + (m - 2 ^ 23)
    w32 (min code 0x7F7FFFFF)

end Sys2Proof.Machine
end

