-- ==== Sys2Proof/Machine/Functions.lean ====
section
/-! DEFINITION. The element functions of an Anvil (R113, R114): the true value of each function, in fixed point with 640 fraction bits, and
the FP32 reference that the internal format rounds to. DESIGN CHOICE (log entry 58). -/

namespace Sys2Proof.Machine

/-! ## Fixed point with 640 fraction bits -/

/-- One. -/
def fixOne : Int := 2 ^ 640

/-- A product. -/
def fixMul (a b : Int) : Int := a * b / fixOne

/-- A quotient. -/
def fixDiv (a b : Int) : Int := a * fixOne / b

/-- A finite value in this form. -/
def Num.wide (v : Num) : Int := v.fix * 2 ^ 320

/-- `k` more terms of the series of e^r: `term` is r^(n-1) / (n-1)!. -/
def expSeries (r : Int) : Nat → Nat → Int → Int → Int
  | 0, _, _, acc => acc
  | k + 1, n, term, acc =>
    let t := fixMul term r / Int.ofNat n
    expSeries r k (n + 1) t (acc + t)

/-- `k` terms of the sum of p y2^i / (n + 2 i): the series of artanh, and with a negative `y2` that of arctan. -/
def artanhSeries (y2 : Int) : Nat → Nat → Int → Int → Int
  | 0, _, _, acc => acc
  | k + 1, n, p, acc => artanhSeries y2 k (n + 2) (fixMul p y2) (acc + p / Int.ofNat n)

/-- artanh y for |y| ≤ 1/3. -/
def artanhOf (y : Int) : Int := artanhSeries (fixMul y y) 210 1 y 0

/-- arctan y for |y| ≤ 1/5. -/
def arctanOf (y : Int) : Int := artanhSeries (-(fixMul y y)) 150 1 y 0

/-- ln 2. -/
def fixLn2 : Int := 2 * artanhOf (fixOne / 3)

/-- π. -/
def fixPi : Int := 16 * arctanOf (fixOne / 5) - 4 * arctanOf (fixOne / 239)

/-- ⌊√n⌋, bit by bit from bit `k - 1` down. -/
def sqrtBits (n : Nat) : Nat → Nat → Nat
  | 0, acc => acc
  | k + 1, acc => sqrtBits n k (if (acc + 2 ^ k) * (acc + 2 ^ k) ≤ n then acc + 2 ^ k else acc)

/-- The square root of a non-negative value. -/
def fixSqrt (a : Int) : Int := Int.ofNat (sqrtBits (a * fixOne).toNat 1100 0)

/-! ## The functions (R113) -/

/-- e^x; 0 below the range of every format, and beyond the range of every format one value for all. -/
def fixExp (x : Int) : Int :=
  if x ≤ -1024 * fixOne then 0
  else if 1024 * fixOne ≤ x then fixOne * 2 ^ 1400
  else
    let k := (x + fixLn2 / 2) / fixLn2
    let e := expSeries (x - k * fixLn2) 120 1 fixOne fixOne
    if 0 ≤ k then e * 2 ^ k.toNat else e / 2 ^ (-k).toNat

/-- ln x for a positive x. -/
def fixLn (x : Int) : Int :=
  let b := Nat.log2 x.toNat
  let m0 := if 640 ≤ b then x / 2 ^ (b - 640) else x * 2 ^ (640 - b)
  let e0 := Int.ofNat b - 640
  let big := decide (3 * fixOne < 2 * m0)
  let y := if big then fixDiv (m0 - 2 * fixOne) (m0 + 2 * fixOne) else fixDiv (m0 - fixOne) (m0 + fixOne)
  (if big then e0 + 1 else e0) * fixLn2 + 2 * artanhOf y

/-- tanh x. -/
def fixTanh (x : Int) : Int :=
  let a := if x < 0 then -x else x
  let t := if 512 * fixOne ≤ a then fixOne
    else
      let e := fixExp (2 * a)
      fixDiv (e - fixOne) (e + fixOne)
  if x < 0 then -t else t

/-- 1 / (1 + e^−x). -/
def fixSigmoid (x : Int) : Int := fixDiv fixOne (fixOne + fixExp (-x))

/-- GELU by tanh: x / (1 + e^−2u) with u = √(2/π) (x + 0.044715 x³). -/
def fixGeluTanh (x : Int) : Int :=
  if x ≤ -1024 * fixOne then 0
  else if 1024 * fixOne ≤ x then x
  else
    let u := fixMul (fixSqrt (fixDiv (2 * fixOne) fixPi)) (x + 44715 * fixMul (fixMul x x) x / 1000000)
    fixMul x (fixSigmoid (2 * u))

/-- `k` more terms of the sum of a^(2n+1) / (1 × 3 × … × (2n+1)). -/
def normalSeries (a2 : Int) : Nat → Nat → Int → Int → Int
  | 0, _, _, acc => acc
  | k + 1, n, term, acc =>
    let t := fixMul term a2 / Int.ofNat (2 * n + 1)
    normalSeries a2 k (n + 1) t (acc + t)

/-- (1 + erf(x / √2)) / 2. -/
def fixNormal (x : Int) : Int :=
  let a := if x < 0 then -x else x
  let above :=
    if 16 * fixOne ≤ a then fixOne
    else
      let a2 := fixMul a a
      fixOne / 2 + fixMul (fixDiv (fixExp (-(a2 / 2))) (fixSqrt (2 * fixPi))) (normalSeries a2 700 1 a a)
  if x < 0 then fixOne - above else above

/-- The true value of an element function at a finite input where it has one (R113). -/
def trueValue (func : Nat) (v : Num) : Int :=
  let x := v.wide
  match func with
  | 1 => fixExp x
  | 2 => fixLn x
  | 3 => fixTanh x
  | 4 => fixSigmoid x
  | 5 => fixGeluTanh x
  | 6 => fixMul x (fixNormal x)
  | 7 => fixDiv fixOne x
  | _ => fixSqrt (fixDiv fixOne x)

/-- The true value of SOFTMAX_NORM over a row of finite inputs, −∞ aside (R113). -/
def softmaxValue (row : List Num) : Int :=
  let xs := row.map Num.wide
  let top := xs.foldl max (xs.headD 0)
  xs.foldl (fun a x => a + fixExp (x - top)) 0

/-! ## The reference (R113, R114) -/

/-- The FP32 reference for a true value: what the internal format, at most 2^-40 of the value away from it, rounds to; `up` says to which
side it is away. A value too small for FP32 is a zero of the sign given. -/
def refOf (t : Int) (neg up : Bool) : Num :=
  let off := Int.ofNat (t.natAbs / 2 ^ 40)
  fp32.decode (fp32.roundFix false ((if up then t + off else t - off) / 2 ^ 320) neg) false

/-- A true value lies within t_h + 4 ulps of the output format's overflow threshold (R114). -/
def nearEdge (f : FloatFmt) (tH : Nat) (t : Int) : Bool :=
  let m := if f.bits = 8 && f.e = 4 then 14 else 2 ^ (f.t + 1) - 1
  let ulp := f.largest / m
  decide ((Int.ofNat t.natAbs - Int.ofNat (f.threshold * 2 ^ 320)).natAbs ≤ (tH + 4) * ulp * 2 ^ 320)

/-- The sign of a function's zero: that of its input for TANH and GELU. -/
def zeroSign (func : Nat) (v : Num) : Bool :=
  match v with
  | .fin s _ _ => s && (decide (func = 3) || decide (func = 5) || decide (func = 6))
  | _ => false

end Sys2Proof.Machine
end

