-- ==== Sys2Proof/Machine/RegMap.lean ====
section
/-! DEFINITION. The register maps of the Zenith window, the Bank spaces and the Wisp spaces (R499, R500, R501, with the
register tables of every chapter): each register's byte offset under its manual name, and which of its bits a write
changes. A register that is not in these rows is a hole (R481). -/

namespace Sys2Proof.Reg

/-- The three register spaces (R499 to R501). -/
inductive Space where
  | zn
  | bk
  | ws
  deriving DecidableEq, Repr

/-- One register, or an array of `count` registers `stride` bytes apart: the masks of its RW, RWM, CMD and WO bits (R7). -/
structure Row where
  space : Space
  lo : Nat
  count : Nat
  stride : Nat
  rw : Nat
  rwm : Nat
  cmd : Nat
  wo : Nat
  deriving DecidableEq, Repr

/-- ZN_ID_PRODUCT, R498. -/
def ZN_ID_PRODUCT : Nat := 0x0000
/-- ZN_ID_REVISION, R498. -/
def ZN_ID_REVISION : Nat := 0x0004
/-- ZN_ID_PARAM0, R498. -/
def ZN_ID_PARAM0 : Nat := 0x0008
/-- ZN_ID_PARAM1, R498. -/
def ZN_ID_PARAM1 : Nat := 0x000C
/-- ZN_ID_PARAM2, R498. -/
def ZN_ID_PARAM2 : Nat := 0x0010
/-- ZN_REG_CNT_HOLE, R498. -/
def ZN_REG_CNT_HOLE : Nat := 0x0020
/-- ZN_REG_CNT_DENIED, R498. -/
def ZN_REG_CNT_DENIED : Nat := 0x0024
/-- ZN_REG_WHOAMI, R498. -/
def ZN_REG_WHOAMI : Nat := 0x0028
/-- ZN_TIME_CMD, R62. -/
def ZN_TIME_CMD : Nat := 0x0400
/-- ZN_TIME_MB_STAT, R62. -/
def ZN_TIME_MB_STAT : Nat := 0x0404
/-- ZN_TIME_MB_LO, R62. -/
def ZN_TIME_MB_LO : Nat := 0x0408
/-- ZN_TIME_MB_HI, R62. -/
def ZN_TIME_MB_HI : Nat := 0x040C
/-- ZN_ZCLK_KHZ, R62. -/
def ZN_ZCLK_KHZ : Nat := 0x0410
/-- ZN_TICK_LAT, R62. -/
def ZN_TICK_LAT : Nat := 0x0414
/-- ZN_LAUNCH_FRAME_LO, R62. -/
def ZN_LAUNCH_FRAME_LO : Nat := 0x0420
/-- ZN_LAUNCH_FRAME_HI, R62. -/
def ZN_LAUNCH_FRAME_HI : Nat := 0x0424
/-- ZN_LAUNCH_ACT, R62. -/
def ZN_LAUNCH_ACT : Nat := 0x0428
/-- ZN_LAUNCH_CMD, R62. -/
def ZN_LAUNCH_CMD : Nat := 0x042C
/-- ZN_LAUNCH_STAT, R62. -/
def ZN_LAUNCH_STAT : Nat := 0x0430
/-- ZN_STOP_STAT, R62. -/
def ZN_STOP_STAT : Nat := 0x0440
/-- ZN_STOP_LOST, R62. -/
def ZN_STOP_LOST : Nat := 0x0444
/-- ZN_TICK_FAULT, R62. -/
def ZN_TICK_FAULT : Nat := 0x0448
/-- ZN_SEED_FRAME_LO, R63. -/
def ZN_SEED_FRAME_LO : Nat := 0x0450
/-- ZN_SEED_FRAME_HI, R63. -/
def ZN_SEED_FRAME_HI : Nat := 0x0454
/-- ZN_SEED_CMD, R63. -/
def ZN_SEED_CMD : Nat := 0x0458
/-- ZN_SEED_MB_STAT, R63. -/
def ZN_SEED_MB_STAT : Nat := 0x045C
/-- ZN_SEED_MB_LO, R63. -/
def ZN_SEED_MB_LO : Nat := 0x0460
/-- ZN_SEED_MB_HI, R63. -/
def ZN_SEED_MB_HI : Nat := 0x0464
/-- ZN_LVL_BUDGET, R184. -/
def ZN_LVL_BUDGET : Nat := 0x0800
/-- ZN_LVL_USE, R184. -/
def ZN_LVL_USE : Nat := 0x0804
/-- ZN_CTX_SEL, R184. -/
def ZN_CTX_SEL : Nat := 0x0810
/-- ZN_CTX_CFG, R184. -/
def ZN_CTX_CFG : Nat := 0x0814
/-- ZN_CTX_CMD, R184. -/
def ZN_CTX_CMD : Nat := 0x0818
/-- ZN_CTX_STAT, R184. -/
def ZN_CTX_STAT : Nat := 0x081C
/-- ZN_CTX_DRAIN, R184. -/
def ZN_CTX_DRAIN : Nat := 0x0820
/-- ZN_CTX_DISCARDED, R184. -/
def ZN_CTX_DISCARDED : Nat := 0x0824
/-- ZN_CTX_DEAD_IN, R184. -/
def ZN_CTX_DEAD_IN : Nat := 0x0828
/-- ZN_CTX_CORES, R184. -/
def ZN_CTX_CORES : Nat := 0x082C
/-- ZN_CTX_INCARN, R184. -/
def ZN_CTX_INCARN : Nat := 0x0830
/-- ZN_ANV_CAPS, R119. -/
def ZN_ANV_CAPS : Nat := 0x1000
/-- ZN_ANV_FUNCS, R119. -/
def ZN_ANV_FUNCS : Nat := 0x1004
/-- ZN_ANV_LIVE, R119. -/
def ZN_ANV_LIVE : Nat := 0x1008
/-- ZN_ANV_CNT_MATCH, R119. -/
def ZN_ANV_CNT_MATCH : Nat := 0x1010
/-- ZN_ANV_CNT_WITHIN, R119. -/
def ZN_ANV_CNT_WITHIN : Nat := 0x1014
/-- ZN_ANV_CNT_BEYOND, R119. -/
def ZN_ANV_CNT_BEYOND : Nat := 0x1018
/-- ZN_ANV_CNT_NONFINITE, R119. -/
def ZN_ANV_CNT_NONFINITE : Nat := 0x101C
/-- ZN_ANV_CNT_VOID, R119. -/
def ZN_ANV_CNT_VOID : Nat := 0x1020
/-- ZN_ANV_CNT_NULL, R119. -/
def ZN_ANV_CNT_NULL : Nat := 0x1024
/-- ZN_ANV_CNT_LATE, R119. -/
def ZN_ANV_CNT_LATE : Nat := 0x1028
/-- ZN_ANV_CNT_DROPPED, R119. -/
def ZN_ANV_CNT_DROPPED : Nat := 0x102C
/-- ZN_ANV_CNT_MISS, R119. -/
def ZN_ANV_CNT_MISS : Nat := 0x1030
/-- ZN_ANV_CNT_NOBOUND, R119. -/
def ZN_ANV_CNT_NOBOUND : Nat := 0x1034
/-- ZN_ANV_CNT_RANGE, R119. -/
def ZN_ANV_CNT_RANGE : Nat := 0x1038
/-- ZN_ANV_CNT_BADDESC, R119. -/
def ZN_ANV_CNT_BADDESC : Nat := 0x103C
/-- ZN_HZ_TIMEOUT, R226. -/
def ZN_HZ_TIMEOUT : Nat := 0x1800
/-- ZN_HZ_REPLAY_WAIT, R226. -/
def ZN_HZ_REPLAY_WAIT : Nat := 0x1804
/-- ZN_HZ_REFRESH, R226. -/
def ZN_HZ_REFRESH : Nat := 0x1808
/-- ZN_HZ_CTL, R226. -/
def ZN_HZ_CTL : Nat := 0x180C
/-- ZN_HZ_RTT_REF, R226. -/
def ZN_HZ_RTT_REF : Nat := 0x1810
/-- ZN_HZ_SELF, R226. -/
def ZN_HZ_SELF : Nat := 0x1814
/-- ZN_HZ_INB, R226. -/
def ZN_HZ_INB : Nat := 0x1818
/-- ZN_HZ_LOG, R226. -/
def ZN_HZ_LOG : Nat := 0x181C
/-- ZN_HZ_PEND, R226. -/
def ZN_HZ_PEND : Nat := 0x1820
/-- ZN_HZ_LINK (first of 16), R226. -/
def ZN_HZ_LINK : Nat := 0x1840
/-- ZN_HZ_CTX_GROUP, R226. -/
def ZN_HZ_CTX_GROUP : Nat := 0x1880
/-- ZN_HZ_CTX_EPOCH, R226. -/
def ZN_HZ_CTX_EPOCH : Nat := 0x1884
/-- ZN_HZ_CTX_COMMITTED, R226. -/
def ZN_HZ_CTX_COMMITTED : Nat := 0x1888
/-- ZN_HZ_CTX_STAT, R226. -/
def ZN_HZ_CTX_STAT : Nat := 0x188C
/-- ZN_HZ_CTX_CMD, R226. -/
def ZN_HZ_CTX_CMD : Nat := 0x1890
/-- ZN_HZ_CTX_RETR_FIRST, R226. -/
def ZN_HZ_CTX_RETR_FIRST : Nat := 0x1894
/-- ZN_HZ_CTX_RETR_LAST, R226. -/
def ZN_HZ_CTX_RETR_LAST : Nat := 0x1898
/-- ZN_HZ_CTX_STALL, R226. -/
def ZN_HZ_CTX_STALL : Nat := 0x189C
/-- ZN_HZ_CNT_COMMIT_OUT, R226. -/
def ZN_HZ_CNT_COMMIT_OUT : Nat := 0x18C0
/-- ZN_HZ_CNT_RETRACT_OUT, R226. -/
def ZN_HZ_CNT_RETRACT_OUT : Nat := 0x18C4
/-- ZN_HZ_CNT_REFRESH, R226. -/
def ZN_HZ_CNT_REFRESH : Nat := 0x18C8
/-- ZN_HZ_CNT_COMMIT_IN, R226. -/
def ZN_HZ_CNT_COMMIT_IN : Nat := 0x18CC
/-- ZN_HZ_CNT_RETRACT_IN, R226. -/
def ZN_HZ_CNT_RETRACT_IN : Nat := 0x18D0
/-- ZN_HZ_CNT_NOENTRY, R226. -/
def ZN_HZ_CNT_NOENTRY : Nat := 0x18D4
/-- ZN_HZ_CNT_LATE, R226. -/
def ZN_HZ_CNT_LATE : Nat := 0x18D8
/-- ZN_HZ_CNT_TIMEOUT, R226. -/
def ZN_HZ_CNT_TIMEOUT : Nat := 0x18DC
/-- ZN_HZ_CNT_FULL, R226. -/
def ZN_HZ_CNT_FULL : Nat := 0x18E0
/-- ZN_HZ_CNT_UNHELD, R226. -/
def ZN_HZ_CNT_UNHELD : Nat := 0x18E4
/-- ZN_HZ_CNT_BADMSG, R226. -/
def ZN_HZ_CNT_BADMSG : Nat := 0x18E8
/-- ZN_HZ_CNT_EXPOSE_OUT, R226. -/
def ZN_HZ_CNT_EXPOSE_OUT : Nat := 0x18EC
/-- ZN_HZ_CNT_EXPOSE_IN, R226. -/
def ZN_HZ_CNT_EXPOSE_IN : Nat := 0x18F0
/-- ZN_HZ_CNT_REPLAYS, R226. -/
def ZN_HZ_CNT_REPLAYS : Nat := 0x18F4
/-- ZN_HZ_CNT_ABANDONED, R226. -/
def ZN_HZ_CNT_ABANDONED : Nat := 0x18F8
/-- ZN_HZ_CNT_LOGFULL, R226. -/
def ZN_HZ_CNT_LOGFULL : Nat := 0x18FC
/-- ZN_UHT_SEL, R258. -/
def ZN_UHT_SEL : Nat := 0x2000
/-- ZN_UHT_CMD, R258. -/
def ZN_UHT_CMD : Nat := 0x2004
/-- ZN_UHT_MB_STAT, R258. -/
def ZN_UHT_MB_STAT : Nat := 0x2008
/-- ZN_UHT_MB (first of 4), R258. -/
def ZN_UHT_MB : Nat := 0x2010
/-- ZN_UHT_SETVAL, R258. -/
def ZN_UHT_SETVAL : Nat := 0x2020
/-- ZN_UHT_N (first of 5), R258. -/
def ZN_UHT_N : Nat := 0x2030
/-- ZN_UHT_WIN, R258. -/
def ZN_UHT_WIN : Nat := 0x2050
/-- ZN_UHT_CE, R258. -/
def ZN_UHT_CE : Nat := 0x2054
/-- ZN_UHT_DAWN, R258. -/
def ZN_UHT_DAWN : Nat := 0x2058
/-- ZN_UHT_DAWN_AGE, R258. -/
def ZN_UHT_DAWN_AGE : Nat := 0x205C
/-- ZN_UHT_CAP, R258. -/
def ZN_UHT_CAP : Nat := 0x2060
/-- ZN_UHT_SPARES, R258. -/
def ZN_UHT_SPARES : Nat := 0x2064
/-- ZN_UHT_CNT_HAZE, R258. -/
def ZN_UHT_CNT_HAZE : Nat := 0x2070
/-- ZN_UHT_CNT_OVERCAST, R258. -/
def ZN_UHT_CNT_OVERCAST : Nat := 0x2074
/-- ZN_UHT_CNT_ECLIPSE, R258. -/
def ZN_UHT_CNT_ECLIPSE : Nat := 0x2078
/-- ZN_UHT_CNT_CLEAR, R258. -/
def ZN_UHT_CNT_CLEAR : Nat := 0x207C
/-- ZN_UHT_CNT_REMAP, R258. -/
def ZN_UHT_CNT_REMAP : Nat := 0x2080
/-- ZN_UHT_CNT_SET, R258. -/
def ZN_UHT_CNT_SET : Nat := 0x2084
/-- ZN_TST_PER_CLEAR, R259. -/
def ZN_TST_PER_CLEAR : Nat := 0x2800
/-- ZN_TST_PER_HAZE, R259. -/
def ZN_TST_PER_HAZE : Nat := 0x2804
/-- ZN_TST_PER_OVC, R259. -/
def ZN_TST_PER_OVC : Nat := 0x2808
/-- ZN_TST_PER_T2, R259. -/
def ZN_TST_PER_T2 : Nat := 0x280C
/-- ZN_TST_GRACE, R259. -/
def ZN_TST_GRACE : Nat := 0x2810
/-- ZN_TST_CTL, R259. -/
def ZN_TST_CTL : Nat := 0x2814
/-- ZN_TST_REQ_SEL, R259. -/
def ZN_TST_REQ_SEL : Nat := 0x2820
/-- ZN_TST_REQ_COUNT, R259. -/
def ZN_TST_REQ_COUNT : Nat := 0x2824
/-- ZN_TST_REQ_CMD, R259. -/
def ZN_TST_REQ_CMD : Nat := 0x2828
/-- ZN_TST_REQ_STAT, R259. -/
def ZN_TST_REQ_STAT : Nat := 0x282C
/-- ZN_TST_REQ_PASS, R259. -/
def ZN_TST_REQ_PASS : Nat := 0x2830
/-- ZN_TST_REQ_FAIL, R259. -/
def ZN_TST_REQ_FAIL : Nat := 0x2834
/-- ZN_TST_REQ_VOID, R259. -/
def ZN_TST_REQ_VOID : Nat := 0x2838
/-- ZN_TST_REQ_NOTRUN, R259. -/
def ZN_TST_REQ_NOTRUN : Nat := 0x283C
/-- ZN_TST_ACTIVE, R259. -/
def ZN_TST_ACTIVE : Nat := 0x2840
/-- ZN_TST_CNT_PASS, R259. -/
def ZN_TST_CNT_PASS : Nat := 0x2850
/-- ZN_TST_CNT_FAIL, R259. -/
def ZN_TST_CNT_FAIL : Nat := 0x2854
/-- ZN_TST_CNT_VOID, R259. -/
def ZN_TST_CNT_VOID : Nat := 0x2858
/-- ZN_TST_CNT_OVERDUE, R259. -/
def ZN_TST_CNT_OVERDUE : Nat := 0x285C
/-- ZN_TST_CNT_STASH_LOST, R259. -/
def ZN_TST_CNT_STASH_LOST : Nat := 0x2860
/-- ZN_TST_CNT_COPYB, R259. -/
def ZN_TST_CNT_COPYB : Nat := 0x2864
/-- ZN_PAT_SRC_LO, R281. -/
def ZN_PAT_SRC_LO : Nat := 0x2880
/-- ZN_PAT_SRC_HI, R281. -/
def ZN_PAT_SRC_HI : Nat := 0x2884
/-- ZN_PAT_LEN, R281. -/
def ZN_PAT_LEN : Nat := 0x2888
/-- ZN_PAT_CMD, R281. -/
def ZN_PAT_CMD : Nat := 0x288C
/-- ZN_PAT_STAT, R281. -/
def ZN_PAT_STAT : Nat := 0x2890
/-- ZN_PAT_VER_LO, R281. -/
def ZN_PAT_VER_LO : Nat := 0x2894
/-- ZN_PAT_VER_HI, R281. -/
def ZN_PAT_VER_HI : Nat := 0x2898
/-- ZN_PAT_FLOOR_LO, R281. -/
def ZN_PAT_FLOOR_LO : Nat := 0x289C
/-- ZN_PAT_FLOOR_HI, R281. -/
def ZN_PAT_FLOOR_HI : Nat := 0x28A0
/-- ZN_PAT_INFO, R281. -/
def ZN_PAT_INFO : Nat := 0x28A4
/-- ZN_PAT_RETRY, R281. -/
def ZN_PAT_RETRY : Nat := 0x28A8
/-- ZN_PAT_MISSING, R281. -/
def ZN_PAT_MISSING : Nat := 0x28AC
/-- ZN_PAT_CNT_INSTALL, R281. -/
def ZN_PAT_CNT_INSTALL : Nat := 0x28B0
/-- ZN_PAT_CNT_REJECT, R281. -/
def ZN_PAT_CNT_REJECT : Nat := 0x28B4
/-- ZN_PAT_CNT_ROUNDS, R281. -/
def ZN_PAT_CNT_ROUNDS : Nat := 0x28B8
/-- ZN_PAT_CNT_REPAIR, R281. -/
def ZN_PAT_CNT_REPAIR : Nat := 0x28BC
/-- ZN_PAT_CNT_LATE, R281. -/
def ZN_PAT_CNT_LATE : Nat := 0x28C0
/-- ZN_SD_CTL, R304. -/
def ZN_SD_CTL : Nat := 0x2900
/-- ZN_SD_QUIESCE, R304. -/
def ZN_SD_QUIESCE : Nat := 0x2904
/-- ZN_SD_LIMIT, R304. -/
def ZN_SD_LIMIT : Nat := 0x2908
/-- ZN_SD_CMD, R304. -/
def ZN_SD_CMD : Nat := 0x290C
/-- ZN_SD_STAT, R304. -/
def ZN_SD_STAT : Nat := 0x2910
/-- ZN_SD_ROWS, R304. -/
def ZN_SD_ROWS : Nat := 0x2914
/-- ZN_SD_FUSES, R304. -/
def ZN_SD_FUSES : Nat := 0x2918
/-- ZN_SD_UNITS_FAIL, R304. -/
def ZN_SD_UNITS_FAIL : Nat := 0x291C
/-- ZN_SD_CORES_PASS, R304. -/
def ZN_SD_CORES_PASS : Nat := 0x2920
/-- ZN_SD_CORES_FAIL, R304. -/
def ZN_SD_CORES_FAIL : Nat := 0x2924
/-- ZN_SD_CORES_VOID, R304. -/
def ZN_SD_CORES_VOID : Nat := 0x2928
/-- ZN_SD_CORES_NOTRUN, R304. -/
def ZN_SD_CORES_NOTRUN : Nat := 0x292C
/-- ZN_THM_CTL, R329. -/
def ZN_THM_CTL : Nat := 0x3000
/-- ZN_THM_LIMITS, R329. -/
def ZN_THM_LIMITS : Nat := 0x3004
/-- ZN_THM_RISE, R329. -/
def ZN_THM_RISE : Nat := 0x3008
/-- ZN_THM_MARGIN, R329. -/
def ZN_THM_MARGIN : Nat := 0x300C
/-- ZN_THM_STOP, R329. -/
def ZN_THM_STOP : Nat := 0x3010
/-- ZN_THM_AMB, R329. -/
def ZN_THM_AMB : Nat := 0x3014
/-- ZN_THM_STAT, R329. -/
def ZN_THM_STAT : Nat := 0x3018
/-- ZN_THM_HOT, R329. -/
def ZN_THM_HOT : Nat := 0x301C
/-- ZN_THM_NODE_SEL, R329. -/
def ZN_THM_NODE_SEL : Nat := 0x3020
/-- ZN_THM_NODE_CMD, R329. -/
def ZN_THM_NODE_CMD : Nat := 0x3024
/-- ZN_THM_NODE_MB_STAT, R329. -/
def ZN_THM_NODE_MB_STAT : Nat := 0x3028
/-- ZN_THM_NODE_MB (first of 4), R329. -/
def ZN_THM_NODE_MB : Nat := 0x3030
/-- ZN_THM_CNT_UPDATES, R329. -/
def ZN_THM_CNT_UPDATES : Nat := 0x3040
/-- ZN_THM_CNT_EXCURSION, R329. -/
def ZN_THM_CNT_EXCURSION : Nat := 0x3044
/-- ZN_THM_CNT_DISAGREE, R329. -/
def ZN_THM_CNT_DISAGREE : Nat := 0x3048
/-- ZN_THM_CNT_NOEST, R329. -/
def ZN_THM_CNT_NOEST : Nat := 0x304C
/-- ZN_THM_CNT_THR_FRAMES, R329. -/
def ZN_THM_CNT_THR_FRAMES : Nat := 0x3050
/-- ZN_THM_DIODE (first of 80), R329. -/
def ZN_THM_DIODE : Nat := 0x3100
/-- ZN_HANG_FRAMES, R358. -/
def ZN_HANG_FRAMES : Nat := 0x3800
/-- ZN_RECOV_LIMIT, R358. -/
def ZN_RECOV_LIMIT : Nat := 0x3804
/-- ZN_SUPP_EXTRA, R358. -/
def ZN_SUPP_EXTRA : Nat := 0x3808
/-- ZN_HOST_RETRY, R358. -/
def ZN_HOST_RETRY : Nat := 0x380C
/-- ZN_ANV_RST_LIMIT, R358. -/
def ZN_ANV_RST_LIMIT : Nat := 0x3810
/-- ZN_BANK_RST_LIMIT, R358. -/
def ZN_BANK_RST_LIMIT : Nat := 0x3814
/-- ZN_WDOG, R358. -/
def ZN_WDOG : Nat := 0x3818
/-- ZN_WDOG_KICK, R358. -/
def ZN_WDOG_KICK : Nat := 0x381C
/-- ZN_HANG_CTL, R358. -/
def ZN_HANG_CTL : Nat := 0x3820
/-- ZN_HANG_STAT, R358. -/
def ZN_HANG_STAT : Nat := 0x3824
/-- ZN_RST_CAUSE, R358. -/
def ZN_RST_CAUSE : Nat := 0x3828
/-- ZN_HANG_LAST, R358. -/
def ZN_HANG_LAST : Nat := 0x3830
/-- ZN_HANG_LAST_UNIT, R358. -/
def ZN_HANG_LAST_UNIT : Nat := 0x3834
/-- ZN_HANG_LAST_WAIT, R358. -/
def ZN_HANG_LAST_WAIT : Nat := 0x3838
/-- ZN_HANG_LAST_INC, R358. -/
def ZN_HANG_LAST_INC : Nat := 0x383C
/-- ZN_RECOV_CMD, R358. -/
def ZN_RECOV_CMD : Nat := 0x3840
/-- ZN_RECOV_STAT, R358. -/
def ZN_RECOV_STAT : Nat := 0x3844
/-- ZN_HANG_CNT_HUNG, R358. -/
def ZN_HANG_CNT_HUNG : Nat := 0x3850
/-- ZN_HANG_CNT_COLLATERAL, R358. -/
def ZN_HANG_CNT_COLLATERAL : Nat := 0x3854
/-- ZN_HANG_CNT_RECOVERED, R358. -/
def ZN_HANG_CNT_RECOVERED : Nat := 0x3858
/-- ZN_HANG_CNT_RECOV_TO, R358. -/
def ZN_HANG_CNT_RECOV_TO : Nat := 0x385C
/-- ZN_HANG_CNT_ANV_RESET, R358. -/
def ZN_HANG_CNT_ANV_RESET : Nat := 0x3860
/-- ZN_HANG_CNT_ANV_ISO, R358. -/
def ZN_HANG_CNT_ANV_ISO : Nat := 0x3864
/-- ZN_HANG_CNT_BANK_RESET, R358. -/
def ZN_HANG_CNT_BANK_RESET : Nat := 0x3868
/-- ZN_HANG_CNT_BANK_ISO, R358. -/
def ZN_HANG_CNT_BANK_ISO : Nat := 0x386C
/-- ZN_HANG_CNT_LATE, R358. -/
def ZN_HANG_CNT_LATE : Nat := 0x3870
/-- ZN_HANG_CNT_CAPLOST, R358. -/
def ZN_HANG_CNT_CAPLOST : Nat := 0x3874
/-- ZN_HANG_CNT_BANKLOST, R358. -/
def ZN_HANG_CNT_BANKLOST : Nat := 0x3878
/-- ZN_REC_CLR_SEL, R381. -/
def ZN_REC_CLR_SEL : Nat := 0x4000
/-- ZN_REC_CLR_CMD, R381. -/
def ZN_REC_CLR_CMD : Nat := 0x4004
/-- ZN_REC_CLR_STAT, R381. -/
def ZN_REC_CLR_STAT : Nat := 0x4008
/-- ZN_JNL_STAT, R381. -/
def ZN_JNL_STAT : Nat := 0x4010
/-- ZN_JNL_START, R381. -/
def ZN_JNL_START : Nat := 0x4014
/-- ZN_JNL_SEQ_CMD, R381. -/
def ZN_JNL_SEQ_CMD : Nat := 0x4018
/-- ZN_JNL_SEQ_STAT, R381. -/
def ZN_JNL_SEQ_STAT : Nat := 0x401C
/-- ZN_JNL_SEQ_LO, R381. -/
def ZN_JNL_SEQ_LO : Nat := 0x4020
/-- ZN_JNL_SEQ_HI, R381. -/
def ZN_JNL_SEQ_HI : Nat := 0x4024
/-- ZN_JNL_DUR_LO, R381. -/
def ZN_JNL_DUR_LO : Nat := 0x4028
/-- ZN_JNL_DUR_HI, R381. -/
def ZN_JNL_DUR_HI : Nat := 0x402C
/-- ZN_JNL_CKPT, R381. -/
def ZN_JNL_CKPT : Nat := 0x4030
/-- ZN_JNL_CNT_APPEND, R381. -/
def ZN_JNL_CNT_APPEND : Nat := 0x4040
/-- ZN_JNL_CNT_LOST, R381. -/
def ZN_JNL_CNT_LOST : Nat := 0x4044
/-- ZN_JNL_CNT_CKPT, R381. -/
def ZN_JNL_CNT_CKPT : Nat := 0x4048
/-- ZN_REC_CNT_CLEAR, R381. -/
def ZN_REC_CNT_CLEAR : Nat := 0x404C
/-- ZN_CTR_S_CFG (first of 8), R405. -/
def ZN_CTR_S_CFG : Nat := 0x4800
/-- ZN_CTR_S_CTX (first of 8), R405. -/
def ZN_CTR_S_CTX : Nat := 0x4804
/-- ZN_CTR_S_AREA (first of 8), R405. -/
def ZN_CTR_S_AREA : Nat := 0x4808
/-- ZN_CTR_S_SIZE (first of 8), R405. -/
def ZN_CTR_S_SIZE : Nat := 0x480C
/-- ZN_CTR_S_STAT (first of 8), R405. -/
def ZN_CTR_S_STAT : Nat := 0x4810
/-- ZN_CTR_S_SKIPPED (first of 8), R405. -/
def ZN_CTR_S_SKIPPED : Nat := 0x4814
/-- ZN_CTR_S_SAMPLES (first of 8), R405. -/
def ZN_CTR_S_SAMPLES : Nat := 0x4818
/-- ZN_DMP_CTX (first of 4), R405. -/
def ZN_DMP_CTX : Nat := 0x4900
/-- ZN_DMP_TAG (first of 4), R405. -/
def ZN_DMP_TAG : Nat := 0x4904
/-- ZN_DMP_HANDLE (first of 4), R405. -/
def ZN_DMP_HANDLE : Nat := 0x4908
/-- ZN_DMP_STEP (first of 4), R405. -/
def ZN_DMP_STEP : Nat := 0x490C
/-- ZN_DMP_AREA (first of 4), R405. -/
def ZN_DMP_AREA : Nat := 0x4910
/-- ZN_DMP_LIMIT (first of 4), R405. -/
def ZN_DMP_LIMIT : Nat := 0x4914
/-- ZN_DMP_STAT (first of 4), R405. -/
def ZN_DMP_STAT : Nat := 0x4918
/-- ZN_DMP_BYTES (first of 4), R405. -/
def ZN_DMP_BYTES : Nat := 0x491C
/-- ZN_DMP_CMD, R405. -/
def ZN_DMP_CMD : Nat := 0x4980
/-- ZN_DMP_RES, R405. -/
def ZN_DMP_RES : Nat := 0x4984
/-- ZN_BRK_CFG (first of 8), R405. -/
def ZN_BRK_CFG : Nat := 0x4A00
/-- ZN_BRK_MATCH0 (first of 8), R405. -/
def ZN_BRK_MATCH0 : Nat := 0x4A04
/-- ZN_BRK_MATCH1 (first of 8), R405. -/
def ZN_BRK_MATCH1 : Nat := 0x4A08
/-- ZN_BRK_STEP (first of 8), R405. -/
def ZN_BRK_STEP : Nat := 0x4A0C
/-- ZN_BRK_CMD, R405. -/
def ZN_BRK_CMD : Nat := 0x4A80
/-- ZN_BRK_STAT, R405. -/
def ZN_BRK_STAT : Nat := 0x4A84
/-- ZN_BRK_CTXSTAT, R405. -/
def ZN_BRK_CTXSTAT : Nat := 0x4A88
/-- ZN_TRC_CTL, R405. -/
def ZN_TRC_CTL : Nat := 0x4B00
/-- ZN_TRC_MIN, R405. -/
def ZN_TRC_MIN : Nat := 0x4B04
/-- ZN_TRC_AREA, R405. -/
def ZN_TRC_AREA : Nat := 0x4B08
/-- ZN_TRC_SIZE, R405. -/
def ZN_TRC_SIZE : Nat := 0x4B0C
/-- ZN_TRC_CNT_EVENTS, R405. -/
def ZN_TRC_CNT_EVENTS : Nat := 0x4B10
/-- ZN_TRC_CNT_LOST, R405. -/
def ZN_TRC_CNT_LOST : Nat := 0x4B14
/-- ZN_WFG_CMD, R405. -/
def ZN_WFG_CMD : Nat := 0x4C00
/-- ZN_WFG_STAT, R405. -/
def ZN_WFG_STAT : Nat := 0x4C04
/-- ZN_WFG_AREA, R405. -/
def ZN_WFG_AREA : Nat := 0x4C08
/-- ZN_DBG_CNT_DENIED, R405. -/
def ZN_DBG_CNT_DENIED : Nat := 0x4C40
/-- ZN_DBG_CNT_REJECT, R405. -/
def ZN_DBG_CNT_REJECT : Nat := 0x4C44
/-- ZN_KEY_ID (first of 4), R435. -/
def ZN_KEY_ID : Nat := 0x5000
/-- ZN_ALM_STAT, R435. -/
def ZN_ALM_STAT : Nat := 0x5010
/-- ZN_ALM_CNT_FROZEN, R435. -/
def ZN_ALM_CNT_FROZEN : Nat := 0x5014
/-- ZN_ALM_CNT_RAISE, R435. -/
def ZN_ALM_CNT_RAISE : Nat := 0x5018
/-- ZN_LDG_STAT, R435. -/
def ZN_LDG_STAT : Nat := 0x5020
/-- ZN_LDG_WEAR, R435. -/
def ZN_LDG_WEAR : Nat := 0x5024
/-- ZN_LDG_UID_LO, R435. -/
def ZN_LDG_UID_LO : Nat := 0x5028
/-- ZN_LDG_UID_HI, R435. -/
def ZN_LDG_UID_HI : Nat := 0x502C
/-- ZN_LDG_JEDEC, R435. -/
def ZN_LDG_JEDEC : Nat := 0x5030
/-- ZN_EXP_ADDR_LO, R435. -/
def ZN_EXP_ADDR_LO : Nat := 0x5040
/-- ZN_EXP_ADDR_HI, R435. -/
def ZN_EXP_ADDR_HI : Nat := 0x5044
/-- ZN_EXP_CMD, R435. -/
def ZN_EXP_CMD : Nat := 0x5048
/-- ZN_EXP_STAT, R435. -/
def ZN_EXP_STAT : Nat := 0x504C
/-- ZN_AFS_STAT, R435. -/
def ZN_AFS_STAT : Nat := 0x5060
/-- ZN_AFS_CNT_SENT, R435. -/
def ZN_AFS_CNT_SENT : Nat := 0x5064
/-- ZN_AFS_CNT_LOST, R435. -/
def ZN_AFS_CNT_LOST : Nat := 0x5068
/-- ZN_AFS_CNT_BADAUTH, R435. -/
def ZN_AFS_CNT_BADAUTH : Nat := 0x506C
/-- ZN_START_STAT, R456. -/
def ZN_START_STAT : Nat := 0x5800
/-- ZN_CFG_STAT, R456. -/
def ZN_CFG_STAT : Nat := 0x5804
/-- ZN_CFG_WHERE, R456. -/
def ZN_CFG_WHERE : Nat := 0x5808
/-- ZN_CFG_VER_LO, R456. -/
def ZN_CFG_VER_LO : Nat := 0x580C
/-- ZN_CFG_VER_HI, R456. -/
def ZN_CFG_VER_HI : Nat := 0x5810
/-- ZN_CFG_STEWARD, R456. -/
def ZN_CFG_STEWARD : Nat := 0x5814
/-- ZN_CFG_DIGEST (first of 12), R456. -/
def ZN_CFG_DIGEST : Nat := 0x5820
/-- ZN_START_FRAMES, R456. -/
def ZN_START_FRAMES : Nat := 0x5850
/-- ZN_START_TPASS, R456. -/
def ZN_START_TPASS : Nat := 0x5854
/-- ZN_START_TFAIL, R456. -/
def ZN_START_TFAIL : Nat := 0x5858
/-- ZN_START_TVOID, R456. -/
def ZN_START_TVOID : Nat := 0x585C
/-- ZN_CFG_CNT_REJECT, R456. -/
def ZN_CFG_CNT_REJECT : Nat := 0x5860
/-- ZN_PROT_CTL, R475. -/
def ZN_PROT_CTL : Nat := 0x6000
/-- ZN_PROT_CMD, R475. -/
def ZN_PROT_CMD : Nat := 0x6004
/-- ZN_PROT_STAT, R475. -/
def ZN_PROT_STAT : Nat := 0x6008
/-- ZN_PROT_CNT_PAR, R475. -/
def ZN_PROT_CNT_PAR : Nat := 0x6010
/-- ZN_PROT_CNT_CORR, R475. -/
def ZN_PROT_CNT_CORR : Nat := 0x6014
/-- ZN_PROT_CNT_SYM, R475. -/
def ZN_PROT_CNT_SYM : Nat := 0x6018
/-- ZN_PROT_CNT_RELOAD, R475. -/
def ZN_PROT_CNT_RELOAD : Nat := 0x601C
/-- ZN_PROT_CNT_PATROL, R475. -/
def ZN_PROT_CNT_PATROL : Nat := 0x6020
/-- ZN_HMR_CNT_CE, R475. -/
def ZN_HMR_CNT_CE : Nat := 0x6030
/-- ZN_HMR_CNT_UE, R475. -/
def ZN_HMR_CNT_UE : Nat := 0x6034
/-- ZN_HMR_CNT_UNMAPPED, R475. -/
def ZN_HMR_CNT_UNMAPPED : Nat := 0x6038
/-- ZN_HMR_CNT_HOSTDROP, R475. -/
def ZN_HMR_CNT_HOSTDROP : Nat := 0x603C
/-- ZN_HMR_LAST, R475. -/
def ZN_HMR_LAST : Nat := 0x6040
/-- ZN_SCR_BASE_LO, R475. -/
def ZN_SCR_BASE_LO : Nat := 0x6080
/-- ZN_SCR_BASE_HI, R475. -/
def ZN_SCR_BASE_HI : Nat := 0x6084
/-- ZN_SCR_LEN, R475. -/
def ZN_SCR_LEN : Nat := 0x6088
/-- ZN_SCR_CTL, R475. -/
def ZN_SCR_CTL : Nat := 0x608C
/-- ZN_SCR_RATE, R475. -/
def ZN_SCR_RATE : Nat := 0x6090
/-- ZN_SCR_CMD, R475. -/
def ZN_SCR_CMD : Nat := 0x6094
/-- ZN_SCR_STAT, R475. -/
def ZN_SCR_STAT : Nat := 0x6098
/-- ZN_SCR_PAGES, R475. -/
def ZN_SCR_PAGES : Nat := 0x60A0
/-- ZN_SCR_CE, R475. -/
def ZN_SCR_CE : Nat := 0x60A4
/-- ZN_SCR_UE, R475. -/
def ZN_SCR_UE : Nat := 0x60A8
/-- ZN_SCR_RETIRED, R475. -/
def ZN_SCR_RETIRED : Nat := 0x60AC
/-- ZN_SCR_CWFAIL, R475. -/
def ZN_SCR_CWFAIL : Nat := 0x60B0
/-- ZN_IND_ADDR, R490. -/
def ZN_IND_ADDR : Nat := 0x7000
/-- ZN_IND_DATA, R490. -/
def ZN_IND_DATA : Nat := 0x7004
/-- ZN_IND_CTL, R490. -/
def ZN_IND_CTL : Nat := 0x7008
/-- ZN_IND_STAT, R490. -/
def ZN_IND_STAT : Nat := 0x700C
/-- ZN_MB_SEL, R488. -/
def ZN_MB_SEL : Nat := 0x7100
/-- ZN_MB_CMD, R488. -/
def ZN_MB_CMD : Nat := 0x7104
/-- ZN_MB_STAT, R488. -/
def ZN_MB_STAT : Nat := 0x7108
/-- ZN_MB_DATA (first of 20), R488. -/
def ZN_MB_DATA : Nat := 0x7110
/-- BK_ID, R500. -/
def BK_ID : Nat := 0x0000
/-- BK_ANV_SLOT (first of 16), R156. -/
def BK_ANV_SLOT : Nat := 0x0200
/-- BK_ANV_STAT, R156. -/
def BK_ANV_STAT : Nat := 0x0240
/-- BK_ANV_SUPPRESS, R156. -/
def BK_ANV_SUPPRESS : Nat := 0x0250
/-- BK_ANV_HOLD_FRAMES, R156. -/
def BK_ANV_HOLD_FRAMES : Nat := 0x0254
/-- BK_ANV_VERDICTS, R156. -/
def BK_ANV_VERDICTS : Nat := 0x0258
/-- BK_ANV_SWITCHES, R156. -/
def BK_ANV_SWITCHES : Nat := 0x025C
/-- BK_ANV_RESTARTS, R156. -/
def BK_ANV_RESTARTS : Nat := 0x0260
/-- BK_ANV_CHQ (first of 16), R156. -/
def BK_ANV_CHQ : Nat := 0x0280
/-- BK_SUB_D (first of 8), R156. -/
def BK_SUB_D : Nat := 0x0300
/-- BK_SUB_CMD, R156. -/
def BK_SUB_CMD : Nat := 0x0320
/-- BK_SUB_STAT, R156. -/
def BK_SUB_STAT : Nat := 0x0324
/-- BK_CTX_OWN (first of 256), R185. -/
def BK_CTX_OWN : Nat := 0x0400
/-- BK_CTX_PAIR (first of 256), R185. -/
def BK_CTX_PAIR : Nat := 0x0800
/-- BK_CTX_MISMATCH, R185. -/
def BK_CTX_MISMATCH : Nat := 0x0C00
/-- BK_RMP_MAP (first of 256), R260. -/
def BK_RMP_MAP : Nat := 0x1000
/-- BK_RMP_STAT, R260. -/
def BK_RMP_STAT : Nat := 0x1400
/-- BK_TST_STAT, R260. -/
def BK_TST_STAT : Nat := 0x1404
/-- BK_TST_HOLD_FRAMES, R260. -/
def BK_TST_HOLD_FRAMES : Nat := 0x1408
/-- BK_PAT_STAT, R282. -/
def BK_PAT_STAT : Nat := 0x1500
/-- BK_SD_STAT, R305. -/
def BK_SD_STAT : Nat := 0x1600
/-- BK_HANG_STAT, R359. -/
def BK_HANG_STAT : Nat := 0x1700
/-- BK_REC_CTL, R382. -/
def BK_REC_CTL : Nat := 0x1800
/-- BK_REC_STAT, R382. -/
def BK_REC_STAT : Nat := 0x1804
/-- BK_REC_RD, R382. -/
def BK_REC_RD : Nat := 0x1808
/-- BK_REC_WR, R382. -/
def BK_REC_WR : Nat := 0x180C
/-- BK_REC_IDX, R382. -/
def BK_REC_IDX : Nat := 0x1810
/-- BK_REC_W (first of 8), R382. -/
def BK_REC_W : Nat := 0x1820
/-- BK_REC_LOST, R382. -/
def BK_REC_LOST : Nat := 0x1840
/-- BK_REC_SATURATED, R382. -/
def BK_REC_SATURATED : Nat := 0x1844
/-- BK_CTR_RD (first of 8), R406. -/
def BK_CTR_RD : Nat := 0x1900
/-- BK_CTR_WR (first of 8), R406. -/
def BK_CTR_WR : Nat := 0x1904
/-- BK_TRC_RD, R406. -/
def BK_TRC_RD : Nat := 0x1940
/-- BK_TRC_WR, R406. -/
def BK_TRC_WR : Nat := 0x1944
/-- BK_DBG_STAT, R406. -/
def BK_DBG_STAT : Nat := 0x1948
/-- BK_PROT_PAR, R476. -/
def BK_PROT_PAR : Nat := 0x1A00
/-- BK_CC_MARK, R496. -/
def BK_CC_MARK : Nat := 0x2000
/-- BK_CC_STEP, R496. -/
def BK_CC_STEP : Nat := 0x2004
/-- BK_CC_HOLD, R496. -/
def BK_CC_HOLD : Nat := 0x2008
/-- BK_CC_SEL, R496. -/
def BK_CC_SEL : Nat := 0x200C
/-- BK_CC_RPL0, R496. -/
def BK_CC_RPL0 : Nat := 0x2020
/-- BK_CC_RPL1, R496. -/
def BK_CC_RPL1 : Nat := 0x2024
/-- BK_CC_RPL2, R496. -/
def BK_CC_RPL2 : Nat := 0x2028
/-- BK_CC_RPL3, R496. -/
def BK_CC_RPL3 : Nat := 0x202C
/-- BK_CC_RPL4, R496. -/
def BK_CC_RPL4 : Nat := 0x2030
/-- BK_CC_RPL_STAT, R496. -/
def BK_CC_RPL_STAT : Nat := 0x2034
/-- BK_CC_ANSWER, R496. -/
def BK_CC_ANSWER : Nat := 0x2038
/-- BK_CC_RMP, R496. -/
def BK_CC_RMP : Nat := 0x2040
/-- BK_CC_RMP_STAT, R496. -/
def BK_CC_RMP_STAT : Nat := 0x2044
/-- BK_CC_RMP_TAKE, R496. -/
def BK_CC_RMP_TAKE : Nat := 0x2048
/-- WS_ID, R501. -/
def WS_ID : Nat := 0x0000
/-- WS_CW_CTL, R92. -/
def WS_CW_CTL : Nat := 0x0100
/-- WS_CW_STAT, R92. -/
def WS_CW_STAT : Nat := 0x0104
/-- WS_CW_GEN, R92. -/
def WS_CW_GEN : Nat := 0x0110
/-- WS_CW_PASS, R92. -/
def WS_CW_PASS : Nat := 0x0114
/-- WS_CW_FAIL, R92. -/
def WS_CW_FAIL : Nat := 0x0118
/-- WS_CW_MISSING, R92. -/
def WS_CW_MISSING : Nat := 0x011C
/-- WS_CW_FORMAT, R92. -/
def WS_CW_FORMAT : Nat := 0x0120
/-- WS_CW_SKIP_BYTES, R92. -/
def WS_CW_SKIP_BYTES : Nat := 0x0124
/-- WS_CW_PARTIAL_BYTES, R92. -/
def WS_CW_PARTIAL_BYTES : Nat := 0x0128
/-- WS_CW_READBACK, R92. -/
def WS_CW_READBACK : Nat := 0x012C
/-- WS_CW_UNALIGNED, R92. -/
def WS_CW_UNALIGNED : Nat := 0x0130
/-- WS_CW_SIGOVF, R92. -/
def WS_CW_SIGOVF : Nat := 0x0134
/-- WS_SMP_STAT, R157. -/
def WS_SMP_STAT : Nat := 0x0140
/-- WS_SMP_TILES, R157. -/
def WS_SMP_TILES : Nat := 0x0144
/-- WS_SMP_DRAWN, R157. -/
def WS_SMP_DRAWN : Nat := 0x0148
/-- WS_SMP_DROPPED, R157. -/
def WS_SMP_DROPPED : Nat := 0x014C
/-- WS_SMP_DEFERRED, R157. -/
def WS_SMP_DEFERRED : Nat := 0x0150
/-- WS_SMP_UNCONSIDERED, R157. -/
def WS_SMP_UNCONSIDERED : Nat := 0x0154
/-- WS_SMP_UNDRAWABLE, R157. -/
def WS_SMP_UNDRAWABLE : Nat := 0x0158
/-- WS_PAT_CFG, R282. -/
def WS_PAT_CFG : Nat := 0x0180
/-- WS_PAT_CRC, R282. -/
def WS_PAT_CRC : Nat := 0x0184
/-- WS_PAT_STAT, R282. -/
def WS_PAT_STAT : Nat := 0x0188
/-- WS_PAT_VER_LO, R282. -/
def WS_PAT_VER_LO : Nat := 0x018C
/-- WS_PAT_VER_HI, R282. -/
def WS_PAT_VER_HI : Nat := 0x0190
/-- WS_PAT_CNT_PKT_CRC, R282. -/
def WS_PAT_CNT_PKT_CRC : Nat := 0x0194
/-- WS_PAT_CNT_IMG_CRC, R282. -/
def WS_PAT_CNT_IMG_CRC : Nat := 0x0198
/-- WS_THM_STAT, R330. -/
def WS_THM_STAT : Nat := 0x01C0
/-- WS_HANG_WAIT, R359. -/
def WS_HANG_WAIT : Nat := 0x01D0
/-- WS_PAR_ERR, R476. -/
def WS_PAR_ERR : Nat := 0x01E0
/-- WS_PAT_MAP (first of 32), R282. -/
def WS_PAT_MAP : Nat := 0x0200
/-- WS_REC_CTL, R382. -/
def WS_REC_CTL : Nat := 0x0300
/-- WS_REC_LOST, R382. -/
def WS_REC_LOST : Nat := 0x0304
/-- WS_REC_X_SEL, R382. -/
def WS_REC_X_SEL : Nat := 0x0310
/-- WS_REC_X_CMD, R382. -/
def WS_REC_X_CMD : Nat := 0x0314
/-- WS_REC_X_STAT, R382. -/
def WS_REC_X_STAT : Nat := 0x0318
/-- WS_REC_X_MB0, R382. -/
def WS_REC_X_MB0 : Nat := 0x031C
/-- WS_REC_X_MB1, R382. -/
def WS_REC_X_MB1 : Nat := 0x0320
/-- WS_REC_X_MB2, R382. -/
def WS_REC_X_MB2 : Nat := 0x0324
/-- WS_CTR_SEL, R407. -/
def WS_CTR_SEL : Nat := 0x0340
/-- WS_CTR_CMD, R407. -/
def WS_CTR_CMD : Nat := 0x0344
/-- WS_CTR_STAT, R407. -/
def WS_CTR_STAT : Nat := 0x0348
/-- WS_CTR_MB0, R407. -/
def WS_CTR_MB0 : Nat := 0x034C
/-- WS_CTR_MB1, R407. -/
def WS_CTR_MB1 : Nat := 0x0350
/-- WS_REC_HIST (first of 256), R382. -/
def WS_REC_HIST : Nat := 0x0400

/-- Rows of the register map, part 0. -/
def rows0 : List Row := [
  ⟨.zn, ZN_ID_PRODUCT, 1, 4, 0x0, 0x0, 0x0, 0x0⟩,
  ⟨.zn, ZN_ID_REVISION, 1, 4, 0x0, 0x0, 0x0, 0x0⟩,
  ⟨.zn, ZN_ID_PARAM0, 1, 4, 0x0, 0x0, 0x0, 0x0⟩,
  ⟨.zn, ZN_ID_PARAM1, 1, 4, 0x0, 0x0, 0x0, 0x0⟩,
  ⟨.zn, ZN_ID_PARAM2, 1, 4, 0x0, 0x0, 0x0, 0x0⟩,
  ⟨.zn, ZN_REG_CNT_HOLE, 1, 4, 0x0, 0x0, 0x0, 0x0⟩,
  ⟨.zn, ZN_REG_CNT_DENIED, 1, 4, 0x0, 0x0, 0x0, 0x0⟩,
  ⟨.zn, ZN_REG_WHOAMI, 1, 4, 0x0, 0x0, 0x0, 0x0⟩,
  ⟨.zn, ZN_TIME_CMD, 1, 4, 0x0, 0x0, 0x1, 0x0⟩,
  ⟨.zn, ZN_TIME_MB_STAT, 1, 4, 0x0, 0x0, 0x0, 0x0⟩,
  ⟨.zn, ZN_TIME_MB_LO, 1, 4, 0x0, 0x0, 0x0, 0x0⟩,
  ⟨.zn, ZN_TIME_MB_HI, 1, 4, 0x0, 0x0, 0x0, 0x0⟩,
  ⟨.zn, ZN_ZCLK_KHZ, 1, 4, 0x0, 0x0, 0x0, 0x0⟩,
  ⟨.zn, ZN_TICK_LAT, 1, 4, 0x0, 0x0, 0x0, 0x0⟩,
  ⟨.zn, ZN_LAUNCH_FRAME_LO, 1, 4, 0xFFFFFFFF, 0x0, 0x0, 0x0⟩,
  ⟨.zn, ZN_LAUNCH_FRAME_HI, 1, 4, 0x1FFFFF, 0x0, 0x0, 0x0⟩,
  ⟨.zn, ZN_LAUNCH_ACT, 1, 4, 0x0, 0x3FFF, 0x0, 0x0⟩,
  ⟨.zn, ZN_LAUNCH_CMD, 1, 4, 0x0, 0x0, 0x3, 0x700⟩,
  ⟨.zn, ZN_LAUNCH_STAT, 1, 4, 0x0, 0x0, 0x0, 0x0⟩,
  ⟨.zn, ZN_STOP_STAT, 1, 4, 0x0, 0x0, 0x0, 0x0⟩,
  ⟨.zn, ZN_STOP_LOST, 1, 4, 0x0, 0x0, 0x0, 0x0⟩,
  ⟨.zn, ZN_TICK_FAULT, 1, 4, 0x0, 0x0, 0x0, 0x0⟩,
  ⟨.zn, ZN_SEED_FRAME_LO, 1, 4, 0xFFFFFFFF, 0x0, 0x0, 0x0⟩,
  ⟨.zn, ZN_SEED_FRAME_HI, 1, 4, 0x1FFFFF, 0x0, 0x0, 0x0⟩,
  ⟨.zn, ZN_SEED_CMD, 1, 4, 0x0, 0x0, 0x1, 0x0⟩,
  ⟨.zn, ZN_SEED_MB_STAT, 1, 4, 0x0, 0x0, 0x0, 0x0⟩,
  ⟨.zn, ZN_SEED_MB_LO, 1, 4, 0x0, 0x0, 0x0, 0x0⟩,
  ⟨.zn, ZN_SEED_MB_HI, 1, 4, 0x0, 0x0, 0x0, 0x0⟩,
  ⟨.zn, ZN_LVL_BUDGET, 1, 4, 0x0, 0x1FFF, 0x0, 0x0⟩,
  ⟨.zn, ZN_LVL_USE, 1, 4, 0x0, 0x0, 0x0, 0x0⟩,
  ⟨.zn, ZN_CTX_SEL, 1, 4, 0x0, 0x3FF, 0x0, 0x0⟩,
  ⟨.zn, ZN_CTX_CFG, 1, 4, 0x0, 0x7FF, 0x0, 0x0⟩,
  ⟨.zn, ZN_CTX_CMD, 1, 4, 0x0, 0x0, 0x7, 0x0⟩,
  ⟨.zn, ZN_CTX_STAT, 1, 4, 0x0, 0x0, 0x0, 0x0⟩,
  ⟨.zn, ZN_CTX_DRAIN, 1, 4, 0x0, 0x0, 0x0, 0x0⟩,
  ⟨.zn, ZN_CTX_DISCARDED, 1, 4, 0x0, 0x0, 0x0, 0x0⟩,
  ⟨.zn, ZN_CTX_DEAD_IN, 1, 4, 0x0, 0x0, 0x0, 0x0⟩,
  ⟨.zn, ZN_CTX_CORES, 1, 4, 0x0, 0x0, 0x0, 0x0⟩,
  ⟨.zn, ZN_CTX_INCARN, 1, 4, 0x0, 0x0, 0x0, 0x0⟩,
  ⟨.zn, ZN_ANV_CAPS, 1, 4, 0x0, 0x0, 0x0, 0x0⟩,
  ⟨.zn, ZN_ANV_FUNCS, 1, 4, 0x0, 0x0, 0x0, 0x0⟩,
  ⟨.zn, ZN_ANV_LIVE, 1, 4, 0x0, 0x0, 0x0, 0x0⟩,
  ⟨.zn, ZN_ANV_CNT_MATCH, 1, 4, 0x0, 0x0, 0x0, 0x0⟩,
  ⟨.zn, ZN_ANV_CNT_WITHIN, 1, 4, 0x0, 0x0, 0x0, 0x0⟩,
  ⟨.zn, ZN_ANV_CNT_BEYOND, 1, 4, 0x0, 0x0, 0x0, 0x0⟩,
  ⟨.zn, ZN_ANV_CNT_NONFINITE, 1, 4, 0x0, 0x0, 0x0, 0x0⟩,
  ⟨.zn, ZN_ANV_CNT_VOID, 1, 4, 0x0, 0x0, 0x0, 0x0⟩,
  ⟨.zn, ZN_ANV_CNT_NULL, 1, 4, 0x0, 0x0, 0x0, 0x0⟩,
  ⟨.zn, ZN_ANV_CNT_LATE, 1, 4, 0x0, 0x0, 0x0, 0x0⟩,
  ⟨.zn, ZN_ANV_CNT_DROPPED, 1, 4, 0x0, 0x0, 0x0, 0x0⟩]

/-- Rows of the register map, part 1. -/
def rows1 : List Row := [
  ⟨.zn, ZN_ANV_CNT_MISS, 1, 4, 0x0, 0x0, 0x0, 0x0⟩,
  ⟨.zn, ZN_ANV_CNT_NOBOUND, 1, 4, 0x0, 0x0, 0x0, 0x0⟩,
  ⟨.zn, ZN_ANV_CNT_RANGE, 1, 4, 0x0, 0x0, 0x0, 0x0⟩,
  ⟨.zn, ZN_ANV_CNT_BADDESC, 1, 4, 0x0, 0x0, 0x0, 0x0⟩,
  ⟨.zn, ZN_HZ_TIMEOUT, 1, 4, 0x1FFFFFF, 0x0, 0x0, 0x0⟩,
  ⟨.zn, ZN_HZ_REPLAY_WAIT, 1, 4, 0x7FFFFF, 0x0, 0x0, 0x0⟩,
  ⟨.zn, ZN_HZ_REFRESH, 1, 4, 0xFFFF, 0x0, 0x0, 0x0⟩,
  ⟨.zn, ZN_HZ_CTL, 1, 4, 0x0, 0x1FFF, 0x0, 0x0⟩,
  ⟨.zn, ZN_HZ_RTT_REF, 1, 4, 0xFFFF, 0x0, 0x0, 0x0⟩,
  ⟨.zn, ZN_HZ_SELF, 1, 4, 0x0, 0x0, 0x0, 0x0⟩,
  ⟨.zn, ZN_HZ_INB, 1, 4, 0x0, 0x0, 0x0, 0x0⟩,
  ⟨.zn, ZN_HZ_LOG, 1, 4, 0x0, 0x0, 0x0, 0x0⟩,
  ⟨.zn, ZN_HZ_PEND, 1, 4, 0x0, 0x0, 0x0, 0x0⟩,
  ⟨.zn, ZN_HZ_LINK, 16, 4, 0x0, 0x0, 0x0, 0x0⟩,
  ⟨.zn, ZN_HZ_CTX_GROUP, 1, 4, 0x1FFFF, 0x0, 0x0, 0x0⟩,
  ⟨.zn, ZN_HZ_CTX_EPOCH, 1, 4, 0x0, 0x0, 0x0, 0x0⟩,
  ⟨.zn, ZN_HZ_CTX_COMMITTED, 1, 4, 0x0, 0x0, 0x0, 0x0⟩,
  ⟨.zn, ZN_HZ_CTX_STAT, 1, 4, 0x0, 0x0, 0x0, 0x0⟩,
  ⟨.zn, ZN_HZ_CTX_CMD, 1, 4, 0x0, 0x0, 0x1, 0x0⟩,
  ⟨.zn, ZN_HZ_CTX_RETR_FIRST, 1, 4, 0x0, 0x0, 0x0, 0x0⟩,
  ⟨.zn, ZN_HZ_CTX_RETR_LAST, 1, 4, 0x0, 0x0, 0x0, 0x0⟩,
  ⟨.zn, ZN_HZ_CTX_STALL, 1, 4, 0x0, 0x0, 0x0, 0x0⟩,
  ⟨.zn, ZN_HZ_CNT_COMMIT_OUT, 1, 4, 0x0, 0x0, 0x0, 0x0⟩,
  ⟨.zn, ZN_HZ_CNT_RETRACT_OUT, 1, 4, 0x0, 0x0, 0x0, 0x0⟩,
  ⟨.zn, ZN_HZ_CNT_REFRESH, 1, 4, 0x0, 0x0, 0x0, 0x0⟩,
  ⟨.zn, ZN_HZ_CNT_COMMIT_IN, 1, 4, 0x0, 0x0, 0x0, 0x0⟩,
  ⟨.zn, ZN_HZ_CNT_RETRACT_IN, 1, 4, 0x0, 0x0, 0x0, 0x0⟩,
  ⟨.zn, ZN_HZ_CNT_NOENTRY, 1, 4, 0x0, 0x0, 0x0, 0x0⟩,
  ⟨.zn, ZN_HZ_CNT_LATE, 1, 4, 0x0, 0x0, 0x0, 0x0⟩,
  ⟨.zn, ZN_HZ_CNT_TIMEOUT, 1, 4, 0x0, 0x0, 0x0, 0x0⟩,
  ⟨.zn, ZN_HZ_CNT_FULL, 1, 4, 0x0, 0x0, 0x0, 0x0⟩,
  ⟨.zn, ZN_HZ_CNT_UNHELD, 1, 4, 0x0, 0x0, 0x0, 0x0⟩,
  ⟨.zn, ZN_HZ_CNT_BADMSG, 1, 4, 0x0, 0x0, 0x0, 0x0⟩,
  ⟨.zn, ZN_HZ_CNT_EXPOSE_OUT, 1, 4, 0x0, 0x0, 0x0, 0x0⟩,
  ⟨.zn, ZN_HZ_CNT_EXPOSE_IN, 1, 4, 0x0, 0x0, 0x0, 0x0⟩,
  ⟨.zn, ZN_HZ_CNT_REPLAYS, 1, 4, 0x0, 0x0, 0x0, 0x0⟩,
  ⟨.zn, ZN_HZ_CNT_ABANDONED, 1, 4, 0x0, 0x0, 0x0, 0x0⟩,
  ⟨.zn, ZN_HZ_CNT_LOGFULL, 1, 4, 0x0, 0x0, 0x0, 0x0⟩,
  ⟨.zn, ZN_UHT_SEL, 1, 4, 0x1FFFF, 0x0, 0x0, 0x0⟩,
  ⟨.zn, ZN_UHT_CMD, 1, 4, 0x0, 0x0, 0x3, 0x0⟩,
  ⟨.zn, ZN_UHT_MB_STAT, 1, 4, 0x0, 0x0, 0x0, 0x0⟩,
  ⟨.zn, ZN_UHT_MB, 4, 4, 0x0, 0x0, 0x0, 0x0⟩,
  ⟨.zn, ZN_UHT_SETVAL, 1, 4, 0x0, 0xFF07, 0x0, 0x0⟩,
  ⟨.zn, ZN_UHT_N, 5, 4, 0x0, 0x0, 0x0, 0x0⟩,
  ⟨.zn, ZN_UHT_WIN, 1, 4, 0x0, 0x3F3F, 0x0, 0x0⟩,
  ⟨.zn, ZN_UHT_CE, 1, 4, 0x0, 0x3F7F, 0x0, 0x0⟩,
  ⟨.zn, ZN_UHT_DAWN, 1, 4, 0x0, 0xFFFF, 0x0, 0x0⟩,
  ⟨.zn, ZN_UHT_DAWN_AGE, 1, 4, 0x0, 0x3F, 0x0, 0x0⟩,
  ⟨.zn, ZN_UHT_CAP, 1, 4, 0x0, 0x0, 0x0, 0x0⟩,
  ⟨.zn, ZN_UHT_SPARES, 1, 4, 0x0, 0x0, 0x0, 0x0⟩]

/-- Rows of the register map, part 2. -/
def rows2 : List Row := [
  ⟨.zn, ZN_UHT_CNT_HAZE, 1, 4, 0x0, 0x0, 0x0, 0x0⟩,
  ⟨.zn, ZN_UHT_CNT_OVERCAST, 1, 4, 0x0, 0x0, 0x0, 0x0⟩,
  ⟨.zn, ZN_UHT_CNT_ECLIPSE, 1, 4, 0x0, 0x0, 0x0, 0x0⟩,
  ⟨.zn, ZN_UHT_CNT_CLEAR, 1, 4, 0x0, 0x0, 0x0, 0x0⟩,
  ⟨.zn, ZN_UHT_CNT_REMAP, 1, 4, 0x0, 0x0, 0x0, 0x0⟩,
  ⟨.zn, ZN_UHT_CNT_SET, 1, 4, 0x0, 0x0, 0x0, 0x0⟩,
  ⟨.zn, ZN_TST_PER_CLEAR, 1, 4, 0x0, 0xFFF, 0x0, 0x0⟩,
  ⟨.zn, ZN_TST_PER_HAZE, 1, 4, 0x0, 0xFFF, 0x0, 0x0⟩,
  ⟨.zn, ZN_TST_PER_OVC, 1, 4, 0x0, 0x3F, 0x0, 0x0⟩,
  ⟨.zn, ZN_TST_PER_T2, 1, 4, 0x0, 0xFFF, 0x0, 0x0⟩,
  ⟨.zn, ZN_TST_GRACE, 1, 4, 0x1FFFFFF, 0x0, 0x0, 0x0⟩,
  ⟨.zn, ZN_TST_CTL, 1, 4, 0x0, 0x1F, 0x0, 0x0⟩,
  ⟨.zn, ZN_TST_REQ_SEL, 1, 4, 0xFFFFF, 0x0, 0x0, 0x0⟩,
  ⟨.zn, ZN_TST_REQ_COUNT, 1, 4, 0x1FFFF, 0x0, 0x0, 0x0⟩,
  ⟨.zn, ZN_TST_REQ_CMD, 1, 4, 0x0, 0x0, 0x3, 0x0⟩,
  ⟨.zn, ZN_TST_REQ_STAT, 1, 4, 0x0, 0x0, 0x0, 0x0⟩,
  ⟨.zn, ZN_TST_REQ_PASS, 1, 4, 0x0, 0x0, 0x0, 0x0⟩,
  ⟨.zn, ZN_TST_REQ_FAIL, 1, 4, 0x0, 0x0, 0x0, 0x0⟩,
  ⟨.zn, ZN_TST_REQ_VOID, 1, 4, 0x0, 0x0, 0x0, 0x0⟩,
  ⟨.zn, ZN_TST_REQ_NOTRUN, 1, 4, 0x0, 0x0, 0x0, 0x0⟩,
  ⟨.zn, ZN_TST_ACTIVE, 1, 4, 0x0, 0x0, 0x0, 0x0⟩,
  ⟨.zn, ZN_TST_CNT_PASS, 1, 4, 0x0, 0x0, 0x0, 0x0⟩,
  ⟨.zn, ZN_TST_CNT_FAIL, 1, 4, 0x0, 0x0, 0x0, 0x0⟩,
  ⟨.zn, ZN_TST_CNT_VOID, 1, 4, 0x0, 0x0, 0x0, 0x0⟩,
  ⟨.zn, ZN_TST_CNT_OVERDUE, 1, 4, 0x0, 0x0, 0x0, 0x0⟩,
  ⟨.zn, ZN_TST_CNT_STASH_LOST, 1, 4, 0x0, 0x0, 0x0, 0x0⟩,
  ⟨.zn, ZN_TST_CNT_COPYB, 1, 4, 0x0, 0x0, 0x0, 0x0⟩,
  ⟨.zn, ZN_PAT_SRC_LO, 1, 4, 0xFFFFFFFF, 0x0, 0x0, 0x0⟩,
  ⟨.zn, ZN_PAT_SRC_HI, 1, 4, 0xFFFF, 0x0, 0x0, 0x0⟩,
  ⟨.zn, ZN_PAT_LEN, 1, 4, 0xFFFFFF, 0x0, 0x0, 0x0⟩,
  ⟨.zn, ZN_PAT_CMD, 1, 4, 0x0, 0x0, 0x3, 0x0⟩,
  ⟨.zn, ZN_PAT_STAT, 1, 4, 0x0, 0x0, 0x0, 0x0⟩,
  ⟨.zn, ZN_PAT_VER_LO, 1, 4, 0x0, 0x0, 0x0, 0x0⟩,
  ⟨.zn, ZN_PAT_VER_HI, 1, 4, 0x0, 0x0, 0x0, 0x0⟩,
  ⟨.zn, ZN_PAT_FLOOR_LO, 1, 4, 0x0, 0x0, 0x0, 0x0⟩,
  ⟨.zn, ZN_PAT_FLOOR_HI, 1, 4, 0x0, 0x0, 0x0, 0x0⟩,
  ⟨.zn, ZN_PAT_INFO, 1, 4, 0x0, 0x0, 0x0, 0x0⟩,
  ⟨.zn, ZN_PAT_RETRY, 1, 4, 0x0, 0x3F, 0x0, 0x0⟩,
  ⟨.zn, ZN_PAT_MISSING, 1, 4, 0x0, 0x0, 0x0, 0x0⟩,
  ⟨.zn, ZN_PAT_CNT_INSTALL, 1, 4, 0x0, 0x0, 0x0, 0x0⟩,
  ⟨.zn, ZN_PAT_CNT_REJECT, 1, 4, 0x0, 0x0, 0x0, 0x0⟩,
  ⟨.zn, ZN_PAT_CNT_ROUNDS, 1, 4, 0x0, 0x0, 0x0, 0x0⟩,
  ⟨.zn, ZN_PAT_CNT_REPAIR, 1, 4, 0x0, 0x0, 0x0, 0x0⟩,
  ⟨.zn, ZN_PAT_CNT_LATE, 1, 4, 0x0, 0x0, 0x0, 0x0⟩,
  ⟨.zn, ZN_SD_CTL, 1, 4, 0x0, 0x3FF, 0x0, 0x0⟩,
  ⟨.zn, ZN_SD_QUIESCE, 1, 4, 0xFFFFF, 0x0, 0x0, 0x0⟩,
  ⟨.zn, ZN_SD_LIMIT, 1, 4, 0x1FFFFFF, 0x0, 0x0, 0x0⟩,
  ⟨.zn, ZN_SD_CMD, 1, 4, 0x0, 0x0, 0x3, 0x0⟩,
  ⟨.zn, ZN_SD_STAT, 1, 4, 0x0, 0x0, 0x0, 0x0⟩,
  ⟨.zn, ZN_SD_ROWS, 1, 4, 0x0, 0x0, 0x0, 0x0⟩]

/-- Rows of the register map, part 3. -/
def rows3 : List Row := [
  ⟨.zn, ZN_SD_FUSES, 1, 4, 0x0, 0x0, 0x0, 0x0⟩,
  ⟨.zn, ZN_SD_UNITS_FAIL, 1, 4, 0x0, 0x0, 0x0, 0x0⟩,
  ⟨.zn, ZN_SD_CORES_PASS, 1, 4, 0x0, 0x0, 0x0, 0x0⟩,
  ⟨.zn, ZN_SD_CORES_FAIL, 1, 4, 0x0, 0x0, 0x0, 0x0⟩,
  ⟨.zn, ZN_SD_CORES_VOID, 1, 4, 0x0, 0x0, 0x0, 0x0⟩,
  ⟨.zn, ZN_SD_CORES_NOTRUN, 1, 4, 0x0, 0x0, 0x0, 0x0⟩,
  ⟨.zn, ZN_THM_CTL, 1, 4, 0x0, 0x3FF, 0x0, 0x0⟩,
  ⟨.zn, ZN_THM_LIMITS, 1, 4, 0x0, 0xFFFF, 0x0, 0x0⟩,
  ⟨.zn, ZN_THM_RISE, 1, 4, 0x0, 0x1FFF, 0x0, 0x0⟩,
  ⟨.zn, ZN_THM_MARGIN, 1, 4, 0x0, 0x7FF, 0x0, 0x0⟩,
  ⟨.zn, ZN_THM_STOP, 1, 4, 0x1FFFFFF, 0x0, 0x0, 0x0⟩,
  ⟨.zn, ZN_THM_AMB, 1, 4, 0xFFFF, 0x0, 0x0, 0x0⟩,
  ⟨.zn, ZN_THM_STAT, 1, 4, 0x0, 0x0, 0x0, 0x0⟩,
  ⟨.zn, ZN_THM_HOT, 1, 4, 0x0, 0x0, 0x0, 0x0⟩,
  ⟨.zn, ZN_THM_NODE_SEL, 1, 4, 0x3FFF, 0x0, 0x0, 0x0⟩,
  ⟨.zn, ZN_THM_NODE_CMD, 1, 4, 0x0, 0x0, 0x1, 0x0⟩,
  ⟨.zn, ZN_THM_NODE_MB_STAT, 1, 4, 0x0, 0x0, 0x0, 0x0⟩,
  ⟨.zn, ZN_THM_NODE_MB, 4, 4, 0x0, 0x0, 0x0, 0x0⟩,
  ⟨.zn, ZN_THM_CNT_UPDATES, 1, 4, 0x0, 0x0, 0x0, 0x0⟩,
  ⟨.zn, ZN_THM_CNT_EXCURSION, 1, 4, 0x0, 0x0, 0x0, 0x0⟩,
  ⟨.zn, ZN_THM_CNT_DISAGREE, 1, 4, 0x0, 0x0, 0x0, 0x0⟩,
  ⟨.zn, ZN_THM_CNT_NOEST, 1, 4, 0x0, 0x0, 0x0, 0x0⟩,
  ⟨.zn, ZN_THM_CNT_THR_FRAMES, 1, 4, 0x0, 0x0, 0x0, 0x0⟩,
  ⟨.zn, ZN_THM_DIODE, 80, 4, 0x0, 0x0, 0x0, 0x0⟩,
  ⟨.zn, ZN_HANG_FRAMES, 1, 4, 0x1FFFFFF, 0x0, 0x0, 0x0⟩,
  ⟨.zn, ZN_RECOV_LIMIT, 1, 4, 0x1FFFFFF, 0x0, 0x0, 0x0⟩,
  ⟨.zn, ZN_SUPP_EXTRA, 1, 4, 0x1FFFFFF, 0x0, 0x0, 0x0⟩,
  ⟨.zn, ZN_HOST_RETRY, 1, 4, 0x0, 0x0, 0x0, 0x0⟩,
  ⟨.zn, ZN_ANV_RST_LIMIT, 1, 4, 0xFFFFF, 0x0, 0x0, 0x0⟩,
  ⟨.zn, ZN_BANK_RST_LIMIT, 1, 4, 0xFFFFF, 0x0, 0x0, 0x0⟩,
  ⟨.zn, ZN_WDOG, 1, 4, 0xFFFFFF, 0x0, 0x0, 0x0⟩,
  ⟨.zn, ZN_WDOG_KICK, 1, 4, 0x0, 0x0, 0x1, 0x0⟩,
  ⟨.zn, ZN_HANG_CTL, 1, 4, 0x0, 0x7FF, 0x0, 0x0⟩,
  ⟨.zn, ZN_HANG_STAT, 1, 4, 0x0, 0x0, 0x0, 0x0⟩,
  ⟨.zn, ZN_RST_CAUSE, 1, 4, 0x0, 0x0, 0x0, 0x0⟩,
  ⟨.zn, ZN_HANG_LAST, 1, 4, 0x0, 0x0, 0x0, 0x0⟩,
  ⟨.zn, ZN_HANG_LAST_UNIT, 1, 4, 0x0, 0x0, 0x0, 0x0⟩,
  ⟨.zn, ZN_HANG_LAST_WAIT, 1, 4, 0x0, 0x0, 0x0, 0x0⟩,
  ⟨.zn, ZN_HANG_LAST_INC, 1, 4, 0x0, 0x0, 0x0, 0x0⟩,
  ⟨.zn, ZN_RECOV_CMD, 1, 4, 0x0, 0x0, 0x7, 0xFF00⟩,
  ⟨.zn, ZN_RECOV_STAT, 1, 4, 0x0, 0x0, 0x0, 0x0⟩,
  ⟨.zn, ZN_HANG_CNT_HUNG, 1, 4, 0x0, 0x0, 0x0, 0x0⟩,
  ⟨.zn, ZN_HANG_CNT_COLLATERAL, 1, 4, 0x0, 0x0, 0x0, 0x0⟩,
  ⟨.zn, ZN_HANG_CNT_RECOVERED, 1, 4, 0x0, 0x0, 0x0, 0x0⟩,
  ⟨.zn, ZN_HANG_CNT_RECOV_TO, 1, 4, 0x0, 0x0, 0x0, 0x0⟩,
  ⟨.zn, ZN_HANG_CNT_ANV_RESET, 1, 4, 0x0, 0x0, 0x0, 0x0⟩,
  ⟨.zn, ZN_HANG_CNT_ANV_ISO, 1, 4, 0x0, 0x0, 0x0, 0x0⟩,
  ⟨.zn, ZN_HANG_CNT_BANK_RESET, 1, 4, 0x0, 0x0, 0x0, 0x0⟩,
  ⟨.zn, ZN_HANG_CNT_BANK_ISO, 1, 4, 0x0, 0x0, 0x0, 0x0⟩,
  ⟨.zn, ZN_HANG_CNT_LATE, 1, 4, 0x0, 0x0, 0x0, 0x0⟩]

/-- Rows of the register map, part 4. -/
def rows4 : List Row := [
  ⟨.zn, ZN_HANG_CNT_CAPLOST, 1, 4, 0x0, 0x0, 0x0, 0x0⟩,
  ⟨.zn, ZN_HANG_CNT_BANKLOST, 1, 4, 0x0, 0x0, 0x0, 0x0⟩,
  ⟨.zn, ZN_REC_CLR_SEL, 1, 4, 0xFF, 0x0, 0x0, 0x0⟩,
  ⟨.zn, ZN_REC_CLR_CMD, 1, 4, 0x0, 0x0, 0x3, 0x0⟩,
  ⟨.zn, ZN_REC_CLR_STAT, 1, 4, 0x0, 0x0, 0x0, 0x0⟩,
  ⟨.zn, ZN_JNL_STAT, 1, 4, 0x0, 0x0, 0x0, 0x0⟩,
  ⟨.zn, ZN_JNL_START, 1, 4, 0x0, 0x0, 0x0, 0x0⟩,
  ⟨.zn, ZN_JNL_SEQ_CMD, 1, 4, 0x0, 0x0, 0x1, 0x0⟩,
  ⟨.zn, ZN_JNL_SEQ_STAT, 1, 4, 0x0, 0x0, 0x0, 0x0⟩,
  ⟨.zn, ZN_JNL_SEQ_LO, 1, 4, 0x0, 0x0, 0x0, 0x0⟩,
  ⟨.zn, ZN_JNL_SEQ_HI, 1, 4, 0x0, 0x0, 0x0, 0x0⟩,
  ⟨.zn, ZN_JNL_DUR_LO, 1, 4, 0x0, 0x0, 0x0, 0x0⟩,
  ⟨.zn, ZN_JNL_DUR_HI, 1, 4, 0x0, 0x0, 0x0, 0x0⟩,
  ⟨.zn, ZN_JNL_CKPT, 1, 4, 0x0, 0x3F, 0x0, 0x0⟩,
  ⟨.zn, ZN_JNL_CNT_APPEND, 1, 4, 0x0, 0x0, 0x0, 0x0⟩,
  ⟨.zn, ZN_JNL_CNT_LOST, 1, 4, 0x0, 0x0, 0x0, 0x0⟩,
  ⟨.zn, ZN_JNL_CNT_CKPT, 1, 4, 0x0, 0x0, 0x0, 0x0⟩,
  ⟨.zn, ZN_REC_CNT_CLEAR, 1, 4, 0x0, 0x0, 0x0, 0x0⟩,
  ⟨.zn, ZN_CTR_S_CFG, 8, 32, 0x0, 0x3F, 0x0, 0x0⟩,
  ⟨.zn, ZN_CTR_S_CTX, 8, 32, 0x3FF, 0x0, 0x0, 0x0⟩,
  ⟨.zn, ZN_CTR_S_AREA, 8, 32, 0xFFFFFF, 0x0, 0x0, 0x0⟩,
  ⟨.zn, ZN_CTR_S_SIZE, 8, 32, 0xFFFF, 0x0, 0x0, 0x0⟩,
  ⟨.zn, ZN_CTR_S_STAT, 8, 32, 0x0, 0x0, 0x0, 0x0⟩,
  ⟨.zn, ZN_CTR_S_SKIPPED, 8, 32, 0x0, 0x0, 0x0, 0x0⟩,
  ⟨.zn, ZN_CTR_S_SAMPLES, 8, 32, 0x0, 0x0, 0x0, 0x0⟩,
  ⟨.zn, ZN_DMP_CTX, 4, 32, 0x3FF, 0x0, 0x0, 0x0⟩,
  ⟨.zn, ZN_DMP_TAG, 4, 32, 0xFFFFFFFF, 0x0, 0x0, 0x0⟩,
  ⟨.zn, ZN_DMP_HANDLE, 4, 32, 0xFFFFFFFF, 0x0, 0x0, 0x0⟩,
  ⟨.zn, ZN_DMP_STEP, 4, 32, 0xFFFFFFFF, 0x0, 0x0, 0x0⟩,
  ⟨.zn, ZN_DMP_AREA, 4, 32, 0xFFFFFF, 0x0, 0x0, 0x0⟩,
  ⟨.zn, ZN_DMP_LIMIT, 4, 32, 0xFFFFFF, 0x0, 0x0, 0x0⟩,
  ⟨.zn, ZN_DMP_STAT, 4, 32, 0x0, 0x0, 0x0, 0x0⟩,
  ⟨.zn, ZN_DMP_BYTES, 4, 32, 0x0, 0x0, 0x0, 0x0⟩,
  ⟨.zn, ZN_DMP_CMD, 1, 4, 0x0, 0x0, 0x3, 0x300⟩,
  ⟨.zn, ZN_DMP_RES, 1, 4, 0x0, 0x0, 0x0, 0x0⟩,
  ⟨.zn, ZN_BRK_CFG, 8, 16, 0x0, 0x3F, 0x0, 0x0⟩,
  ⟨.zn, ZN_BRK_MATCH0, 8, 16, 0xFFFF03FF, 0x0, 0x0, 0x0⟩,
  ⟨.zn, ZN_BRK_MATCH1, 8, 16, 0xFFFFFFFF, 0x0, 0x0, 0x0⟩,
  ⟨.zn, ZN_BRK_STEP, 8, 16, 0xFFFFFFFF, 0x0, 0x0, 0x0⟩,
  ⟨.zn, ZN_BRK_CMD, 1, 4, 0x0, 0x0, 0x3, 0x3FF0000⟩,
  ⟨.zn, ZN_BRK_STAT, 1, 4, 0x0, 0x0, 0x0, 0x0⟩,
  ⟨.zn, ZN_BRK_CTXSTAT, 1, 4, 0x0, 0x0, 0x0, 0x0⟩,
  ⟨.zn, ZN_TRC_CTL, 1, 4, 0x0, 0xFFF, 0x0, 0x0⟩,
  ⟨.zn, ZN_TRC_MIN, 1, 4, 0xFFFFFF, 0x0, 0x0, 0x0⟩,
  ⟨.zn, ZN_TRC_AREA, 1, 4, 0xFFFFFF, 0x0, 0x0, 0x0⟩,
  ⟨.zn, ZN_TRC_SIZE, 1, 4, 0xFFFF, 0x0, 0x0, 0x0⟩,
  ⟨.zn, ZN_TRC_CNT_EVENTS, 1, 4, 0x0, 0x0, 0x0, 0x0⟩,
  ⟨.zn, ZN_TRC_CNT_LOST, 1, 4, 0x0, 0x0, 0x0, 0x0⟩,
  ⟨.zn, ZN_WFG_CMD, 1, 4, 0x0, 0x0, 0x1, 0x0⟩,
  ⟨.zn, ZN_WFG_STAT, 1, 4, 0x0, 0x0, 0x0, 0x0⟩]

/-- Rows of the register map, part 5. -/
def rows5 : List Row := [
  ⟨.zn, ZN_WFG_AREA, 1, 4, 0x0, 0x0, 0x0, 0x0⟩,
  ⟨.zn, ZN_DBG_CNT_DENIED, 1, 4, 0x0, 0x0, 0x0, 0x0⟩,
  ⟨.zn, ZN_DBG_CNT_REJECT, 1, 4, 0x0, 0x0, 0x0, 0x0⟩,
  ⟨.zn, ZN_KEY_ID, 4, 4, 0x0, 0x0, 0x0, 0x0⟩,
  ⟨.zn, ZN_ALM_STAT, 1, 4, 0x0, 0x0, 0x0, 0x0⟩,
  ⟨.zn, ZN_ALM_CNT_FROZEN, 1, 4, 0x0, 0x0, 0x0, 0x0⟩,
  ⟨.zn, ZN_ALM_CNT_RAISE, 1, 4, 0x0, 0x0, 0x0, 0x0⟩,
  ⟨.zn, ZN_LDG_STAT, 1, 4, 0x0, 0x0, 0x0, 0x0⟩,
  ⟨.zn, ZN_LDG_WEAR, 1, 4, 0x0, 0x0, 0x0, 0x0⟩,
  ⟨.zn, ZN_LDG_UID_LO, 1, 4, 0x0, 0x0, 0x0, 0x0⟩,
  ⟨.zn, ZN_LDG_UID_HI, 1, 4, 0x0, 0x0, 0x0, 0x0⟩,
  ⟨.zn, ZN_LDG_JEDEC, 1, 4, 0x0, 0x0, 0x0, 0x0⟩,
  ⟨.zn, ZN_EXP_ADDR_LO, 1, 4, 0xFFFFFFFF, 0x0, 0x0, 0x0⟩,
  ⟨.zn, ZN_EXP_ADDR_HI, 1, 4, 0xFFFF, 0x0, 0x0, 0x0⟩,
  ⟨.zn, ZN_EXP_CMD, 1, 4, 0x0, 0x0, 0x1, 0x0⟩,
  ⟨.zn, ZN_EXP_STAT, 1, 4, 0x0, 0x0, 0x0, 0x0⟩,
  ⟨.zn, ZN_AFS_STAT, 1, 4, 0x0, 0x0, 0x0, 0x0⟩,
  ⟨.zn, ZN_AFS_CNT_SENT, 1, 4, 0x0, 0x0, 0x0, 0x0⟩,
  ⟨.zn, ZN_AFS_CNT_LOST, 1, 4, 0x0, 0x0, 0x0, 0x0⟩,
  ⟨.zn, ZN_AFS_CNT_BADAUTH, 1, 4, 0x0, 0x0, 0x0, 0x0⟩,
  ⟨.zn, ZN_START_STAT, 1, 4, 0x0, 0x0, 0x0, 0x0⟩,
  ⟨.zn, ZN_CFG_STAT, 1, 4, 0x0, 0x0, 0x0, 0x0⟩,
  ⟨.zn, ZN_CFG_WHERE, 1, 4, 0x0, 0x0, 0x0, 0x0⟩,
  ⟨.zn, ZN_CFG_VER_LO, 1, 4, 0x0, 0x0, 0x0, 0x0⟩,
  ⟨.zn, ZN_CFG_VER_HI, 1, 4, 0x0, 0x0, 0x0, 0x0⟩,
  ⟨.zn, ZN_CFG_STEWARD, 1, 4, 0x0, 0x0, 0x0, 0x0⟩,
  ⟨.zn, ZN_CFG_DIGEST, 12, 4, 0x0, 0x0, 0x0, 0x0⟩,
  ⟨.zn, ZN_START_FRAMES, 1, 4, 0x0, 0x0, 0x0, 0x0⟩,
  ⟨.zn, ZN_START_TPASS, 1, 4, 0x0, 0x0, 0x0, 0x0⟩,
  ⟨.zn, ZN_START_TFAIL, 1, 4, 0x0, 0x0, 0x0, 0x0⟩,
  ⟨.zn, ZN_START_TVOID, 1, 4, 0x0, 0x0, 0x0, 0x0⟩,
  ⟨.zn, ZN_CFG_CNT_REJECT, 1, 4, 0x0, 0x0, 0x0, 0x0⟩,
  ⟨.zn, ZN_PROT_CTL, 1, 4, 0x0, 0x1F, 0x0, 0x0⟩,
  ⟨.zn, ZN_PROT_CMD, 1, 4, 0x0, 0x0, 0x1, 0x0⟩,
  ⟨.zn, ZN_PROT_STAT, 1, 4, 0x0, 0x0, 0x0, 0x0⟩,
  ⟨.zn, ZN_PROT_CNT_PAR, 1, 4, 0x0, 0x0, 0x0, 0x0⟩,
  ⟨.zn, ZN_PROT_CNT_CORR, 1, 4, 0x0, 0x0, 0x0, 0x0⟩,
  ⟨.zn, ZN_PROT_CNT_SYM, 1, 4, 0x0, 0x0, 0x0, 0x0⟩,
  ⟨.zn, ZN_PROT_CNT_RELOAD, 1, 4, 0x0, 0x0, 0x0, 0x0⟩,
  ⟨.zn, ZN_PROT_CNT_PATROL, 1, 4, 0x0, 0x0, 0x0, 0x0⟩,
  ⟨.zn, ZN_HMR_CNT_CE, 1, 4, 0x0, 0x0, 0x0, 0x0⟩,
  ⟨.zn, ZN_HMR_CNT_UE, 1, 4, 0x0, 0x0, 0x0, 0x0⟩,
  ⟨.zn, ZN_HMR_CNT_UNMAPPED, 1, 4, 0x0, 0x0, 0x0, 0x0⟩,
  ⟨.zn, ZN_HMR_CNT_HOSTDROP, 1, 4, 0x0, 0x0, 0x0, 0x0⟩,
  ⟨.zn, ZN_HMR_LAST, 1, 4, 0x0, 0x0, 0x0, 0x0⟩,
  ⟨.zn, ZN_SCR_BASE_LO, 1, 4, 0xFFFFFFFF, 0x0, 0x0, 0x0⟩,
  ⟨.zn, ZN_SCR_BASE_HI, 1, 4, 0xFFFF, 0x0, 0x0, 0x0⟩,
  ⟨.zn, ZN_SCR_LEN, 1, 4, 0xFFFFFF, 0x0, 0x0, 0x0⟩,
  ⟨.zn, ZN_SCR_CTL, 1, 4, 0x7, 0x0, 0x0, 0x0⟩,
  ⟨.zn, ZN_SCR_RATE, 1, 4, 0xFF, 0x0, 0x0, 0x0⟩]

/-- Rows of the register map, part 6. -/
def rows6 : List Row := [
  ⟨.zn, ZN_SCR_CMD, 1, 4, 0x0, 0x0, 0x3, 0x0⟩,
  ⟨.zn, ZN_SCR_STAT, 1, 4, 0x0, 0x0, 0x0, 0x0⟩,
  ⟨.zn, ZN_SCR_PAGES, 1, 4, 0x0, 0x0, 0x0, 0x0⟩,
  ⟨.zn, ZN_SCR_CE, 1, 4, 0x0, 0x0, 0x0, 0x0⟩,
  ⟨.zn, ZN_SCR_UE, 1, 4, 0x0, 0x0, 0x0, 0x0⟩,
  ⟨.zn, ZN_SCR_RETIRED, 1, 4, 0x0, 0x0, 0x0, 0x0⟩,
  ⟨.zn, ZN_SCR_CWFAIL, 1, 4, 0x0, 0x0, 0x0, 0x0⟩,
  ⟨.zn, ZN_IND_ADDR, 1, 4, 0xFFFFFFFC, 0x0, 0x0, 0x0⟩,
  ⟨.zn, ZN_IND_DATA, 1, 4, 0xFFFFFFFF, 0x0, 0x0, 0x0⟩,
  ⟨.zn, ZN_IND_CTL, 1, 4, 0x3, 0x0, 0x0, 0x0⟩,
  ⟨.zn, ZN_IND_STAT, 1, 4, 0x0, 0x0, 0x0, 0x0⟩,
  ⟨.zn, ZN_MB_SEL, 1, 4, 0x3FFF, 0x0, 0x0, 0x0⟩,
  ⟨.zn, ZN_MB_CMD, 1, 4, 0x0, 0x0, 0x1, 0x0⟩,
  ⟨.zn, ZN_MB_STAT, 1, 4, 0x0, 0x0, 0x0, 0x0⟩,
  ⟨.zn, ZN_MB_DATA, 20, 4, 0x0, 0x0, 0x0, 0x0⟩,
  ⟨.bk, BK_ID, 1, 4, 0x0, 0x0, 0x0, 0x0⟩,
  ⟨.bk, BK_ANV_SLOT, 16, 4, 0x0, 0xFFFF, 0x0, 0x0⟩,
  ⟨.bk, BK_ANV_STAT, 1, 4, 0x0, 0x0, 0x0, 0x0⟩,
  ⟨.bk, BK_ANV_SUPPRESS, 1, 4, 0x0, 0x0, 0x0, 0x0⟩,
  ⟨.bk, BK_ANV_HOLD_FRAMES, 1, 4, 0x0, 0x0, 0x0, 0x0⟩,
  ⟨.bk, BK_ANV_VERDICTS, 1, 4, 0x0, 0x0, 0x0, 0x0⟩,
  ⟨.bk, BK_ANV_SWITCHES, 1, 4, 0x0, 0x0, 0x0, 0x0⟩,
  ⟨.bk, BK_ANV_RESTARTS, 1, 4, 0x0, 0x0, 0x0, 0x0⟩,
  ⟨.bk, BK_ANV_CHQ, 16, 4, 0x0, 0x0, 0x0, 0x0⟩,
  ⟨.bk, BK_SUB_D, 8, 4, 0x0, 0x0, 0x0, 0xFFFFFFFF⟩,
  ⟨.bk, BK_SUB_CMD, 1, 4, 0x0, 0x0, 0x1, 0x0⟩,
  ⟨.bk, BK_SUB_STAT, 1, 4, 0x0, 0x0, 0x0, 0x0⟩,
  ⟨.bk, BK_CTX_OWN, 256, 4, 0x0, 0xFFF, 0x0, 0x0⟩,
  ⟨.bk, BK_CTX_PAIR, 256, 4, 0x0, 0xFFFF, 0x0, 0x0⟩,
  ⟨.bk, BK_CTX_MISMATCH, 1, 4, 0x0, 0x0, 0x0, 0x0⟩,
  ⟨.bk, BK_RMP_MAP, 256, 4, 0x0, 0x0, 0x0, 0x0⟩,
  ⟨.bk, BK_RMP_STAT, 1, 4, 0x0, 0x0, 0x0, 0x0⟩,
  ⟨.bk, BK_TST_STAT, 1, 4, 0x0, 0x0, 0x0, 0x0⟩,
  ⟨.bk, BK_TST_HOLD_FRAMES, 1, 4, 0x0, 0x0, 0x0, 0x0⟩,
  ⟨.bk, BK_PAT_STAT, 1, 4, 0x0, 0x0, 0x0, 0x0⟩,
  ⟨.bk, BK_SD_STAT, 1, 4, 0x0, 0x0, 0x0, 0x0⟩,
  ⟨.bk, BK_HANG_STAT, 1, 4, 0x0, 0x0, 0x0, 0x0⟩,
  ⟨.bk, BK_REC_CTL, 1, 4, 0x0, 0x1, 0x0, 0x0⟩,
  ⟨.bk, BK_REC_STAT, 1, 4, 0x0, 0x0, 0x0, 0x0⟩,
  ⟨.bk, BK_REC_RD, 1, 4, 0x7FF, 0x0, 0x0, 0x0⟩,
  ⟨.bk, BK_REC_WR, 1, 4, 0x0, 0x0, 0x0, 0x0⟩,
  ⟨.bk, BK_REC_IDX, 1, 4, 0x7FF, 0x0, 0x0, 0x0⟩,
  ⟨.bk, BK_REC_W, 8, 4, 0x0, 0x0, 0x0, 0x0⟩,
  ⟨.bk, BK_REC_LOST, 1, 4, 0x0, 0x0, 0x0, 0x0⟩,
  ⟨.bk, BK_REC_SATURATED, 1, 4, 0x0, 0x0, 0x0, 0x0⟩,
  ⟨.bk, BK_CTR_RD, 8, 8, 0xFFFFFF, 0x0, 0x0, 0x0⟩,
  ⟨.bk, BK_CTR_WR, 8, 8, 0x0, 0x0, 0x0, 0x0⟩,
  ⟨.bk, BK_TRC_RD, 1, 4, 0xFFFFFF, 0x0, 0x0, 0x0⟩,
  ⟨.bk, BK_TRC_WR, 1, 4, 0x0, 0x0, 0x0, 0x0⟩,
  ⟨.bk, BK_DBG_STAT, 1, 4, 0x0, 0x0, 0x0, 0x0⟩]

/-- Rows of the register map, part 7. -/
def rows7 : List Row := [
  ⟨.bk, BK_PROT_PAR, 1, 4, 0x0, 0x0, 0x0, 0x0⟩,
  ⟨.bk, BK_CC_MARK, 1, 4, 0x0, 0x0, 0x1, 0x3FF0002⟩,
  ⟨.bk, BK_CC_STEP, 1, 4, 0x0, 0x0, 0x0, 0xFFFFFFFF⟩,
  ⟨.bk, BK_CC_HOLD, 1, 4, 0x0, 0x0, 0x0, 0x0⟩,
  ⟨.bk, BK_CC_SEL, 1, 4, 0x3FF, 0x0, 0x0, 0x0⟩,
  ⟨.bk, BK_CC_RPL0, 1, 4, 0x0, 0x0, 0x0, 0x0⟩,
  ⟨.bk, BK_CC_RPL1, 1, 4, 0x0, 0x0, 0x0, 0x0⟩,
  ⟨.bk, BK_CC_RPL2, 1, 4, 0x0, 0x0, 0x0, 0x0⟩,
  ⟨.bk, BK_CC_RPL3, 1, 4, 0x0, 0x0, 0x0, 0x0⟩,
  ⟨.bk, BK_CC_RPL4, 1, 4, 0x0, 0x0, 0x0, 0x0⟩,
  ⟨.bk, BK_CC_RPL_STAT, 1, 4, 0x0, 0x0, 0x0, 0x0⟩,
  ⟨.bk, BK_CC_ANSWER, 1, 4, 0x0, 0x0, 0x3, 0xFFFF0000⟩,
  ⟨.bk, BK_CC_RMP, 1, 4, 0x0, 0x0, 0x0, 0x0⟩,
  ⟨.bk, BK_CC_RMP_STAT, 1, 4, 0x0, 0x0, 0x0, 0x0⟩,
  ⟨.bk, BK_CC_RMP_TAKE, 1, 4, 0x0, 0x0, 0x1, 0x0⟩,
  ⟨.ws, WS_ID, 1, 4, 0x0, 0x0, 0x0, 0x0⟩,
  ⟨.ws, WS_CW_CTL, 1, 4, 0x0, 0x3, 0x0, 0x0⟩,
  ⟨.ws, WS_CW_STAT, 1, 4, 0x0, 0x0, 0x0, 0x0⟩,
  ⟨.ws, WS_CW_GEN, 1, 4, 0x0, 0x0, 0x0, 0x0⟩,
  ⟨.ws, WS_CW_PASS, 1, 4, 0x0, 0x0, 0x0, 0x0⟩,
  ⟨.ws, WS_CW_FAIL, 1, 4, 0x0, 0x0, 0x0, 0x0⟩,
  ⟨.ws, WS_CW_MISSING, 1, 4, 0x0, 0x0, 0x0, 0x0⟩,
  ⟨.ws, WS_CW_FORMAT, 1, 4, 0x0, 0x0, 0x0, 0x0⟩,
  ⟨.ws, WS_CW_SKIP_BYTES, 1, 4, 0x0, 0x0, 0x0, 0x0⟩,
  ⟨.ws, WS_CW_PARTIAL_BYTES, 1, 4, 0x0, 0x0, 0x0, 0x0⟩,
  ⟨.ws, WS_CW_READBACK, 1, 4, 0x0, 0x0, 0x0, 0x0⟩,
  ⟨.ws, WS_CW_UNALIGNED, 1, 4, 0x0, 0x0, 0x0, 0x0⟩,
  ⟨.ws, WS_CW_SIGOVF, 1, 4, 0x0, 0x0, 0x0, 0x0⟩,
  ⟨.ws, WS_SMP_STAT, 1, 4, 0x0, 0x0, 0x0, 0x0⟩,
  ⟨.ws, WS_SMP_TILES, 1, 4, 0x0, 0x0, 0x0, 0x0⟩,
  ⟨.ws, WS_SMP_DRAWN, 1, 4, 0x0, 0x0, 0x0, 0x0⟩,
  ⟨.ws, WS_SMP_DROPPED, 1, 4, 0x0, 0x0, 0x0, 0x0⟩,
  ⟨.ws, WS_SMP_DEFERRED, 1, 4, 0x0, 0x0, 0x0, 0x0⟩,
  ⟨.ws, WS_SMP_UNCONSIDERED, 1, 4, 0x0, 0x0, 0x0, 0x0⟩,
  ⟨.ws, WS_SMP_UNDRAWABLE, 1, 4, 0x0, 0x0, 0x0, 0x0⟩,
  ⟨.ws, WS_PAT_CFG, 1, 4, 0x0, 0x0, 0x0, 0x0⟩,
  ⟨.ws, WS_PAT_CRC, 1, 4, 0x0, 0x0, 0x0, 0x0⟩,
  ⟨.ws, WS_PAT_STAT, 1, 4, 0x0, 0x0, 0x0, 0x0⟩,
  ⟨.ws, WS_PAT_VER_LO, 1, 4, 0x0, 0x0, 0x0, 0x0⟩,
  ⟨.ws, WS_PAT_VER_HI, 1, 4, 0x0, 0x0, 0x0, 0x0⟩,
  ⟨.ws, WS_PAT_CNT_PKT_CRC, 1, 4, 0x0, 0x0, 0x0, 0x0⟩,
  ⟨.ws, WS_PAT_CNT_IMG_CRC, 1, 4, 0x0, 0x0, 0x0, 0x0⟩,
  ⟨.ws, WS_THM_STAT, 1, 4, 0x0, 0x0, 0x0, 0x0⟩,
  ⟨.ws, WS_HANG_WAIT, 1, 4, 0x0, 0x0, 0x0, 0x0⟩,
  ⟨.ws, WS_PAR_ERR, 1, 4, 0x0, 0x0, 0x0, 0x0⟩,
  ⟨.ws, WS_PAT_MAP, 32, 4, 0x0, 0x0, 0x0, 0x0⟩,
  ⟨.ws, WS_REC_CTL, 1, 4, 0x0, 0x1, 0x0, 0x0⟩,
  ⟨.ws, WS_REC_LOST, 1, 4, 0x0, 0x0, 0x0, 0x0⟩,
  ⟨.ws, WS_REC_X_SEL, 1, 4, 0xF, 0x0, 0x0, 0x0⟩,
  ⟨.ws, WS_REC_X_CMD, 1, 4, 0x0, 0x0, 0x1, 0x0⟩]

/-- Rows of the register map, part 8. -/
def rows8 : List Row := [
  ⟨.ws, WS_REC_X_STAT, 1, 4, 0x0, 0x0, 0x0, 0x0⟩,
  ⟨.ws, WS_REC_X_MB0, 1, 4, 0x0, 0x0, 0x0, 0x0⟩,
  ⟨.ws, WS_REC_X_MB1, 1, 4, 0x0, 0x0, 0x0, 0x0⟩,
  ⟨.ws, WS_REC_X_MB2, 1, 4, 0x0, 0x0, 0x0, 0x0⟩,
  ⟨.ws, WS_CTR_SEL, 1, 4, 0x1F, 0x0, 0x0, 0x0⟩,
  ⟨.ws, WS_CTR_CMD, 1, 4, 0x0, 0x0, 0x1, 0x0⟩,
  ⟨.ws, WS_CTR_STAT, 1, 4, 0x0, 0x0, 0x0, 0x0⟩,
  ⟨.ws, WS_CTR_MB0, 1, 4, 0x0, 0x0, 0x0, 0x0⟩,
  ⟨.ws, WS_CTR_MB1, 1, 4, 0x0, 0x0, 0x0, 0x0⟩,
  ⟨.ws, WS_REC_HIST, 256, 4, 0x0, 0x0, 0x0, 0x0⟩]

/-- The whole register map. -/
def rows : List Row := rows0 ++ rows1 ++ rows2 ++ rows3 ++ rows4 ++ rows5 ++ rows6 ++ rows7 ++ rows8

/-- Whether a row covers a byte offset. -/
def Row.covers (r : Row) (s : Space) (off : Nat) : Bool :=
  decide (r.space = s) && decide (r.lo ≤ off) && decide ((off - r.lo) % r.stride = 0) &&
    decide ((off - r.lo) / r.stride < r.count)

/-- The row of a register; none for a hole. -/
def find (s : Space) (off : Nat) : Option Row := rows.find? (fun r => r.covers s off)

/-- The index of a register in its array. -/
def Row.index (r : Row) (off : Nat) : Nat := (off - r.lo) / r.stride

end Sys2Proof.Reg
end

