-- ==== Sys2Proof/Machine/State.lean ====
section
/-! DEFINITION. The state of the block: every register, table, queue, counter, mode and pin the manual gives it, as plain
data, with the waiting commands; and the state after reset. -/

namespace Sys2Proof.Machine

/-! ## Host memory -/

/-- Host memory as the part reads and writes it: bytes by host address, and one 8-byte sideband slot per 4,096-byte block
(R68). An unlisted byte and an unlisted slot read zero. -/
structure HostMem where
  bytes : Tbl Byte
  slots : Tbl DWord
  deriving DecidableEq, Repr

/-! ## Events, records and the journal (R365, R371, R374) -/

/-- An event on its way to a Bank record arbiter or to the journal: its code, context, parameters and, for a check word
failure, the pair of words of its CW_DETAIL (R84). -/
structure Event where
  code : Nat
  ctx : Nat
  nosent : Bool
  p0 : Word
  p1 : Word
  p2 : Word
  p3 : Word
  detail : Option (DWord × DWord)
  deriving DecidableEq, Repr

/-- One Unit Health Table entry (R227), with what the engine keeps beside it. Ages are held as the number of the sweep visit
of the unit's group at which the age was 0 (R228): the age in units of 256 F is the visits since. `ceVis` is the visit at which
CE was last raised and `ceRaised` whether CE_RATE was raised in its window (R233); `dueAt` the grace count at which DUE was set
and `overdue` that OVERDUE stands (R246); `unwatched` and `patMissing` are the causes in force (R234); `t1ok` that a T1 or T2
passed since entry into Dawn (R235); `t2ran` that T2 has run since entry into Overcast (R243); `overdueTier` the tier of the
OVERDUE that took the unit from Clear to Haze (R234). -/
structure UhtEntry where
  state : Health
  due : Bool
  dueTier : Nat
  voided : Bool
  reason : Nat
  cleanSamples : Nat
  cleanBase : Int
  t0Base : Int
  t1Base : Int
  t2Base : Int
  charges : Nat
  fails : Nat
  ce : Nat
  ceVis : Nat
  ceRaised : Bool
  dueAt : Nat
  overdue : Bool
  unwatched : Bool
  patMissing : Bool
  t1ok : Bool
  t2ran : Bool
  overdueTier : Option Nat
  deriving DecidableEq, Repr

/-- An entry at a start with no history: Dawn, every age and count 0 (R256); of a core T1 is due at once, which TEST_DUE
finds. -/
def UhtEntry.init : UhtEntry where
  state := .dawn
  due := false
  dueTier := 0
  voided := false
  reason := 0
  cleanSamples := 0
  cleanBase := 0
  t0Base := 0
  t1Base := 0
  t2Base := 0
  charges := 0
  fails := 0
  ce := 0
  ceVis := 0
  ceRaised := false
  dueAt := 0
  overdue := false
  unwatched := false
  patMissing := false
  t1ok := false
  t2ran := false
  overdueTier := none

/-- A health event that the journal arbiter accepted during a global stop and that is applied at resume (R58): what befell
which unit (R230, R232, R234), what isolation and the pattern rules make of it, and what a SET writes (R257, R272, R352). -/
inductive HEvent where
  | charge (reason : Nat)
  | observe (reason : Nat)
  | sample
  | ce
  | testPass (tier : Nat)
  | testFail (tier : Nat)
  | testVoid
  | isolate
  | retire
  | eclipsed (reason : Nat)
  | unwatched
  | watched
  | patMissing
  | patPresent
  | set (state : Health) (reason : Nat)
  deriving DecidableEq, Repr

/-! ## Frame, tick, launch and stop -/

/-- An armed launch entry (R51). -/
structure Launch where
  action : Nat
  ctx : Nat
  frame : Nat
  deriving DecidableEq, Repr

/-- The timebase with ZCLK as last measured and as it runs, the launch table, the seed key history and the global stop with the context
commands given during it (0 CREATE, 1 SETLVL, 2 TEARDOWN, the context and its staged values, R175) (R35 to R63). -/
structure Clock where
  frame : Nat
  ticked : Bool
  launch : Tbl Launch
  now : List Launch
  seedKeys : Tbl (BitVec 256)
  seedLost : List Nat
  stopped : Bool
  stopFrame : Nat
  capturing : List Nat
  stopCmds : List (Nat × Nat × Word)
  zclkKhz : Nat
  zclkNow : Nat
  stopHealth : List (Nat × HEvent)
  measureAt : Nat
  deriving DecidableEq, Repr

/-! ## Wisps -/

/-- An open block (R76): the tensor block being stored, the storing command and the epoch it was latched in, the units written
with their data, and whether it is rewritten. -/
structure OpenBlk where
  blockAddr : Nat
  index : Nat
  cmd : Cmd
  epoch : Option Word
  written : Tbl (List Byte)
  rewritten : Bool
  deriving DecidableEq, Repr

/-- A block loaded in the current operator (R80 to R82): the loading command and the epoch it was latched in, the slot word read
at the first load, the units loaded, and whether the CRC engine still holds it. -/
structure LoadBlk where
  blockAddr : Nat
  index : Nat
  cmd : Cmd
  epoch : Option Word
  word : DWord
  loaded : Tbl (List Byte)
  taken : Bool
  deriving DecidableEq, Repr

/-- A block that has closed and whose word is still to be written (R77, R78). -/
structure ClosedBlk where
  blockAddr : Nat
  word : DWord
  deriving DecidableEq, Repr

/-- A signature share register (R87), with the blocks closed under its key (R202) and the replay flag and ticket (R205). An
`invalid` entry is no register: it notes a key that found none, with its closes since the last capture. -/
structure Share where
  ctx : Nat
  handle : Word
  step : Word
  replay : Bool
  ticket : Nat
  blocks : Nat
  sum : DWord
  invalid : Bool
  epoch : Word
  deriving DecidableEq, Repr

/-- A finished tile waiting for the next tick (R124, R127). -/
structure Tile where
  ctx : Nat
  layer : BitVec 16
  oper : BitVec 16
  step : Word
  tag : TileTag
  epoch : Option Word
  deriving DecidableEq, Repr

/-- A sample candidate (R125 bytes 0 to 31, with the operation fields of R126: `row` is ROW, ROW0, SET or INDEX and `count`
ROWS or COUNT), its channel (R19), the epoch it was drawn in, and Zenith's number of a descriptor it submits. -/
structure Cand where
  op : Nat
  src : Nat
  chan : Nat
  second : Bool
  validA : Bool
  validB : Bool
  ctx : Nat
  pos : Nat
  oper : BitVec 16
  step : Word
  decl : Addr
  row : Word
  col : Word
  count : BitVec 16
  blocks : Word
  sigA : DWord
  sigB : DWord
  handle : Word
  twoVec : Bool
  epoch : Option Word
  tagNo : Nat
  deriving DecidableEq, Repr

/-- An extreme of a metric (R363). -/
structure Extreme where
  value : Word
  frame : Nat
  deriving DecidableEq, Repr

/-- The pattern state of a Wisp (R261, R273 to R277): WS_PAT_CFG, the receive bitmap and VALID, what the Bank programs of its
image (test point, entry points of the tiers, expected signatures), the image store by packet, that an image check is asked for (R275),
whether its core has lost its supply since packets of the image came, and that the packet in its buffer showed a parity hit (R465). -/
structure WispPat where
  first : Nat
  count : Nat
  round : Nat
  crc : Word
  bitmap : List Nat
  valid : Bool
  excluded : Bool
  programmed : Bool
  version : DWord
  khz : Nat
  entries : List Nat
  sigs : List DWord
  image : Tbl (List Byte)
  checking : Bool
  unpowered : Bool
  bufferHit : Bool
  deriving DecidableEq, Repr

/-- One Wisp (R15): the latched command with the epoch open then (R161, R187), the check word engines, the sampling lists, the record, the operation
counters, the power and throttle values, the tick and park status, and the pattern state. -/
structure Wisp where
  regs : Tbl Word
  cmd : Option Cmd
  cmdEpoch : Option Word
  tiles : List Tile
  pend : List Cand
  presented : Nat
  holdReq : Bool
  opens : List OpenBlk
  closed : List ClosedBlk
  loads : List LoadBlk
  shares : List Share
  hist : Tbl Word
  extremes : Tbl (Option Extreme)
  frozenAt : Option Nat
  counters : Tbl (BitVec 48)
  lastRx : Option Nat
  missed : Bool
  rejoined : Bool
  supplyLost : Bool
  parked : Bool
  parkReq : Bool
  level : Nat
  estL : Nat
  estM : Nat
  droop : Nat
  drops : Nat
  skips : Nat
  beacons : Nat
  busy : Bool
  inProgress : Bool
  wait : Word
  lastCe : Option Nat
  pat : WispPat
  deriving DecidableEq, Repr

/-- Pattern state after the first power-on (R261). -/
def WispPat.init : WispPat where
  first := 0
  count := 0
  round := 0
  crc := 0
  bitmap := []
  valid := false
  excluded := false
  programmed := false
  version := 0
  khz := 0
  entries := []
  sigs := []
  image := []
  checking := false
  unpowered := false
  bufferHit := false

/-- A Wisp after reset. -/
def Wisp.init : Wisp where
  regs := []
  cmd := none
  cmdEpoch := none
  tiles := []
  pend := []
  presented := 0
  holdReq := false
  opens := []
  closed := []
  loads := []
  shares := []
  hist := []
  extremes := []
  frozenAt := none
  counters := []
  lastRx := none
  missed := false
  rejoined := false
  supplyLost := false
  parked := false
  parkReq := false
  level := 0
  estL := 0
  estM := 0
  droop := 0
  drops := 0
  skips := 0
  beacons := 0
  busy := false
  inProgress := false
  wait := 0
  lastCe := none
  pat := WispPat.init

/-! ## Banks -/

/-- The states of a check descriptor (R125). -/
inductive DescState where
  | fetching
  | runnable
  | running
  | parked
  | finished
  deriving DecidableEq, Repr

/-- A check descriptor (R125): the candidate, what the Bank set at acceptance, its progress and its verdict; `decl` is the
declaration as fetched and `blocks` the operand blocks read so far (R145), by operand number and host address. -/
structure Desc where
  cand : Cand
  key : DWord
  seq : Word
  accept : Nat
  st : DescState
  strict : Bool
  gate : Bool
  incarn : Nat
  units : Nat
  next : Nat
  verdict : DWord
  decl : List Byte
  blocks : Tbl (List Byte)
  carried : Nat
  deriving DecidableEq, Repr

/-- A channel context (R98, R144): the two 640-bit accumulators in units of 2^-320, the zero-sign state, the running binary64 sum of the output
terms (R132, R135) and the two multiset hash sums. -/
structure ChanCtx where
  sum : BitVec 640
  abs : BitVec 640
  negZero : Bool
  run : Frac
  hashL : Nat
  hashR : Nat
  deriving DecidableEq, Repr

/-- A cleared channel context. -/
def ChanCtx.init : ChanCtx where
  sum := 0
  abs := 0
  negZero := true
  run := Frac.ofNat 0
  hashL := 0
  hashR := 0

/-- The Anvil side of a Bank: descriptor queue, slot table, channel contexts, reset and isolation (R125 to R157, R349); `lastRead` is the
channel whose head the operand reader served last (R145), `hostTable` that the table of a pair on one Anvil is in force (R148). -/
structure BankAnv where
  queue : Tbl (List Desc)
  done : List Desc
  seq : Word
  slots : Tbl Nat
  slotsStaged : Tbl Nat
  slotNo : Nat
  lastChan : Nat
  lastRead : Nat
  hostTable : Bool
  ctxs : Tbl ChanCtx
  presented : List Cand
  held : List Cand
  isolated : Bool
  isolatedAt : Nat
  resetAt : Option Nat
  setTo : Option (Health × Nat)
  resetPassed : Bool
  resetCause : Nat
  slotsRun : Tbl Nat
  slotsLast : Tbl Nat
  deriving DecidableEq, Repr

/-- A replay request at a control core (R205). -/
structure ReplayReq where
  ticket : Nat
  ctx : Nat
  step : Word
  origBank : Nat
  origCore : Nat
  core : Nat
  scratch : Nat
  deriving DecidableEq, Repr

/-- A remap request at a control core (R251, R496). -/
structure RemapReq where
  logical : Nat
  oldPos : Nat
  newPos : Nat
  deriving DecidableEq, Repr

/-- The control-core interface block and the ownership, pair and spare-remap tables of a Bank (R160, R171, R251, R496), with the logical
cores whose spare-remap entry showed a parity hit and is reloaded at the next tick (R465). -/
structure BankCc where
  remapBad : List Nat
  step : Word
  sel : Nat
  replays : List ReplayReq
  remaps : List RemapReq
  own : Tbl (Nat × Nat)
  ownPend : Tbl (Nat × Nat)
  pair : Tbl (Nat × Nat)
  map : Tbl Nat
  vacant : List Nat
  remapDue : List Nat
  remapReady : List Nat
  deriving DecidableEq, Repr

/-- What an event presented to a Bank record arbiter sends on to Zenith when it is accepted (R23, R55): nothing, a journal
entry, a check word failure, or a deferral (R150). -/
inductive Forward where
  | nothing
  | journal
  | cw (code : Nat) (addr : Nat) (ctx : Nat) (step : Word) (epoch : Option Word) (pos : Nat) (handle index : Word)
      (replay : Option Nat)
  | defer (ctx : Nat) (step : Word) (epoch : Option Word) (pos : Nat) (owed : Bool)
  deriving DecidableEq, Repr

/-- An event presented to the Bank record arbiter and not yet accepted: its source and the frame a Wisp event carries (R45). -/
structure Presented where
  source : Nat
  frame : Option Nat
  ev : Event
  fwd : Forward
  deriving DecidableEq, Repr

/-- The record ring of a Bank and its arbiter (R46, R367 to R373, R382); `afterLoss` that the record written last is a REC_LOST (R365). -/
structure BankRing where
  ring : Tbl Rec
  rd : Nat
  wr : Nat
  count : Nat
  idx : Nat
  copy : List Word
  valid : Bool
  frozenAt : Option Nat
  lost : Nat
  saturated : Word
  owed : Nat
  owedFirst : Nat
  owedLast : Nat
  owedFrozen : Bool
  owedFull : Bool
  afterLoss : Bool
  presented : List Presented
  lastSource : Nat
  clearPend : Option Bool
  deriving DecidableEq, Repr

/-- How far a field test has come (R244 to R250): saving, waiting for the tick it starts at, running, restoring. -/
inductive TestPhase where
  | saving
  | starting
  | running
  | restoring
  deriving DecidableEq, Repr

/-- A field test on a position: its tier, phase and the frame the phase began, the VOID reason with its frame (R250), the context
whose control core is held for it (R245), the bytes it takes of each stash copy and where (R247), the CRC-32C saved of each block, why it
was asked for, and the sum of its stores with the blocks they still leave open (R263). -/
structure Test where
  tier : Nat
  phase : TestPhase
  since : Nat
  startFrame : Nat
  voidReason : Nat
  voidFrame : Nat
  hold : Option Nat
  stash : Nat
  at_ : Nat
  crcs : List Word
  onDemand : Bool
  shutdown : Bool
  startup : Bool
  sum : DWord
  opens : List OpenBlk
  deriving DecidableEq, Repr

/-- A command that a Bank withholds; a breakpoint has hit it already, or not (R396, R397). -/
structure HeldCmd where
  tag : CmdTag
  hit : Bool
  deriving DecidableEq, Repr

/-- Debug state of a Bank: counter stream pointers, the trace stager and withheld commands (R388 to R399). -/
structure BankDbg where
  ctrRd : Tbl Nat
  ctrWr : Tbl Nat
  skippedRun : Tbl Nat
  trcRd : Nat
  trcWr : Nat
  staged : List (List Byte)
  traceLost : Nat
  traceFirst : Nat
  withheld : List HeldCmd
  deriving DecidableEq, Repr

/-- The copy a Bank keeps of a parked Wisp's record and counters (R17, R510). -/
structure ParkCopy where
  hist : Tbl Word
  extremes : Tbl (Option Extreme)
  counters : Tbl (BitVec 48)
  deriving DecidableEq, Repr

/-- One Bank (R15). Of the data channel it holds the repair round, the REPAIR packets still to send (by position and SEQ) with the words
sent of the first, those that arrive in this frame, and the frames since its channel fell idle (R276, R278). `newRows` are the repairs made
since the last start, `srep` what the slice repair port asked for last: position, failing row and spare (R511). -/
structure Bank where
  regs : Tbl Word
  frameOff : BitVec 53
  headerBad : Bool
  seedAbsent : Bool
  seedFlip : DWord
  isolated : Bool
  isolatedAt : Nat
  resetAt : Option Nat
  setTo : Option (Health × Nat)
  resetCause : Nat
  missing : Nat
  pairLostAt : Option Nat
  anv : BankAnv
  cc : BankCc
  ring : BankRing
  dbg : BankDbg
  tests : Tbl (Option Test)
  testHold : List Nat
  parkCopies : Tbl (Option ParkCopy)
  repairs : List RepairRow
  newRows : List RepairRow
  srep : Option (Nat × Nat × Nat)
  arrayDone : Bool
  arrayFail : Bool
  patRepair : Nat
  patOut : List (Nat × Nat)
  patWord : Nat
  patArrive : List (Nat × Nat)
  patTail : Nat
  deriving DecidableEq, Repr

/-- A Bank after reset: slot table, maps and ownership at their reset values (R18, R141), everything empty. DESIGN CHOICE (log entry 12). -/
def Bank.init : Bank where
  regs := []
  frameOff := 0
  headerBad := false
  seedAbsent := false
  seedFlip := 0
  isolated := false
  isolatedAt := 0
  resetAt := none
  setTo := none
  resetCause := 0
  missing := 0
  pairLostAt := none
  anv := { queue := [], done := [], seq := 0, slots := [], slotsStaged := [], slotNo := 0, lastChan := 15, lastRead := 15, hostTable := false, ctxs := [],
           presented := [], held := [], isolated := false, isolatedAt := 0, resetAt := none, setTo := none, resetPassed := false,
           resetCause := 0, slotsRun := [], slotsLast := [] }
  cc := { remapBad := [], step := 0, sel := 0, replays := [], remaps := [], own := [], ownPend := [], pair := [], map := [], vacant := [],
          remapDue := [], remapReady := [] }
  ring := { ring := [], rd := 0, wr := 0, count := 0, idx := 0, copy := [], valid := false, frozenAt := none, lost := 0,
            saturated := 0, owed := 0, owedFirst := 0, owedLast := 0, owedFrozen := false, owedFull := false, afterLoss := false,
            presented := [], lastSource := 271, clearPend := none }
  dbg := { ctrRd := [], ctrWr := [], skippedRun := [], trcRd := 0, trcWr := 0, staged := [], traceLost := 0,
           traceFirst := 0, withheld := [] }
  tests := []
  testHold := []
  parkCopies := []
  repairs := []
  newRows := []
  srep := none
  arrayDone := false
  arrayFail := false
  patRepair := 0
  patOut := []
  patWord := 0
  patArrive := []
  patTail := 0

/-- An item at the Zenith journal arbiter (R55): an entry for the journal, or a verdict or check word failure that a Bank forwarded. -/
inductive ArbItem where
  | entry (b : JBody)
  | verdict (bank : Nat) (d : Desc)
  | cw (bank : Nat) (f : Forward) (nosent : Bool)
  deriving DecidableEq, Repr

/-- The journal: what waits at the arbiter in the order it came (a Zenith event is stamped when it is appended), staging, the entries durable in the module's sectors with the sector being filled and the erase count of each, and what is owed for lost entries (R376 to
R379, R418). -/
structure Journal where
  waiting : List ArbItem
  staging : List JEntry
  sectors : Tbl (List JEntry)
  sector : Nat
  sectorFill : Nat
  erases : Tbl Nat
  nextSeq : Nat
  durableSeq : Option Nat
  start : Word
  volatileRun : Bool
  lostEvents : Nat
  lostOthers : Nat
  ckptAt : Nat
  ckptSeq : Nat
  ckptOwed : Bool
  deriving DecidableEq, Repr

/-! ## Contexts and the commit horizon -/

/-- Context states (R159). -/
inductive CtxState where
  | free
  | active
  | failed
  | closing
  | cooling
  deriving DecidableEq, Repr

/-- Why a step is suspect (R201, R207). -/
inductive SuspectCause where
  | beyond
  | deferral
  | checkWord
  | shadow
  | pair
  deriving DecidableEq, Repr

/-- A run of a step whose shares are compared: the original (of a Pair the primary's), a replay, a shadow run, or the
secondary's. -/
inductive RunId where
  | orig
  | r1
  | r2
  | shadow
  | secondary
  deriving DecidableEq, Repr

/-- A run: the core it ran on, and for a replay the ticket, the scratch slot, the context whose control core is held for it
(R204), the shares it gave, and what its loads of carried blocks ended in (R207). -/
structure Run where
  run : RunId
  bank : Nat
  pos : Nat
  core : Nat
  ticket : Nat
  slot : Nat
  host : Option Nat
  done : Bool
  shares : List Share
  badLoads : Bool
  passed : List (Word × Word)
  deriving DecidableEq, Repr

/-- A comparison in progress (R206): the two runs, the SIGCMPs still without verdict, whether any failed, and whether a
failure rests on a VOID. -/
structure Compare where
  a : RunId
  b : RunId
  left : List Nat
  mismatch : Bool
  onVoid : Bool
  deriving DecidableEq, Repr

/-- What the resolution of a step waits for (R207): the original's shares, a replay core, a replay, its SIGCMPs, or the
cross-check. -/
inductive SuspectPhase where
  | waitOrig
  | seek (run : RunId)
  | replaying (run : RunId)
  | comparing
  | crossCheck (tag : Nat)
  deriving DecidableEq, Repr

/-- A step under resolution (R201 to R208), or a shadow replay or Pair comparison that may make it suspect (R170, R172): `real`
says that the step is suspect; `desc` the sampled descriptor with its Bank and Anvil; `handles` the handles of a Pair comparison that failed; `badBlocks` the blocks whose failed check
made it suspect; `onVoid` that an earlier comparison rested on a VOID; `pairs` the primary and secondary cores still to compare; `left`
the core whose replay of the run now sought was abandoned last (R207). -/
structure Suspect where
  id : Nat
  step : Word
  cause : SuspectCause
  real : Bool
  since : Nat
  phase : SuspectPhase
  runs : List Run
  desc : Option Cand
  descBank : Nat
  handles : List Word
  badBlocks : List (Word × Word)
  cmp : Option Compare
  onVoid : Bool
  pairs : List ((Nat × Nat) × (Nat × Nat))
  left : Option (Nat × Nat)
  deriving DecidableEq, Repr

/-- A replay that runs on after its epoch was retracted (R183, R209): the context, the step as it stood, and the run. -/
structure Orphan where
  ctx : Nat
  epoch : Word
  suspect : Suspect
  run : RunId
  deriving DecidableEq, Repr

/-- The fate of an epoch: still settling, its COMMIT queued, or its RETRACT queued (R189). -/
inductive Fate where
  | live
  | committing
  | retracting
  deriving DecidableEq, Repr

/-- An epoch from its first step until its token has been handed over (R187 to R191): its number, closing frame, whether it is
counted, the candidates drawn that have no verdict yet, its steps under resolution, the EXPOSED flag, its fate, and whether it is
the first of its incarnation or after a RESUME. -/
structure Epoch where
  num : Word
  closing : Option Nat
  counted : Bool
  outstanding : Nat
  suspects : List Suspect
  exposed : Bool
  fate : Fate
  first : Bool
  deriving DecidableEq, Repr

/-- A COMMIT or RETRACT token (R197). -/
inductive Token where
  | commit (epoch : Word)
  | retract (first last : Word) (reason : Nat)
  deriving DecidableEq, Repr

/-- A SETLVL accepted and not yet in effect (R176). -/
structure PendLevel where
  level : Nat
  shadowFrac : Nat
  boundaryAt : Option Nat
  deriving DecidableEq, Repr

/-- The exposure notice of a context waiting for emission (R222). -/
structure Expose where
  kind : Nat
  first : Word
  last : Word
  unit : Nat
  deriving DecidableEq, Repr

/-- The level, command and failure state of a context (R158 to R184); `partners` are the primaries with their secondaries, by Bank and logical
core, as the SETLVL to Pair that was checked last read them (R171, R185). -/
structure CtxCore where
  state : CtxState
  incarn : Nat
  level : Nat
  strict : Bool
  shadowFrac : Nat
  srate : Nat
  sratePend : Option Nat
  pend : Option PendLevel
  result : Nat
  clipped : Bool
  failReason : Nat
  discarded : Word
  deadIn : Word
  coolAt : Nat
  closePend : Bool
  step : Word
  marks : List Nat
  markEpoch : Bool
  boundaryAt : Option Nat
  held : List (Nat × Nat)
  lostFailPend : Bool
  partners : List ((Nat × Nat) × (Nat × Nat))
  deriving DecidableEq, Repr

/-- A step boundary whose SIGCAP tick has not come (R202, R172). -/
structure CapWait where
  step : Word
  epoch : Word
  pair : Bool
  deriving DecidableEq, Repr

/-- The horizon state of a context (R187 to R226): `capArm` that an ARM of SIGCAP is still owed, `endedStep` the last step
ended, `capStep` the last step whose shares a SIGCAP has captured, `issued` the step of the last cross-chip transfer; `openNext` that the
next epoch opens at a tick to come, `resumedAt` the frame of the last RESUME and `againAt` that of the last retraction that found every epoch
retracted already (R225). -/
structure CtxHz where
  epoch : Word
  opened : Bool
  openNext : Bool
  everOpened : Bool
  firstNext : Bool
  committed : Word
  committedAny : Bool
  epochs : List Epoch
  stall : Bool
  retractPend : Bool
  retracts : Nat
  retrFirst : Word
  retrLast : Word
  stallFrames : Word
  group : BitVec 16
  en : Bool
  lastToken : Option (Token × Nat)
  expose : List Expose
  issued : Option Word
  capArm : Bool
  capWait : List CapWait
  endedStep : Option Word
  capStep : Option Word
  resumedAt : Option Nat
  againAt : Option Nat
  deriving DecidableEq, Repr

/-- The hang state of a context (R332 to R346). -/
structure CtxHang where
  quiet : Nat
  beacon : Bool
  busy : Bool
  blind : List Nat
  incident : Option Nat
  recovered : Bool
  beaconAt : Nat
  deriving DecidableEq, Repr

/-- One context. -/
structure Ctx where
  core : CtxCore
  hz : CtxHz
  hang : CtxHang
  dbgState : Nat
  deriving DecidableEq, Repr

/-- A context that has never been created; its level is Off. -/
def Ctx.init : Ctx where
  core := { state := .free, incarn := 0, level := 0, strict := false, shadowFrac := 0, srate := 0, sratePend := none,
            pend := none, result := 0, clipped := false, failReason := 0, discarded := 0, deadIn := 0, coolAt := 0,
            closePend := false, step := 0, marks := [], markEpoch := false, boundaryAt := none,
            held := [], lostFailPend := false, partners := [] }
  hz := { epoch := 0, opened := false, openNext := false, everOpened := false, firstNext := true, committed := 0xFFFFFFFF,
          committedAny := false, epochs := [], stall := false, retractPend := false, retracts := 0,
          retrFirst := 0, retrLast := 0, stallFrames := 0, group := 0, en := false, lastToken := none, expose := [],
          issued := none, capArm := false, capWait := [], endedStep := none, capStep := none, resumedAt := none, againAt := none }
  hang := { quiet := 0, beacon := false, busy := false, blind := [], incident := none, recovered := false,
            beaconAt := 0 }
  dbgState := 0

/-- An inbound horizon entry (R213). -/
structure Inbound where
  peer : BitVec 16
  ctx : Nat
  link : Nat
  incarn : BitVec 16
  epoch8 : BitVec 8
  depend : Word
  count : Nat
  last : Nat
  deadline : Nat
  deriving DecidableEq, Repr

/-- A switch link (R217, R218). -/
structure Link where
  rtt : Nat
  measured : Bool
  width : Nat
  up : Bool
  deriving DecidableEq, Repr

/-- Where the switch port sends a horizon message (R194, R198): the broadcast group on every link or on one, the multicast
group of a context, or one peer on one link. -/
inductive MsgDest where
  | broadcast (link : Nat)
  | onLink (link : Nat)
  | group (id : BitVec 16)
  | peer (id : BitVec 16) (link : Nat)
  deriving DecidableEq, Repr

/-- A horizon message handed to the switch port (R507). -/
structure OutMsg where
  bytes : List Byte
  dest : MsgDest
  deriving DecidableEq, Repr

/-- A share log entry (R202). -/
structure LogEntry where
  bank : Nat
  pos : Nat
  share : Share
  deriving DecidableEq, Repr

/-- A descriptor that Zenith submits (R152, R206, R207): its number, the Bank it goes to, the candidate, the context, epoch and
step it serves, and the two core units that ran (R236). -/
structure SigCmp where
  tag : Nat
  bank : Nat
  cand : Cand
  ctx : Nat
  epoch : Word
  step : Word
  both : List Nat
  deriving DecidableEq, Repr

/-- A retraction or a failure that the inbound table caused during a global stop, applied at GRESUME (R225). DEDUCED (log entry 52). -/
inductive HzDefer where
  | retract (ctx : Nat) (epoch : Word) (reason : Nat)
  | fail (ctx : Nat) (reason : Nat)
  deriving DecidableEq, Repr

/-- The horizon engine (R186 to R226): inbound table, links, peers, the token queue, what the switch port was given, the share
log with the number of entries it has taken, the signatures summed at the last SIGCAP of each context, descriptors Zenith is retrying or waits for, and the counters of
tickets and descriptors. -/
structure Horizon where
  orphans : List Orphan
  inbound : List Inbound
  peak : Nat
  links : Tbl Link
  self : Option (BitVec 16)
  noChecker : List (BitVec 16)
  unheld : List (BitVec 16 × Nat × BitVec 8)
  tokens : List (Nat × Token × Nat)
  out : List OutMsg
  transfers : List (BitVec 48)
  log : List LogEntry
  captured : List (Nat × Share)
  logAt : Nat
  sigRetry : List SigCmp
  sigOpen : List SigCmp
  ticket : Nat
  tagNo : Nat
  helloAt : Nat
  refreshAt : Nat
  stopQueue : List HzDefer
  deriving DecidableEq, Repr

/-- The on-demand request last started (R254, R255): its cores, tier and the grace count at its start; whether it is still
running; the cores launched; and the result of each core that has one (0 PASS, 1 FAIL, 2 VOID). -/
structure OnDemand where
  units : List Nat
  tier : Nat
  start : Nat
  running : Bool
  launched : List Nat
  results : Tbl Nat
  notRun : Nat
  deriving DecidableEq, Repr

/-- The health engine (R227 to R260): the table, the number of frames swept, the frame and sweep count of the last CE window
restart, the count of frames that grace periods use (frames of a stop apart) and the on-demand request. -/
structure HealthEngine where
  uht : Tbl UhtEntry
  sweepNo : Nat
  ceWindow : Nat
  ceSweep : Nat
  graceClock : Nat
  request : Option OnDemand
  deriving DecidableEq, Repr

/-! ## Hangs and recovery -/

/-- How far an incident has come (R338 to R346). -/
inductive IncidentPhase where
  | capturing
  | awaitingCommand
  | queued
  | requested
  | recovered
  | timedOut
  deriving DecidableEq, Repr

/-- A recovery: the contexts that take part, the cores of its recovery set, the control core where R339 applies, its ticket and
times; `asked` that RECOVER has been given, `ended` that its suppression window has ended, `banksLeft` the Banks that capture. -/
structure Incident where
  number : Nat
  ctx : Nat
  members : List Nat
  cores : List (Nat × Nat)
  control : Option Nat
  blamed : Nat
  collateral : Bool
  phase : IncidentPhase
  detectedAt : Nat
  requestAt : Option Nat
  queuedAt : Nat
  ticket : Nat
  windowEnd : Option Nat
  neighbours : List Nat
  banksLeft : List Nat
  asked : Bool
  ended : Bool
  deriving DecidableEq, Repr

/-- Hang detection, recovery, the watchdog and the chip reset request (R331 to R359). -/
structure HangState where
  incidents : List Incident
  count : Nat
  tickets : Nat
  wdog : Nat
  chipReset : Bool
  chipCause : Option Nat
  ringUsed : List (Nat × Nat)
  resetRequests : List (Nat × List (Nat × Nat) × Option Nat)
  deriving DecidableEq, Repr

/-! ## Keys, alarms, the ledger module and Afsin -/

/-- The always-on slice (R331, R409, R425, R427): what only a cold power-on clears, with what no reset and no loss of power alters:
the vault store, and the fuses of each Bank, as the budget used and the entries they hold (R298); `powered` that the slice has
been powered since the last release of ODT_RST_N, so that the next start is cold (R448). -/
structure AlwaysOn where
  alarmLevel : Nat
  raised : BitVec 6
  debugFails : Nat
  thermTrip : Bool
  rstCause : Nat
  rstCount : Nat
  rstFrame : BitVec 16
  salt : BitVec 256
  saltValid : Bool
  floor : DWord
  cacheValid : Bool
  cacheVersion : DWord
  cacheDigest : BitVec 384
  fuses : Tbl (Nat × List RepairRow)
  powered : Bool
  deriving DecidableEq, Repr

/-- How the ledger module is bound (R416). -/
inductive LedgerState where
  | absent
  | bound
  | foreign
  deriving DecidableEq, Repr

/-- The ledger module as Zenith sees it: the header in use, the two copies that the module holds, and which is rewritten next (R413 to R421). -/
structure Ledger where
  state : LedgerState
  header : Option LedgerHeader
  copyA : Option LedgerHeader
  copyB : Option LedgerHeader
  nextB : Bool
  density : Nat
  uid : DWord
  jedec : BitVec 24
  keyHeld : Bool
  ledgerKey : BitVec 256
  advise : Bool
  erasesSinceHeader : Nat
  deriving DecidableEq, Repr

/-- A queued Afsin notice (R432). -/
structure Notice where
  seq : Nat
  code : Nat
  alert : Bool
  body : List Word
  deriving DecidableEq, Repr

/-- The management port: addresses, session, notices and fragment staging (R428 to R432). -/
structure Afsin where
  dynAddr : BitVec 7
  eid : BitVec 8
  session : Option (BitVec 256)
  lastSeq : Option Nat
  lastAuth : Nat
  notices : List Notice
  nextSeq : Nat
  lostPending : Nat
  lostSeq : Nat
  ibi : Bool
  patStage : List Byte
  impStage : List Byte
  response : List Byte
  offeredAt : Nat
  deriving DecidableEq, Repr

/-- A snapshot of the health state for an export (R422): the health table, each Bank's map and vacant cores, and each
Bank's repair table, with the timestamp of the snapshot tick. -/
structure ExportSnap where
  uht : Tbl UhtEntry
  sweepNo : Nat
  ceSweep : Nat
  maps : List (Tbl Nat × List Nat)
  repairs : List (List RepairRow)
  stamp : DWord
  deriving DecidableEq, Repr

/-- An accepted import and the frame it was accepted in (R423). -/
structure ImportPend where
  uht : List (List Word)
  maps : List (List Nat)
  repairs : List (List RepairRow)
  digest : BitVec 384
  acceptedAt : Nat
  deriving DecidableEq, Repr

/-- Alarm and debug access state of Zenith (R411, R424, R427). -/
structure Alarms where
  asserted : BitVec 6
  entFail : Bool
  debugOpen : Bool
  challenge : Option (BitVec 256)
  exportRunning : Option Bool
  exportSeq : Word
  exportSnap : Option ExportSnap
  importPend : Option ImportPend
  reseedAt : Nat
  deriving DecidableEq, Repr

/-! ## Register interface -/

/-- A mailbox holding words (R487). -/
structure Mailbox where
  valid : Bool
  data : List Word
  deriving DecidableEq, Repr

/-- One path's own copy of the indirect-access registers and of every mailbox (R477), and its armed clear (R372). -/
structure PathCopy where
  indAddr : Word
  indInc : Nat
  indResult : Nat
  indWrap : Bool
  indCount : Nat
  time : Mailbox
  seed : Mailbox
  uht : Mailbox
  node : Mailbox
  jnl : Mailbox
  wide : Mailbox
  extreme : Tbl Mailbox
  extremeEmpty : List Nat
  counter : Tbl Mailbox
  clearArmed : Option (Nat × Word)
  deriving DecidableEq, Repr

/-- An empty mailbox. -/
def Mailbox.init : Mailbox where
  valid := false
  data := []

/-- A path's copy after reset. -/
def PathCopy.init : PathCopy where
  indAddr := 0
  indInc := 0
  indResult := 0
  indWrap := false
  indCount := 0
  time := Mailbox.init
  seed := Mailbox.init
  uht := Mailbox.init
  node := Mailbox.init
  jnl := Mailbox.init
  wide := Mailbox.init
  extreme := []
  extremeEmpty := []
  counter := []
  clearArmed := none

/-- The register interface of Zenith: its register file (values of RW and RWM fields, counters and RESULT fields by window
offset), the path copies, the word last read, and the frame of the last REG_REJECT journaled (R447). -/
structure RegState where
  zn : Tbl Word
  paths : Tbl PathCopy
  readData : Word
  rejectAt : Option Nat
  deriving DecidableEq, Repr

/-! ## Debug and profiling (R383 to R407) -/

/-- A breakpoint hit that holds contexts (R396), with the frame it was reported in. -/
structure BrkHit where
  entry : Nat
  since : Nat
  ctx : Nat
  isGlobal : Bool
  bank : Nat
  releasing : Bool
  deriving DecidableEq, Repr

/-- A tensor extent noted for a dump (R398). -/
structure Extent where
  bank : Nat
  base : Nat
  length : Nat
  fmt : Nat
  carry : Bool
  deriving DecidableEq, Repr

/-- A dump entry (R398 to R401). -/
structure Dump where
  state : Nat
  ctx : Nat
  layer : Nat
  oper : Nat
  handle : Word
  step : Word
  area : Nat
  limit : Nat
  extents : List Extent
  truncated : Bool
  cwFail : Nat
  units : Nat
  startFrame : Nat
  halting : Bool
  releasing : Bool
  deriving DecidableEq, Repr

/-- An idle dump entry. -/
def Dump.init : Dump where
  state := 0
  ctx := 0
  layer := 0
  oper := 0
  handle := 0
  step := 0
  area := 0
  limit := 0
  extents := []
  truncated := false
  cwFail := 0
  units := 0
  startFrame := 0
  halting := false
  releasing := false

/-- What a sampler copied of a core at a tick (R52, R390): its logical core, position and owner, whether it missed the tick, the operation
counters and those of the previous sample; and whether its ownership and mapping have stayed since, so that it can serve as one (R391). -/
structure CoreSnap where
  logical : Nat
  pos : Nat
  owner : Nat
  gap : Bool
  counters : Tbl (BitVec 48)
  old : Option (Tbl (BitVec 48))
  keep : Bool
  deriving DecidableEq, Repr

/-- Debug state of Zenith: breakpoint pass counts and hits, dump entries, the previous samples of filtered streams by stream and
core (R391), the samples due by stream and Bank (2 × (frame + 1), with 1 added for LAUNCHED; R389) with the copies taken for them, and the wait-for graph with
the context and incident it is of (R402). -/
structure DebugState where
  passes : Tbl Nat
  hits : List BrkHit
  dumps : Tbl Dump
  base : Tbl (Option (Tbl (BitVec 48)))
  due : Tbl Nat
  snaps : Tbl (List CoreSnap)
  wfg : Nat
  graphAt : Nat
  wfgIncident : Nat
  wfgWaits : List (Nat × Word)
  deriving DecidableEq, Repr

/-! ## Configuration image values (R436 to R445) -/

/-- The thermal section (R313, R441). -/
structure ThermalCfg where
  aL : Nat
  aM : Nat
  gLatL : Nat
  gLatM : Nat
  gLatS : Nat
  gLM : Nat
  gMS : Nat
  gAmb : Nat
  wL : List Nat
  wM : List Nat
  staticL : Nat
  staticM : Nat
  pmaxL : Nat
  pmaxM : Nat
  ambient : BitVec 16
  droopCal : Nat
  diodeTile : List Nat
  tileDiode : List Nat
  clusterStack : List Nat
  deriving DecidableEq, Repr

/-- A host memory region of the carve-out section (R443). -/
structure Region where
  base : Nat
  size : Nat
  deriving DecidableEq, Repr

/-- A prior (R442). -/
structure Prior where
  first : Nat
  count : Nat
  state : Health
  deriving DecidableEq, Repr

/-- The values the configuration image gives, beside the register loads (R439 to R445). -/
structure ImageCfg where
  t2Base : Nat
  t2Stride : Nat
  vendorIana : Nat
  i3cStatic : Nat
  hostClear : Bool
  fastPath : Bool
  alarmMap : Nat
  endurance : Nat
  t1Base : Nat
  laneIds : List Nat
  sdZclk : Nat
  hostWait : Nat
  thermal : ThermalCfg
  priors : List Prior
  regions : List Region
  replaySlot : Nat
  capBytes : Nat
  baseOff : Nat
  baseSize : Nat
  keys : List (Bool × BitVec 776)
  patterns : List Byte
  digest : BitVec 384
  deriving DecidableEq, Repr

/-- Before an image is in use. -/
def ImageCfg.init : ImageCfg where
  t2Base := 0
  t2Stride := 0
  vendorIana := 0
  i3cStatic := 0
  hostClear := false
  fastPath := false
  alarmMap := 0
  endurance := 0
  t1Base := 0
  laneIds := []
  sdZclk := 0
  hostWait := 0
  thermal := { aL := 0, aM := 0, gLatL := 0, gLatM := 0, gLatS := 0, gLM := 0, gMS := 0, gAmb := 0, wL := [], wM := [],
               staticL := 0, staticM := 0, pmaxL := 0, pmaxM := 0, ambient := 0, droopCal := 0, diodeTile := [],
               tileDiode := [], clusterStack := [] }
  priors := []
  regions := []
  replaySlot := 0
  capBytes := 0
  baseOff := 0
  baseSize := 0
  keys := []
  patterns := []
  digest := 0

/-- How Odtil runs (R456). -/
inductive Mode where
  | starting
  | configured
  | unconfigured
  deriving DecidableEq, Repr

/-- The start sequence (R448 to R453). -/
structure StartState where
  mode : Mode
  step : Nat
  kind : Nat
  skipped : Bool
  lateHost : Bool
  ready : Bool
  active : Bool
  banksReleased : Bool
  failures : List ArrayFail
  notRun : Nat
  hostWaitFrom : Nat
  deriving DecidableEq, Repr

/-- The pins and ports of Zenith (R503 to R515): inputs as last sampled, and the outputs that are not derived from other
state. -/
structure Pins where
  resetHeld : Bool
  pwrOk : Bool
  chkPresent : Bool
  supplyBad : List Nat
  odtSupplyOk : Bool
  fusePwrOk : Bool
  hostCoresUp : Bool
  swChecker : Bool
  deriving DecidableEq, Repr
/-! ## Thermal model (R306 to R330) -/

/-- A node of the thermal model (R307, R308): TEMP and TEMP before the last update, in 2^-16 °C, the four sub-window minima in
1/64 °C, the limit marks, and K of the last update. -/
structure Node where
  temp : Int
  prior : Int
  mins : List Int
  absOver : Bool
  riseOver : Bool
  k : Nat
  deriving DecidableEq, Repr

/-- A diode (R315): the last valid reading, its frame, the reading before it, and whether it is SUSPECT. -/
structure Diode where
  reading : Int
  valid : Bool
  frame : Nat
  prior : Int
  priorFrame : Nat
  suspect : Bool
  deriving DecidableEq, Repr

/-- The thermal engine (R306 to R328): nodes, tile levels in force and as the last update left them, the estimate sums of each
tile since the last update and those delivered at the last tick (R309, R312), the diodes, the update timing with the interval (0
long, 1 4 F, 2 1 F), what the last update decided and is applied at the next tick, and the node with the smallest margin. -/
structure Thermal where
  nodes : Tbl Node
  levels : Tbl Nat
  newLevels : Tbl Nat
  acc : Tbl (Nat × Nat)
  lastEst : Tbl (Nat × Nat)
  diodes : Tbl Diode
  updateAt : Nat
  nextAt : Nat
  cadence : Nat
  modelStart : Nat
  started : Bool
  pending : Bool
  obs : List Nat
  stopReq : Bool
  stopAt : Nat
  emerg : Option (Nat × Word)
  pendStop : Option (Nat × Word)
  pendTrip : Option (Nat × Word)
  hot : Nat
  hotMargin : Int
  deriving DecidableEq, Repr

/-! ## Pattern packages (R261 to R282) -/

/-- The pattern store (R261 to R282): the staged package (none where nothing is staged), the installed one with its version and digest, the
phase (2 broadcast round, 3 retry round), whether the active ledger slot holds the installed package, which slot is active and its version,
the round number, the frames of setup left of a broadcast, the channel words sent of it up to this frame and with it, the Banks still in
the round, the late repairs waiting (by Bank and position) and in progress with their attempts,
the ledger slot being written, the contents of the slots, the last retry period, and the candidates left at a start (slots 0 and 1,
2 the configuration image; R272). -/
structure PatStore where
  stage : List Byte
  installed : List Byte
  version : DWord
  digest : BitVec 384
  phase : Nat
  durable : Bool
  slot : Nat
  slotVersion : DWord
  round : Nat
  setup : Nat
  wordsAt : Nat
  words : Nat
  banksLeft : List Nat
  lateQueue : List (Nat × Nat)
  lateRun : List ((Nat × Nat) × Nat)
  slotWrite : Option Nat
  slotBytes : Tbl (List Byte)
  retryAt : Nat
  readsLeft : List Nat
  deriving DecidableEq, Repr

/-! ## Shutdown (R283 to R305) -/

/-- The shutdown sequence (R283 to R303): the phase, the hold on the control cores, the tick at which QUIESCE began, a QUIESCE that
begins at the next tick, the unquiesced cores, whether ARRAY has destroyed the arrays and whether a frame of it failed its window,
the locations whose arrays failed, the Banks in CORES with the next position of each and the cores still to test deep, the Banks
whose next group waits for a tick, the last result of each core tested and the cores not run, the units in Eclipse when the
shutdown and when CORES began and the cores in Overcast then, the rows still to fuse and whether fuse power dropped in the write of the
first, the spares that failed and the Anvils and Banks that ARRAY did not test, a failure of a Zenith array, an alarm since acceptance,
whether a fuse was programmed, CLEAN of the certificate, and a CANCEL whose hold ends at the next tick. -/
structure Shutdown where
  phase : Nat
  hold : Bool
  startFrame : Nat
  quiescePend : Bool
  unquiesced : List Nat
  destroyed : Bool
  windowBad : Bool
  banksLeft : List Nat
  nextPos : Tbl Nat
  deep : Tbl (List Nat)
  groupDue : List Nat
  tested : List (Nat × Nat)
  notRun : List Nat
  eclipse0 : List Nat
  eclipse1 : List Nat
  overcast1 : List Nat
  fuseLeft : List (Nat × RepairRow)
  fuseDrop : Bool
  failedRows : List (Nat × Nat × Nat)
  badSpares : List (Nat × Nat × Nat × Nat)
  untested : List Nat
  zenithFail : Bool
  alarmed : Bool
  fusedAny : Bool
  clean : Bool
  releasing : Bool
  deriving DecidableEq, Repr

/-- No shutdown. -/
def Shutdown.init : Shutdown where
  phase := 0
  hold := false
  startFrame := 0
  quiescePend := false
  unquiesced := []
  destroyed := false
  windowBad := false
  banksLeft := []
  nextPos := []
  deep := []
  groupDue := []
  tested := []
  notRun := []
  eclipse0 := []
  eclipse1 := []
  overcast1 := []
  fuseLeft := []
  fuseDrop := false
  failedRows := []
  badSpares := []
  untested := []
  zenithFail := false
  alarmed := false
  fusedAny := false
  clean := false
  releasing := false

/-! ## Storage protection and scrub (R457 to R476) -/

/-- A scrub that has been accepted (R471 to R473): TARGET, the first host address, the pages, VERIFY_CW and the Bank of a TARGET
1, as latched; whether it has begun to read, the pages read and the frame of the last of them; and the regions that UE reports have
named. -/
structure Scrub where
  target : Nat
  base : Nat
  len : Nat
  verify : Bool
  bank : Nat
  running : Bool
  read : Nat
  lastAt : Nat
  ueSeen : List Nat
  deriving DecidableEq, Repr

/-- What a page of a page-coded store holds beside the data written to it (R457 to R462): the difference of each of its 4,352 stored
nine-bit cells from the code's own, the parity bit in bit 8, and the data positions whose write waits for a decode. -/
structure Page where
  cells : Tbl (BitVec 9)
  waits : List Nat
  deriving DecidableEq, Repr

/-- A page as written. -/
def Page.init : Page where
  cells := []
  waits := []

/-- The patrol, with the frame its pass began and the frame of the last periodic one, the pages whose stored bits differ from the
code's, the parity hits of each datapath transfer in repetition, and the host memory scrub (R457 to R463, R466, R471). -/
structure Protection where
  patrolBusy : Bool
  patrolFrom : Nat
  patrolAt : Nat
  pages : Tbl Page
  transfers : Tbl Nat
  scrub : Option Scrub
  deriving DecidableEq, Repr

/-! ## The machine -/

/-- Everything the part holds (R15). -/
structure Dev where
  clock : Clock
  regs : RegState
  ctxs : Tbl Ctx
  hz : Horizon
  health : HealthEngine
  banks : Tbl Bank
  wisps : Tbl Wisp
  thm : Thermal
  pat : PatStore
  sd : Shutdown
  hang : HangState
  jnl : Journal
  dbg : DebugState
  aon : AlwaysOn
  ledger : Ledger
  afsin : Afsin
  alarms : Alarms
  cfg : ImageCfg
  start : StartState
  prot : Protection
  pins : Pins
  draws : Nat
  deriving DecidableEq, Repr

/-- The state: the waiting commands, first in first out, host memory, and the part. -/
structure State where
  pending : List Instr
  mem : HostMem
  dev : Dev
  deriving DecidableEq, Repr

/-- How a command stops the run. -/
inductive Fault where
  /-- Raised by a command whose operands no port can carry (a packet that is not 67 words, a block that is not aligned):
  WellFormed refuses it. Safe: the manual gives such a command no meaning. -/
  | illFormed (mnemonic : String)
  deriving DecidableEq, Repr

/-- Why a command has no meaning. -/
inductive Refusal where
  /-- Raised by the dispatcher for a command whose meaning is not written. Safe: nothing is said of it. -/
  | notModelled (mnemonic : String)
  deriving DecidableEq, Repr

/-! ## Reset -/

/-- The registers whose reset value is not 0, with the defaults their tables state (R440: a register that the image does not
load takes the default its table states). DEDUCED (log entry 14). -/
def resetRegs : List (Nat × Nat) := [
  (Reg.ZN_LVL_BUDGET, 24),
  (Reg.ZN_HZ_TIMEOUT, 0x10000), (Reg.ZN_HZ_REPLAY_WAIT, 0x4000), (Reg.ZN_HZ_REFRESH, 0x800),
  (Reg.ZN_HZ_CTL, 8 + 16 * 256),
  (Reg.ZN_UHT_SETVAL, 0x1400), (Reg.ZN_UHT_WIN, 30 + 40 * 256), (Reg.ZN_UHT_CE, 16 + 26 * 256),
  (Reg.ZN_UHT_DAWN, 0x3E8), (Reg.ZN_UHT_DAWN_AGE, 30),
  (Reg.ZN_TST_PER_CLEAR, 28 + 32 * 64), (Reg.ZN_TST_PER_HAZE, 24 + 28 * 64), (Reg.ZN_TST_PER_OVC, 22),
  (Reg.ZN_TST_PER_T2, 36 + 36 * 64), (Reg.ZN_TST_GRACE, 0x800000), (Reg.ZN_TST_CTL, 4 + 16),
  (Reg.ZN_PAT_RETRY, 24),
  (Reg.ZN_SD_CTL, 2 + 4 + 8 + 16 * 32), (Reg.ZN_SD_QUIESCE, 0x4000), (Reg.ZN_SD_LIMIT, 0x400000),
  (Reg.ZN_THM_CTL, 8 + 10 * 32), (Reg.ZN_THM_LIMITS, 105 + 95 * 256), (Reg.ZN_THM_RISE, 32 + 16 * 256),
  (Reg.ZN_THM_MARGIN, 8 + 4 * 32), (Reg.ZN_THM_STOP, 0x9897),
  (Reg.ZN_HANG_FRAMES, 0x100000), (Reg.ZN_RECOV_LIMIT, 0x800000), (Reg.ZN_SUPP_EXTRA, 0x40000),
  (Reg.ZN_HOST_RETRY, 0x40000), (Reg.ZN_ANV_RST_LIMIT, 0x1000), (Reg.ZN_BANK_RST_LIMIT, 0x4000),
  (Reg.ZN_WDOG, 0x40000), (Reg.ZN_HANG_CTL, 1 + 4 * 2 + 32 * 32),
  (Reg.ZN_JNL_CKPT, 32),
  (Reg.ZN_CTR_S_CFG, 20), (Reg.ZN_CTR_S_CFG + 0x20, 20), (Reg.ZN_CTR_S_CFG + 0x40, 20),
  (Reg.ZN_CTR_S_CFG + 0x60, 20), (Reg.ZN_CTR_S_CFG + 0x80, 20), (Reg.ZN_CTR_S_CFG + 0xA0, 20),
  (Reg.ZN_CTR_S_CFG + 0xC0, 20), (Reg.ZN_CTR_S_CFG + 0xE0, 20),
  (Reg.ZN_TRC_MIN, 0x400),
  (Reg.ZN_PROT_CTL, 16), (Reg.ZN_SCR_RATE, 8)]

/-- The default context, which exists from reset: ACTIVE at level Off (R159). -/
def ctx0 : Ctx := { Ctx.init with core.state := .active }

/-- The part right after a Zenith reset whose always-on slice, module, pins and draw count are given: everything the Zenith
domain holds is at its reset value, and step 1 of the start begins (R331, R448, R449). DESIGN CHOICE (log entries 11, 13). -/
def Dev.fresh (aon : AlwaysOn) (ledger : Ledger) (jnl : Journal) (slots : Tbl (List Byte)) (pins : Pins) (draws kind : Nat) :
    Dev where
  clock := { frame := 0, ticked := false, launch := [], now := [], seedKeys := [], seedLost := [],
             stopped := false, stopFrame := 0, capturing := [], stopCmds := [], zclkKhz := 0, zclkNow := 1600000, stopHealth := [], measureAt := 0 }
  regs := { zn := resetRegs.foldl (fun t e => Tbl.set 0 t e.1 (w32 e.2)) [], paths := [], readData := 0, rejectAt := none }
  ctxs := [(0, ctx0)]
  hz := { orphans := [], inbound := [], peak := 0, links := [], self := none, noChecker := [], unheld := [], tokens := [], out := [],
          transfers := [], log := [], captured := [], logAt := 0, sigRetry := [], sigOpen := [], ticket := 0, tagNo := 0, helloAt := 0,
          refreshAt := 0, stopQueue := [] }
  health := { uht := [], sweepNo := 0, ceWindow := 0, ceSweep := 0, graceClock := 0, request := none }
  banks := []
  wisps := []
  thm := { nodes := [], levels := [], newLevels := [], acc := [], lastEst := [], diodes := [], updateAt := 0, nextAt := 0,
           cadence := 0, modelStart := 0, started := false, pending := false, obs := [], stopReq := false, stopAt := 0,
           emerg := none, pendStop := none, pendTrip := none, hot := 0, hotMargin := 0 }
  pat := { stage := [], installed := [], version := 0, digest := 0, phase := 0, durable := false, slot := 0, slotVersion := 0, round := 0,
           setup := 0, wordsAt := 0, words := 0,
           banksLeft := [], lateQueue := [], lateRun := [], slotWrite := none, slotBytes := slots, retryAt := 0, readsLeft := [] }
  sd := Shutdown.init
  hang := { incidents := [], count := 0, tickets := 0, wdog := 0, chipReset := false, chipCause := none, ringUsed := [],
            resetRequests := [] }
  jnl := jnl
  dbg := { passes := [], hits := [], dumps := [], base := [], due := [], snaps := [], wfg := 0, graphAt := 0, wfgIncident := 0, wfgWaits := [] }
  aon := aon
  ledger := ledger
  afsin := { dynAddr := 0, eid := 0, session := none, lastSeq := none, lastAuth := 0, notices := [], nextSeq := 0,
             lostPending := 0, lostSeq := 0, ibi := false, patStage := [], impStage := [], response := [], offeredAt := 0 }
  alarms := { asserted := 0, entFail := false, debugOpen := false, challenge := none, exportRunning := none, exportSeq := 0,
              exportSnap := none, importPend := none, reseedAt := 0 }
  cfg := ImageCfg.init
  start := { mode := .starting, step := 1, kind := kind, skipped := false, lateHost := false, ready := false, active := false,
             banksReleased := false, failures := [], notRun := 0, hostWaitFrom := 0 }
  prot := { patrolBusy := false, patrolFrom := 0, patrolAt := 0, pages := [], transfers := [], scrub := none }
  pins := pins
  draws := draws

/-- The always-on slice after a cold power-on with a vault store that nothing has written (R331, R409). DESIGN CHOICE (log entry 9). -/
def AlwaysOn.cold : AlwaysOn where
  alarmLevel := 0
  raised := 0
  debugFails := 0
  thermTrip := false
  rstCause := 0
  rstCount := 0
  rstFrame := 0
  salt := 0
  saltValid := false
  floor := 0
  cacheValid := false
  cacheVersion := 0
  cacheDigest := 0
  fuses := []
  powered := false

/-- A module that has not been identified yet and that nothing has formatted (R416). -/
def Ledger.blank : Ledger where
  state := .absent
  header := none
  copyA := none
  copyB := none
  nextB := false
  density := 0
  uid := 0
  jedec := 0
  keyHeld := false
  ledgerKey := 0
  advise := false
  erasesSinceHeader := 0

/-- An empty journal at the first start (R377). -/
def Journal.blank : Journal where
  waiting := []
  staging := []
  sectors := []
  sector := 0
  sectorFill := 64
  erases := []
  nextSeq := 0
  durableSeq := none
  start := 0
  volatileRun := false
  lostEvents := 0
  lostOthers := 0
  ckptAt := 0
  ckptSeq := 0
  ckptOwed := false

/-- The pins at reset: power good, every supply in window, no host cores yet. DESIGN CHOICE (log entry 8). -/
def Pins.reset : Pins where
  resetHeld := false
  pwrOk := true
  chkPresent := true
  supplyBad := []
  odtSupplyOk := true
  fusePwrOk := false
  hostCoresUp := false
  swChecker := false

/-- The machine right after reset: a cold start has just begun, no command waits, host memory lists nothing. DESIGN CHOICE (log entry 4). -/
def State.reset : State where
  pending := []
  mem := { bytes := [], slots := [] }
  dev := Dev.fresh AlwaysOn.cold Ledger.blank Journal.blank [] Pins.reset 0 1

end Sys2Proof.Machine
end

