-- ==== Sys2Proof/Machine/Ops.lean ====
section
/-! DEFINITION. The named operations over the part: registers, Banks, Wisps and contexts; the unit index space; presenting an
event to a Bank record arbiter or to the journal; notices; raising an alarm and the Erase. -/

namespace Sys2Proof.Machine

/-! ## Registers of the Zenith window (R7, R486) -/

/-- The stored value of a Zenith register. DEDUCED (log entry 15). -/
def Dev.zreg (d : Dev) (off : Nat) : Word := Tbl.get 0 d.regs.zn off

/-- Store a Zenith register. -/
def Dev.setZ (d : Dev) (off : Nat) (w : Word) : Dev := { d with regs.zn := Tbl.set 0 d.regs.zn off w }

/-- A field of a Zenith register. -/
def Dev.zf (d : Dev) (off hi lo : Nat) : Nat := bitsOf (d.zreg off) hi lo

/-- Store a field of a Zenith register, leaving its other bits alone. -/
def Dev.setZf (d : Dev) (off hi lo v : Nat) : Dev := d.setZ off (setBits (d.zreg off) hi lo v)

/-- Add to a 32-bit counter that wraps at 2^32. -/
def Dev.addZ (d : Dev) (off n : Nat) : Dev := d.setZ off (d.zreg off + w32 n)

/-- Count one in a counter that wraps at 2^32. -/
def Dev.bumpZ (d : Dev) (off : Nat) : Dev := d.addZ off 1

/-- Add to a 32-bit counter that saturates at 0xFFFF_FFFF. -/
def Dev.satZ (d : Dev) (off n : Nat) : Dev := d.setZ off (w32 (min 0xFFFFFFFF ((d.zreg off).toNat + n)))

/-! ## Banks, Wisps and contexts -/

/-- A Bank. -/
def Dev.bank (d : Dev) (b : Nat) : Bank := Tbl.get Bank.init d.banks b

/-- Change a Bank. -/
def Dev.modBank (d : Dev) (b : Nat) (f : Bank → Bank) : Dev := { d with banks := Tbl.modify Bank.init d.banks b f }

/-- Change every one of the 192 Banks. -/
def Dev.modBanks (d : Dev) (f : Nat → Bank → Bank) : Dev := { d with banks := Tbl.updRange Bank.init f 192 0 d.banks }

/-- A Wisp. -/
def Dev.wisp (d : Dev) (b p : Nat) : Wisp := Tbl.get Wisp.init d.wisps (coreUnit b p)

/-- Change a Wisp. -/
def Dev.modWisp (d : Dev) (b p : Nat) (f : Wisp → Wisp) : Dev :=
  { d with wisps := Tbl.modify Wisp.init d.wisps (coreUnit b p) f }

/-- A context. -/
def Dev.ctx (d : Dev) (c : Nat) : Ctx := Tbl.get Ctx.init d.ctxs c

/-- Change a context. -/
def Dev.modCtx (d : Dev) (c : Nat) (f : Ctx → Ctx) : Dev := { d with ctxs := Tbl.modify Ctx.init d.ctxs c f }

/-- The stored value of a Bank register. -/
def Bank.reg (k : Bank) (off : Nat) : Word := Tbl.get 0 k.regs off

/-- Store a Bank register. -/
def Bank.setReg (k : Bank) (off : Nat) (w : Word) : Bank := { k with regs := Tbl.set 0 k.regs off w }

/-- Add to a Bank counter that wraps at 2^32. -/
def Bank.add (k : Bank) (off n : Nat) : Bank := k.setReg off (k.reg off + w32 n)

/-- The reset value of a Wisp register: GEN_EN and VER_EN of WS_CW_CTL are 1 (R92). -/
def wispReset (off : Nat) : Word := if off = Reg.WS_CW_CTL then 3 else 0

/-- The stored value of a Wisp register. -/
def Wisp.reg (w : Wisp) (off : Nat) : Word := Tbl.getK wispReset w.regs off

/-- Store a Wisp register. -/
def Wisp.setReg (w : Wisp) (off : Nat) (v : Word) : Wisp := { w with regs := Tbl.setK wispReset w.regs off v }

/-- Add to a Wisp counter that wraps at 2^32. -/
def Wisp.add (w : Wisp) (off n : Nat) : Wisp := w.setReg off (w.reg off + w32 n)

/-- Add to a Wisp counter that saturates at 0xFFFF_FFFF. -/
def Wisp.sat (w : Wisp) (off n : Nat) : Wisp := w.setReg off (w32 (min 0xFFFFFFFF ((w.reg off).toNat + n)))

/-- The Wisp acts at the tick of a frame: it received that tick, at the tick and not by a restart of its clock in mid-frame (R47, R48,
R50). -/
def Wisp.acts (w : Wisp) (frame : Nat) : Bool := w.lastRx == some frame && !w.missed && !w.rejoined

/-! ## Pairs and positions (R18, R19, R20) -/

/-- The Bank that forms an Anvil pair with Bank `b` (R20). -/
def partner (b : Nat) : Nat := if b % 2 = 0 then b + 1 else b - 1

/-- The spare-remap entry of a logical core: its position, where one is mapped; at reset core n is at position n (R18). -/
def BankCc.posOf (c : BankCc) (logical : Nat) : Option Nat :=
  if c.vacant.contains logical then none else some (Tbl.getK (fun n => n) c.map logical)

/-- The logical core that a position serves, if any (R19). -/
def BankCc.logicalOf (c : BankCc) (pos : Nat) : Option Nat :=
  if pos < 256 && c.posOf pos == some pos then some pos
  else (List.range 256).find? (fun n => c.posOf n == some pos)

/-- The Anvil channel that a position is served by (R19). -/
def BankCc.chanOf (c : BankCc) (pos : Nat) : Option Nat := (c.logicalOf pos).map (· / 16)

/-- The owning context and role of a logical core (R160); context 0, role 0 at reset. -/
def BankCc.owner (c : BankCc) (logical : Nat) : Nat × Nat := Tbl.get (0, 0) c.own logical

/-- The context that owns the core at a position; 0 where it serves no logical core. -/
def Dev.ownerAt (d : Dev) (b p : Nat) : Nat :=
  match (d.bank b).cc.logicalOf p with
  | some n => ((d.bank b).cc.owner n).1
  | none => 0

/-- Whether context `c` owns a logical core of Bank `k`. -/
def Bank.owns (k : Bank) (c : Nat) : Bool :=
  if c = 0 then (List.range 256).any (fun n => (k.cc.owner n).1 == 0)
  else k.cc.own.any (fun e => e.2.1 == c)

/-- The Banks in which context `c` owns a logical core. -/
def Dev.banksOf (d : Dev) (c : Nat) : List Nat :=
  if c = 0 then (List.range 192).filter (fun b => (d.bank b).owns 0)
  else (d.banks.filter (fun e => e.2.owns c)).map Prod.fst

/-- The logical cores context `c` owns in Bank `b`. -/
def Dev.coresOf (d : Dev) (c b : Nat) : List Nat :=
  if c = 0 then (List.range 256).filter (fun n => ((d.bank b).cc.owner n).1 == 0)
  else ((d.bank b).cc.own.filter (fun e => e.2.1 == c)).map Prod.fst

/-- The cores context `c` owns, as Bank and logical core. -/
def Dev.allCores (d : Dev) (c : Nat) : List (Nat × Nat) :=
  (d.banksOf c).flatMap (fun b => (d.coresOf c b).map (fun n => (b, n)))

/-- The previous samples of a core in the filtered streams are dropped when its ownership or mapping changes, so that its next
record joins (R391). -/
def Dev.dropBase (d : Dev) (u : Nat) : Dev :=
  { d with
    dbg.base := d.dbg.base.filter (fun (e : Nat × Option (Tbl (BitVec 48))) => decide (e.1 % 50688 ≠ u))
    dbg.snaps := d.dbg.snaps.map (fun (e : Nat × List CoreSnap) =>
      (e.1, e.2.map (fun x => if e.1 % 192 = u / 264 && x.pos = u % 264 then { x with keep := false } else x))) }

/-! ## The unit index space (R29, R30) -/

/-- The tier-1 slice under a core. -/
def sliceUnit (core : Nat) : Nat := 50688 + core
/-- A tier-2 region. -/
def regionUnit (stack region : Nat) : Nat := 101376 + stack * 1024 + region
/-- An Anvil. -/
def anvilUnit (b : Nat) : Nat := 117760 + b
/-- A Bank. -/
def bankUnit (b : Nat) : Nat := 117952 + b
/-- A switch link lane. -/
def laneUnit (i : Nat) : Nat := 118144 + i
/-- A stack interface channel. -/
def chanUnit (stack ch : Nat) : Nat := 119168 + stack * 4 + ch

/-- The kinds of unit (R29, R237). -/
inductive UnitKind where
  | core
  | slice
  | region
  | anvil
  | bank
  | lane
  | channel
  | reserved
  deriving DecidableEq, Repr

/-- What an index stands for (R29). -/
def unitKind (u : Nat) : UnitKind :=
  if u < 50688 then .core
  else if u < 101376 then .slice
  else if u < 117760 then .region
  else if u < 117952 then .anvil
  else if u < 118144 then .bank
  else if u < 119168 then .lane
  else if u < 119232 then .channel
  else .reserved

/-- The health entry of a unit; a reserved index reads as the initial entry and is never written (R29). -/
def Dev.uht (d : Dev) (u : Nat) : UhtEntry := Tbl.get UhtEntry.init d.health.uht u

/-- Change the health entry of a unit. -/
def Dev.modUht (d : Dev) (u : Nat) (f : UhtEntry → UhtEntry) : Dev :=
  if unitKind u = .reserved then d
  else { d with health.uht := Tbl.modify UhtEntry.init d.health.uht u f }

/-- The health state of a unit. -/
def Dev.healthOf (d : Dev) (u : Nat) : Health := (d.uht u).state

/-- The code of a health state (R227). -/
def Health.code : Health → Nat
  | .dawn => 0
  | .clear => 1
  | .haze => 2
  | .overcast => 3
  | .eclipse => 4

/-- The health state of a code. -/
def Health.ofCode : Nat → Option Health
  | 0 => some .dawn
  | 1 => some .clear
  | 2 => some .haze
  | 3 => some .overcast
  | 4 => some .eclipse
  | _ => none

/-! ## Modes that the rest asks about -/

/-- Odtil runs from an image in use (R446, R453). -/
def Dev.imageInUse (d : Dev) : Bool := d.zf Reg.ZN_CFG_STAT 3 0 == 1

/-- The alarm level is Lock or higher (R426). -/
def Dev.locked (d : Dev) : Bool := decide (2 ≤ d.aon.alarmLevel)

/-- Zenith is held: Odtil is absent, held in reset or without power (R504). -/
def Dev.off (d : Dev) : Bool := !d.pins.chkPresent || d.pins.resetHeld || !d.pins.pwrOk

/-- The isolation clamp drives every host-facing output: Odtil is absent, held in reset, without power, not started yet, or
unconfigured (R452, R453, R504). -/
def Dev.clamped (d : Dev) : Bool :=
  d.off || !d.start.ready || d.start.mode == .unconfigured

/-- A Bank takes no part: isolated, in reset, or not yet released (R331, R352, R449). -/
def Dev.bankDown (d : Dev) (b : Nat) : Bool :=
  (d.bank b).isolated || (d.bank b).resetAt.isSome || !d.start.banksReleased

/-! ## The journal arbiter (R55, R376) -/

/-- An item comes to the Zenith journal arbiter. -/
def Dev.arbPush (d : Dev) (i : ArbItem) : Dev := { d with jnl.waiting := d.jnl.waiting ++ [i] }

/-- Hand an entry to the Zenith journal arbiter. -/
def Dev.jPush (d : Dev) (b : JBody) : Dev := d.arbPush (.entry b)

/-- The Bank that forwarded an item; none for one of Zenith's own sources. -/
def ArbItem.source : ArbItem → Option Nat
  | .entry (.event b _) => if b = 0xFF then none else some b
  | .entry _ => none
  | .verdict b _ => some b
  | .cw b _ _ => some b

/-- The first item of a kind that no item of its own source stands before, and the others: items of one Bank are accepted in the order
the Bank forwarded them, and no rule fixes the order of items of different sources (R55). `seen` are the sources passed over. -/
def takeItem (ok : ArbItem → Bool) : List (Option Nat) → List ArbItem → Option (ArbItem × List ArbItem)
  | _, [] => none
  | seen, i :: l =>
    if ok i && !seen.contains i.source then some (i, l)
    else (takeItem ok (i.source :: seen) l).map (fun r => (r.1, i :: r.2))

/-- A journal entry. -/
def ArbItem.isEntry : ArbItem → Bool
  | .entry _ => true
  | _ => false

/-- A verdict. -/
def ArbItem.isVerdict : ArbItem → Bool
  | .verdict _ _ => true
  | _ => false

/-- A check word failure or a deferral. -/
def ArbItem.isCw : ArbItem → Bool
  | .cw _ _ _ => true
  | _ => false

/-- An event Zenith raises: source by R366 and R517, stamped when it is appended; FLAGS.JOURNAL set. -/
def Dev.zEvent (d : Dev) (source code ctx : Nat) (p0 p1 p2 p3 : Word) : Dev :=
  d.jPush (.event 0xFF { ts := 0, code := code, flags := 2, source := source, ctx := ctx, rpt := 1,
                         p0 := p0, p1 := p1, p2 := p2, p3 := p3 })

/-- An event that reports a success after its upper timeout has expired: recorded as LATE with the original code, or verdict word,
and its first parameters (R348). -/
def Dev.recordLate (d : Dev) (source ctx : Nat) (code p0 p1 p2 : Word) : Dev :=
  (d.zEvent source 0x07 ctx code p0 p1 p2).bumpZ Reg.ZN_HANG_CNT_LATE

/-! ## The Bank record arbiter (R46, R59) -/

/-- Present an event to the record arbiter of Bank `b`. In a global stop it is discarded and counted (R59); a Bank that takes
no part has no arbiter. -/
def Dev.present (d : Dev) (b source : Nat) (frame : Option Nat) (ev : Event) (fwd : Forward) : Dev :=
  if d.clock.stopped then d.satZ Reg.ZN_STOP_LOST 1
  else if d.bankDown b then d
  else d.modBank b (fun k =>
    { k with ring.presented := k.ring.presented ++ [{ source := source, frame := frame, ev := ev, fwd := fwd }] })

/-- An event without a CW_DETAIL and with NOSENT 0. -/
def mkEvent (code ctx : Nat) (p0 p1 p2 p3 : Word) : Event where
  code := code
  ctx := ctx
  nosent := false
  p0 := p0
  p1 := p1
  p2 := p2
  p3 := p3
  detail := none

/-- An event of a Bank's own source. -/
def Dev.bankEvent (d : Dev) (b source code ctx : Nat) (p0 p1 p2 p3 : Word) (fwd : Forward) : Dev :=
  d.present b source none (mkEvent code ctx p0 p1 p2 p3) fwd

/-- An event of a Wisp: it carries the frame of the last tick that Wisp received (R45). -/
def Dev.wispEvent (d : Dev) (b p code ctx : Nat) (p0 p1 p2 p3 : Word) (fwd : Forward) : Dev :=
  d.present b p (some ((d.wisp b p).lastRx.getD d.clock.frame)) (mkEvent code ctx p0 p1 p2 p3) fwd

/-! ## Afsin notices (R432) -/

/-- The number after `n` of the 32-bit SEQ. -/
def nextSeq32 (n : Nat) : Nat := (n + 1) % 2 ^ 32

/-- A drop: counted, with one NOTICE_LOST kept pending in its reserved entry, which takes a SEQ when it becomes pending (R432). DEDUCED (log entry 105). -/
def Dev.loseNotice (d : Dev) : Dev :=
  let first := decide (d.afsin.lostPending = 0)
  ({ d with
    afsin.lostPending := min 0xFFFFFFFF (d.afsin.lostPending + 1)
    afsin.lostSeq := if first then d.afsin.nextSeq else d.afsin.lostSeq
    afsin.nextSeq := if first then nextSeq32 d.afsin.nextSeq else d.afsin.nextSeq
    afsin.ibi := true }).bumpZ Reg.ZN_AFS_CNT_LOST

/-- The queue takes a notice, under the next SEQ. -/
def Dev.queueNotice (d : Dev) (code : Nat) (alert : Bool) (body : List Word) : Dev :=
  let n : Notice := { seq := d.afsin.nextSeq, code := code, alert := alert, body := body }
  ({ d with
    afsin.notices := d.afsin.notices ++ [n]
    afsin.nextSeq := nextSeq32 d.afsin.nextSeq
    afsin.ibi := true }).bumpZ Reg.ZN_AFS_CNT_SENT

/-- Queue a notice. A full queue of 128 drops its oldest notice without ALERT, or the new one (R432). -/
def Dev.notice (d : Dev) (code : Nat) (alert : Bool) (body : List Word) : Dev :=
  if d.afsin.notices.length < 128 then d.queueNotice code alert body
  else match d.afsin.notices.findIdx? (fun m => !m.alert) with
    | some i => ({ d.loseNotice with afsin.notices := d.afsin.notices.eraseIdx i }).queueNotice code alert body
    | none => d.loseNotice

/-- ALERT_N is asserted (R432, R453); it is released while the isolation cells are engaged (R504). -/
def Dev.alertN (d : Dev) : Bool :=
  !d.off && (d.afsin.notices.any (fun n => n.alert) || decide (d.afsin.lostPending ≠ 0) || d.start.mode == .unconfigured)

/-! ## Records as bytes (R365) -/

/-- The eight words of a Bank record. -/
def Rec.words (r : Rec) : List Word :=
  [lo32 r.ts, hi32 r.ts,
   w32 (r.code % 256 + 256 * (r.flags % 256) + 65536 * (r.source % 65536)),
   w32 (r.ctx % 1024 + 65536 * (r.rpt % 65536)),
   r.p0, r.p1, r.p2, r.p3]

/-- The record of an event as a notice carries it. -/
def Dev.noteRec (d : Dev) (source code ctx : Nat) (p0 p1 p2 p3 : Word) : Rec where
  ts := mkStamp d.clock.frame 0
  code := code
  flags := 2
  source := source
  ctx := ctx
  rpt := 1
  p0 := p0
  p1 := p1
  p2 := p2
  p3 := p3

/-- An EVENT notice: the record and its Bank (R430). -/
def Dev.eventNotice (d : Dev) (alert : Bool) (bank source code ctx : Nat) (p0 p1 p2 p3 : Word) : Dev :=
  d.notice 0x08 alert ((d.noteRec source code ctx p0 p1 p2 p3).words ++ [w32 bank])

/-- A notice whose body is the record it is about, with ALERT (R430). -/
def Dev.recNotice (d : Dev) (notice source code ctx : Nat) (p0 p1 p2 p3 : Word) : Dev :=
  d.notice notice true (d.noteRec source code ctx p0 p1 p2 p3).words

/-- How many times the sweep has visited a unit, after `n` frames of sweeping: frame k visits group k modulo 256 of 512 entries
(R228). DEDUCED (log entry 75). -/
def visitsAt (n u : Nat) : Nat := (n + 255 - u / 512) / 256

/-- An age in units of 256 F, from the visit at which it was 0. -/
def ageOf (vis : Nat) (base : Int) : Nat := (Int.ofNat vis - base).toNat

/-- CE as it stands: a restart of the CE window clears it at the unit's next visit (R233). DEDUCED (log entry 74). -/
def UhtEntry.ceNow (e : UhtEntry) (vis visRestart : Nat) : Nat :=
  if visRestart < vis ∧ e.ceVis ≤ visRestart then 0 else e.ce

/-- The 16 bytes of a health entry, as four words (R227), `vis` the unit's visits so far and `visRestart` those at the last CE
window restart. Fields of cores only read 0 for another kind. -/
def UhtEntry.words (e : UhtEntry) (core : Bool) (vis visRestart : Nat) : List Word :=
  let age (base : Int) (unit cap : Nat) : Nat := min cap (ageOf vis base / unit)
  let k (n : Nat) : Nat := if core then n else 0
  [w32 (e.state.code + k (8 * bit e.due + 16 * (e.dueTier % 4) + 64 * bit e.voided) + 256 * (e.reason % 256)
      + k (65536 * (e.cleanSamples % 65536))),
   w32 (age e.cleanBase 1 0xFFFFFFFF),
   w32 (k (age e.t0Base 64 0xFFFF + 65536 * age e.t1Base 1024 0xFFFF)),
   w32 (k (age e.t2Base 16384 0xFFFF) + 65536 * (e.charges % 16) + 1048576 * (e.fails % 16)
      + 16777216 * (e.ceNow vis visRestart % 128))]

/-- The words of a unit's entry from a table, at a sweep count and the sweep count of the last CE restart; a reserved index reads
0 (R29). -/
def tableWords (t : Tbl UhtEntry) (sweep ceSweep u : Nat) : List Word :=
  match unitKind u with
  | .reserved => [0, 0, 0, 0]
  | k => (Tbl.get UhtEntry.init t u).words (k == .core) (visitsAt sweep u) (visitsAt ceSweep u)

/-- The entry that 16 saved bytes give, with ages as saved (R229); what only the engine keeps is at its initial value. -/
def UhtEntry.ofWords (ws : List Word) (vis : Nat) : UhtEntry :=
  let w (i : Nat) : Word := ws.getD i 0
  let base (n : Nat) : Int := Int.ofNat vis - Int.ofNat n
  { UhtEntry.init with
    state := (Health.ofCode (bitsOf (w 0) 2 0)).getD .dawn
    due := bitOf (w 0) 3
    dueTier := bitsOf (w 0) 5 4
    voided := bitOf (w 0) 6
    reason := bitsOf (w 0) 15 8
    cleanSamples := bitsOf (w 0) 31 16
    cleanBase := base (w 1).toNat
    t0Base := base (64 * bitsOf (w 2) 15 0)
    t1Base := base (1024 * bitsOf (w 2) 31 16)
    t2Base := base (16384 * bitsOf (w 3) 15 0)
    charges := bitsOf (w 3) 19 16
    fails := bitsOf (w 3) 23 20
    ce := bitsOf (w 3) 30 24
    ceVis := vis }

/-- The visits of a unit so far. -/
def Dev.visits (d : Dev) (u : Nat) : Nat := visitsAt d.health.sweepNo u

/-- The four words of a unit's entry. -/
def Dev.uhtWords (d : Dev) (u : Nat) : List Word := tableWords d.health.uht d.health.sweepNo d.health.ceSweep u

/-! ## Alarms (R424 to R426) -/

/-- The default level of an alarm source (R424). -/
def alarmDefault : Nat → Nat
  | 0 => 2
  | 1 => 2
  | 2 => 2
  | 3 => 3
  | 4 => 2
  | _ => 1

/-- The level a source raises: ALARM_MAP's, or the default where it is 0 or no image is in use (R424). -/
def Dev.alarmLevelOf (d : Dev) (src : Nat) : Nat :=
  let m := if d.imageInUse then (d.cfg.alarmMap / 4 ^ src) % 4 else 0
  if m = 0 then alarmDefault src else m

/-! ## The end of a shutdown (R286, R303) -/

/-- A shutdown is in progress (R283). -/
def Dev.sdActive (d : Dev) : Bool := d.sd.quiescePend || (decide (0 < d.sd.phase) && decide (d.sd.phase < 7))

/-- The notice of an end phase, as a record of the shutdown sequencer that carries the phase (R286, R430). -/
def Dev.sdNotice (d : Dev) (alert : Bool) (phase : Nat) : Dev := d.eventNotice alert 0xFF 8 0 0 (w32 phase) 0 0 0

/-- A shutdown in progress ends ABORTED with a reason: 1 LIMIT, 2 ALARM, 3 WATCHDOG, 4 LEDGER, 5 THERMAL (R303, R304). -/
def Dev.sdAbort (d : Dev) (reason : Nat) : Dev :=
  if d.sdActive then
    (({ d with sd.phase := 8, sd.quiescePend := false, sd.groupDue := [] }).setZf Reg.ZN_SD_STAT 18 16 reason).sdNotice true 8
  else d

/-- The Erase (R426): keys and session gone, the verification cache zeroised and the salt invalid, staging cleared, the
journal volatile, exports and imports ended with LOCKED. DEDUCED (log entry 103). -/
def Dev.erase (d : Dev) : Dev :=
  let d1 := if d.alarms.exportRunning.isSome then d.setZf Reg.ZN_EXP_STAT 2 0 5 else d
  let d2 := (if d.alarms.importPend.isSome then d1.setZf Reg.ZN_EXP_STAT 5 3 3 else d1).sdAbort 2
  { d2 with
    ledger.keyHeld := false
    ledger.ledgerKey := 0
    afsin.session := none
    afsin.impStage := []
    aon.cacheValid := false
    aon.cacheVersion := 0
    aon.cacheDigest := 0
    aon.saltValid := false
    jnl.staging := []
    jnl.volatileRun := true
    alarms.exportRunning := none
    alarms.exportSnap := none
    alarms.importPend := none }

/-- Present the ring copy of a Zenith event whose code table store is R and J to every Bank that takes part; in a stop the rings are
frozen and take none (R57, R434). DEDUCED (log entry 167). -/
def Dev.ringCopy (d : Dev) (code : Nat) (p0 p1 : Word) : Dev :=
  if d.start.banksReleased && !d.clock.stopped then
    d.modBanks (fun _ k =>
      if k.isolated || k.resetAt.isSome then k
      else { k with ring.presented := k.ring.presented ++
        [{ source := 0x1FF, frame := none, ev := mkEvent code 0 p0 p1 0 0, fwd := .nothing }] })
  else d

/-- A source raises (R425): the level rises to at least the source's; ALARM is journaled where an entry can still be sealed,
recorded, and sent as a notice with ALERT; a raise to Erase erases (R426). -/
def Dev.raiseAlarm (d : Dev) (src : Nat) : Dev :=
  let own := d.alarmLevelOf src
  let level := max d.aon.alarmLevel own
  let mask := w32 (2 ^ src)
  let ts := mkStamp d.clock.frame 0
  let d1 := { d with aon.alarmLevel := level, aon.raised := d.aon.raised ||| BitVec.ofNat 6 (2 ^ src), sd.alarmed := d.sd.alarmed || d.sdActive }
  let d2 := d1.bumpZ Reg.ZN_ALM_CNT_RAISE
  let d3 := if own = 3 || !d.ledger.keyHeld then d2 else d2.jPush (.alarm level (2 ^ src) ts)
  let d4 := (d3.zEvent 6 0x78 0 (w32 level) mask 0 0).ringCopy 0x78 (w32 level) mask
  let d5 := d4.notice 0x06 true [w32 (level + 256 * 2 ^ src), 0, lo32 ts, hi32 ts]
  if own = 3 then d5.erase else d5

/-- The state with its part changed; host memory and the waiting commands stay. -/
def State.onDev (s : State) (f : Dev → Dev) : State := { s with dev := f s.dev }

/-! ## Draws from the DRBG (R411) -/

/-- The number of the next draw, and the state after it. -/
def Dev.draw (d : Dev) : Nat × Dev := (d.draws, { d with draws := d.draws + 1 })

end Sys2Proof.Machine
end

