-- ==== Sys2Proof/Machine/Anvil.lean ====
section
/-! DEFINITION. What an Anvil computes (R100 to R117, R120 to R140): the declaration, where a descriptor's operands lie, the
decisions made during fetch, the work of a slot on the accumulators, and the verdict. -/

namespace Sys2Proof.Machine

/-! ## Verdict words (R115, R117) -/

/-- MATCH. -/
def vMATCH : Nat := 0
/-- WITHIN. -/
def vWITHIN : Nat := 1
/-- BEYOND. -/
def vBEYOND : Nat := 2
/-- NONFINITE. -/
def vNONFINITE : Nat := 3
/-- VOID. -/
def vVOID : Nat := 4
/-- NULL. -/
def vNULL : Nat := 5
/-- VOID reason BADDESC. -/
def voidBADDESC : Nat := 1
/-- VOID reason OPERAND. -/
def voidOPERAND : Nat := 2
/-- VOID reason NOBOUND. -/
def voidNOBOUND : Nat := 3
/-- VOID reason RANGE. -/
def voidRANGE : Nat := 4
/-- VOID reason INVALID. -/
def voidINVALID : Nat := 5

/-- The margin +∞. -/
def marginInf : Word := 0x7F800000

/-- The verdict word (R115). -/
def verdictWord (v reason : Nat) (mode miss clamp intPath : Bool) (margin : Word) : DWord :=
  BitVec.ofNat 64 (v + 16 * reason + 256 * bit mode + 512 * bit miss + 1024 * bit clamp + 2048 * bit intPath +
    2 ^ 32 * margin.toNat)

/-- A verdict with nothing but its code and reason. -/
def plainVerdict (v reason : Nat) : DWord := verdictWord v reason false false false false 0

/-- The verdict code of a word. -/
def verdictOf (w : DWord) : Nat := w.toNat % 16
/-- The reason of a word. -/
def reasonOf (w : DWord) : Nat := w.toNat / 16 % 16
/-- The MISS bit of a word. -/
def missOf (w : DWord) : Bool := w.getLsbD 9
/-- The margin of a word. -/
def marginOf (w : DWord) : Word := hi32 w

/-! ## Operations and declarations (R121, R122, R125) -/

/-- DOT. -/
def opDOT : Nat := 1
/-- ROWSUM. -/
def opROWSUM : Nat := 2
/-- CONSERVE. -/
def opCONSERVE : Nat := 3
/-- SETHASH. -/
def opSETHASH : Nat := 4
/-- ELEMWISE. -/
def opELEMWISE : Nat := 5
/-- SIGCMP. -/
def opSIGCMP : Nat := 6

/-- The softmax normaliser's function code (R113). -/
def fnSOFTMAX : Nat := 9

/-- A declaration as its 128 bytes give it (R121). -/
structure Decl where
  cls : Nat
  func : Nat
  fmtA : Nat
  fmtB : Nat
  fmtOut : Nat
  fmtInit : Nat
  am : Nat
  acc : Nat
  flags : Nat
  chunk : Nat
  tH : Nat
  width : Nat
  side : Nat
  bases : List Nat
  dims : List Nat
  lds : List Nat
  handles : List Nat
  reserved : Bool
  deriving DecidableEq, Repr

/-- Numbers of `n` bytes each, from a list of bytes. -/
def fieldsOf (n : Nat) : Nat → List Byte → List Nat
  | 0, _ => []
  | k + 1, l => leNat (l.take n) :: fieldsOf n k (l.drop n)

/-- Read a declaration (R121); `reserved` says that a reserved bit is set. -/
def Decl.parse (l : List Byte) : Decl :=
  let b (i : Nat) : Nat := (l.getD i 0).toNat
  let bases := fieldsOf 8 6 (l.drop 16)
  let flags := leNat ((l.drop 4).take 2)
  { cls := b 0 % 16
    func := b 0 / 16
    fmtA := b 1 % 16
    fmtB := b 1 / 16
    fmtOut := b 2 % 16
    fmtInit := b 2 / 16
    am := b 3 % 4
    acc := b 3 / 4 % 4
    flags := flags
    chunk := leNat ((l.drop 6).take 2)
    tH := b 8
    width := b 9 % 16
    side := b 9 / 16
    bases := bases.map (fun x => x % 2 ^ 48)
    dims := fieldsOf 4 3 (l.drop 64)
    lds := fieldsOf 4 6 (l.drop 76)
    handles := fieldsOf 4 6 (l.drop 104)
    reserved := decide (b 3 / 16 ≠ 0) || decide (flags / 4096 ≠ 0) || decide (leNat ((l.drop 12).take 4) ≠ 0) ||
      bases.any (fun x => decide (x / 2 ^ 48 ≠ 0)) || decide (leNat ((l.drop 100).take 4) ≠ 0) }

/-- A flag of a declaration. -/
def Decl.flag (c : Decl) (k : Nat) : Bool := decide (c.flags / 2 ^ k % 2 = 1)
/-- DAZ. -/
def Decl.daz (c : Decl) : Bool := c.flag 0
/-- FTZ. -/
def Decl.ftz (c : Decl) : Bool := c.flag 1
/-- FUSED. -/
def Decl.fused (c : Decl) : Bool := c.flag 2
/-- SAT. -/
def Decl.sat (c : Decl) : Bool := c.flag 3
/-- WRAP. -/
def Decl.wrap (c : Decl) : Bool := c.flag 4
/-- SCALE_A. -/
def Decl.scaleA (c : Decl) : Bool := c.flag 5
/-- SCALE_B. -/
def Decl.scaleB (c : Decl) : Bool := c.flag 6
/-- INIT. -/
def Decl.hasInit (c : Decl) : Bool := c.flag 7
/-- TWOVEC. -/
def Decl.twoVec (c : Decl) : Bool := c.flag 8
/-- MIX. -/
def Decl.mix (c : Decl) : Nat := c.flags / 512 % 4
/-- MULT. -/
def Decl.mult (c : Decl) : Bool := c.flag 11
/-- A base address. -/
def Decl.base (c : Decl) (k : Nat) : Nat := c.bases.getD k 0
/-- A dimension. -/
def Decl.dim (c : Decl) (k : Nat) : Nat := c.dims.getD k 0
/-- A stride. -/
def Decl.ld (c : Decl) (k : Nat) : Nat := c.lds.getD k 0
/-- A tensor handle. -/
def Decl.handle (c : Decl) (k : Nat) : Nat := c.handles.getD k 0
/-- An operand is block-scaled. -/
def Decl.isScaled (c : Decl) : Bool := c.scaleA || c.scaleB
/-- The integer path (R103). -/
def Decl.intPath (c : Decl) : Bool := decide (c.fmtOut = 0xB)

/-- The class an operation requires (R116 step 0). -/
def classOf (op : Nat) : Nat := if op ≤ 2 then 1 else op - 1

/-! ## Where the operands lie (R93, R122, R123) -/

/-- A run of elements of one operand: the BASE field's number, the bits of an element, the element offset of the first, the
stride, and how many. -/
structure Vec where
  n : Nat
  bits : Nat
  off : Nat
  stride : Nat
  len : Nat
  deriving DecidableEq, Repr

/-- The byte offset of an element's first bit, and of its last. -/
def Vec.bytes (v : Vec) (k : Nat) : Nat × Nat :=
  let e := v.off + k * v.stride
  (e * v.bits / 8, ((e + 1) * v.bits - 1) / 8)

/-- The scale bytes of a scaled vector of K elements (R123). -/
def scaleVec (n off stride len : Nat) : Vec :=
  if stride = 1 then { n := n, bits := 8, off := off / 32, stride := 1, len := ceilDiv len 32 }
  else { n := n, bits := 8, off := off, stride := stride, len := ceilDiv len 32 }

/-- The declaration of a descriptor. -/
def Desc.dcl (x : Desc) : Decl := Decl.parse x.decl

/-- A byte that the reader has kept for operand `n`. -/
def Desc.byteAt (x : Desc) (n addr : Nat) : Byte :=
  (Tbl.get [] x.blocks (n * 2 ^ 48 + addr / 4096 * 4096)).getD (addr % 4096) 0

/-- Element `k` of a run, undecoded (R93). -/
def Desc.raw (x : Desc) (c : Decl) (v : Vec) (k : Nat) : Nat :=
  let (lo, hi) := v.bytes k
  let bytes := (List.range (hi + 1 - lo)).map (fun i => x.byteAt v.n ((c.base v.n + lo + i) % 2 ^ 48))
  leNat bytes / 2 ^ ((v.off + k * v.stride) * v.bits % 8) % 2 ^ v.bits

/-- The rows of a DOT or ROWSUM. -/
def Desc.rows (x : Desc) : List Nat :=
  if x.cand.op = opROWSUM then (List.range x.cand.count.toNat).map (fun i => (x.cand.row.toNat + i) % 2 ^ 32)
  else [x.cand.row.toNat]

/-- The set or range table entry (R134, R136). -/
def Desc.tableVec (x : Desc) : Vec where
  n := 5
  bits := 32
  off := x.cand.row.toNat * (if x.cand.op = opSETHASH then 8 else 4)
  stride := 1
  len := if x.cand.op = opSETHASH then 8 else 4

/-- The words of that entry. -/
def Desc.table (x : Desc) : List Nat := (List.range x.tableVec.len).map (x.raw x.dcl x.tableVec)

/-- Row `i` of A. -/
def vecA (c : Decl) (i : Nat) : Vec := { n := 0, bits := elemBits c.fmtA, off := i * c.ld 0, stride := c.ld 1, len := c.dim 2 }
/-- Column `j` of B. -/
def vecB (c : Decl) (j : Nat) : Vec := { n := 1, bits := elemBits c.fmtB, off := j * c.ld 3, stride := c.ld 2, len := c.dim 2 }
/-- The host result C[i, j]. -/
def vecC (c : Decl) (i j : Nat) : Vec :=
  { n := 2, bits := elemBits c.fmtOut, off := i * c.ld 4 + j * c.ld 5, stride := 1, len := 1 }
/-- The initial addend I[j]. -/
def vecI (c : Decl) (j : Nat) : Vec := { n := 5, bits := elemBits c.fmtInit, off := j, stride := 1, len := 1 }
/-- The scales of row `i` of A. -/
def scaleOfA (c : Decl) (i : Nat) : Vec := scaleVec 3 (i * c.ld 0) (c.ld 1) (c.dim 2)
/-- The scales of column `j` of B. -/
def scaleOfB (c : Decl) (j : Nat) : Vec := scaleVec 4 (j * c.ld 3) (c.ld 2) (c.dim 2)

/-- The inputs of an element check. -/
def Desc.vecX (x : Desc) (c : Decl) : Vec :=
  if c.func = fnSOFTMAX then
    { n := 0, bits := elemBits c.fmtA, off := x.cand.row.toNat * c.ld 0, stride := 1, len := c.dim 1 }
  else { n := 0, bits := elemBits c.fmtA, off := x.cand.row.toNat, stride := 1, len := x.cand.count.toNat }

/-- The outputs of an element check. -/
def Desc.vecY (x : Desc) (c : Decl) : Vec :=
  { n := 2, bits := elemBits c.fmtOut, off := x.cand.row.toNat, stride := 1,
    len := if c.func = fnSOFTMAX then 1 else x.cand.count.toNat }

/-- Range `r` of a multiset (R136). -/
def Desc.range_ (x : Desc) (c : Decl) (r : Nat) : Vec :=
  { n := r, bits := 8 * c.width, off := x.table.getD (2 * r) 0, stride := 1, len := x.table.getD (2 * r + 1) 0 }

/-- The blocks that hold element `k` of a run, by operand number and host address. -/
def Vec.blocksOf (c : Decl) (v : Vec) (k : Nat) : List Nat :=
  let (lo, hi) := v.bytes k
  let at_ (b : Nat) : Nat := v.n * 2 ^ 48 + (c.base v.n + b) % 2 ^ 48 / 4096 * 4096
  [at_ lo, at_ hi]

/-- The blocks that hold a run. -/
def Vec.blocks (c : Decl) (v : Vec) : List Nat := ((List.range v.len).flatMap (v.blocksOf c)).eraseDups

/-- The operation reads a table entry first. -/
def hasTable (op : Nat) : Bool := decide (op = opCONSERVE) || decide (op = opSETHASH)

/-- The reader has kept a block. -/
def Desc.kept (x : Desc) (k : Nat) : Bool := (Tbl.find x.blocks k).isSome

/-- The blocks of the table entry are read. -/
def Desc.tableRead (x : Desc) : Bool := !hasTable x.cand.op || (x.tableVec.blocks x.dcl).all x.kept

/-! ## Operands for the next work unit (R140, R145) -/

/-- Products of a descriptor of class 0x1. -/
def Desc.products (x : Desc) : Nat := x.dcl.dim 2 * (if x.cand.op = opROWSUM then x.cand.count.toNat else 1)

/-- The work of a descriptor: items of its first run, items per zc, and items of its second run, 16 per zc (R140). -/
def Desc.work (x : Desc) : Nat × Nat × Nat :=
  let c := x.dcl
  let t := x.table
  if x.cand.op = opDOT then (x.products, min (elemRate c.fmtA) (elemRate c.fmtB), 0)
  else if x.cand.op = opROWSUM then (x.products, min (elemRate c.fmtA) (elemRate c.fmtB), x.cand.count.toNat)
  else if x.cand.op = opCONSERVE then
    (t.getD 1 0, if c.mult then min (elemRate c.fmtA) (elemRate c.fmtB) else elemRate c.fmtA, t.getD 3 0)
  else if x.cand.op = opSETHASH then (sumNat ((List.range 4).map (fun r => (x.range_ c r).len)), 16, 0)
  else if x.cand.op = opELEMWISE then ((x.vecX c).len, 4, 0)
  else (0, 1, 0)

/-- The blocks of element `k` of a multiset, by its index over the ranges from `r` on. -/
def Desc.setBlocks (x : Desc) (c : Decl) (k : Nat) : Nat → Nat → List Nat
  | 0, _ => []
  | n + 1, r => if k < (x.range_ c r).len then (x.range_ c r).blocksOf c k else x.setBlocks c (k - (x.range_ c r).len) n (r + 1)

/-- The blocks that item `k` of a descriptor needs; past its `n` items, those that its finish needs. -/
def Desc.needs (x : Desc) (c : Decl) (n1 n k : Nat) : List Nat :=
  let j := x.cand.col.toNat
  let t := x.table
  if x.cand.op = opDOT || x.cand.op = opROWSUM then
    if k < n1 then
      let len := max 1 (c.dim 2)
      let i := (x.cand.row.toNat + k / len) % 2 ^ 32
      let e := k % len
      (vecA c i).blocksOf c e ++ (vecB c j).blocksOf c e ++
        (if c.scaleA then (scaleOfA c i).blocksOf c (e / 32) else []) ++ (if c.scaleB then (scaleOfB c j).blocksOf c (e / 32) else []) ++
        (if c.hasInit && decide (e = 0) then (vecI c j).blocksOf c 0 else [])
    else if k < n then (vecC c ((x.cand.row.toNat + (k - n1)) % 2 ^ 32) j).blocksOf c 0
    else if x.cand.op = opDOT then (vecC c x.cand.row.toNat j).blocksOf c 0
    else []
  else if n ≤ k then (if x.cand.op = opELEMWISE && c.func = fnSOFTMAX then (x.vecY c).blocksOf c 0 else [])
  else if x.cand.op = opCONSERVE then
    if k < n1 then
      ({ n := 0, bits := elemBits c.fmtA, off := t.getD 0 0, stride := 1, len := n1 } : Vec).blocksOf c k ++
        (if c.mult then ({ n := 1, bits := elemBits c.fmtB, off := t.getD 0 0, stride := 1, len := n1 } : Vec).blocksOf c k else [])
    else ({ n := 2, bits := elemBits c.fmtOut, off := t.getD 2 0, stride := 1, len := n - n1 } : Vec).blocksOf c (k - n1)
  else if x.cand.op = opSETHASH then x.setBlocks c k 4 0
  else if x.cand.op = opELEMWISE then (x.vecX c).blocksOf c k ++ (if c.func = fnSOFTMAX then [] else (x.vecY c).blocksOf c k)
  else []

/-- The first block missing among the items from `k` on, `fuel` of them. -/
def Desc.missing (x : Desc) (c : Decl) (n1 n : Nat) : Nat → Nat → Option Nat
  | 0, _ => none
  | fuel + 1, k =>
    match (x.needs c n1 n k).find? (fun b => !x.kept b) with
    | some b => some b
    | none => x.missing c n1 n fuel (k + 1)

/-- The block the reader takes next, if one is still missing: of the table entry first, then for the items in the order of the work. -/
def Desc.nextBlock (x : Desc) : Option Nat :=
  let c := x.dcl
  if !x.tableRead then (x.tableVec.blocks c).find? (fun b => !x.kept b)
  else if x.cand.op = opSIGCMP then none
  else
    let (n1, _, n2) := x.work
    x.missing c n1 (n1 + n2) (n1 + n2 + 1 - x.next) x.next

/-- How many items from `k` on, `fuel` at most, have their elements in the buffer. -/
def Desc.inBuffer (x : Desc) (c : Decl) (n1 n : Nat) : Nat → Nat → Nat
  | 0, _ => 0
  | fuel + 1, k => if (x.needs c n1 n k).all x.kept then x.inBuffer c n1 n fuel (k + 1) + 1 else 0

/-- The elements for the next work unit are in the buffer: a zc of items, or the finish (R145). -/
def Desc.unitReady (x : Desc) : Bool :=
  if x.cand.op = opSIGCMP then true
  else
    let c := x.dcl
    let (n1, rate, n2) := x.work
    let n := n1 + n2
    let want := if x.next < n1 then min rate (n1 - x.next) else if x.next < n then min 16 (n - x.next) else 1
    decide (x.inBuffer c n1 n want x.next = want)

/-! ## Decisions during fetch (R116 steps 0 to 2, R123, R134, R136, R138, R155) -/

/-- Step 0: a reserved CLASS or FUNC, or a class the operation does not have. -/
def Desc.step0 (x : Desc) : Bool :=
  let c := x.dcl
  decide (x.cand.op = 0) || decide (opSIGCMP ≤ x.cand.op) || decide (c.cls ≠ classOf x.cand.op) ||
    (decide (c.cls = 4) && (decide (c.func = 0) || decide (0xA ≤ c.func)))

/-- Step 1: the counts are zero (R155). -/
def Desc.isNull (x : Desc) : Bool :=
  let c := x.dcl
  let t := x.table
  if x.cand.op = opDOT then decide (c.dim 2 = 0)
  else if x.cand.op = opROWSUM then decide (c.dim 2 = 0) || decide (x.cand.count = 0)
  else if x.cand.op = opCONSERVE then decide (t.getD 1 0 = 0) && decide (t.getD 3 0 = 0)
  else if x.cand.op = opSETHASH then decide (t.getD 1 0 + t.getD 3 0 + t.getD 5 0 + t.getD 7 0 = 0)
  else decide (x.cand.count = 0) || (decide (c.func = fnSOFTMAX) && decide (c.dim 1 = 0))

/-- Step 2: the descriptor is invalid (R96, R102, R103, R106, R121, R131, R138). ACC 3 is refused in every class; a CONSERVE with MULT, FMT_OUT
INT32 and a floating FMT_B is left to R134's INVALID. DEDUCED (log entry 57). -/
def Desc.isBad (x : Desc) : Bool :=
  let c := x.dcl
  let outOk := decide (6 ≤ c.fmtOut) && isFmt c.fmtOut
  let initOk := decide (8 ≤ c.fmtInit) && decide (c.fmtInit ≤ 0xB)
  c.reserved || decide (c.acc = 3) || !isFmt c.fmtA || !isFmt c.fmtB || !isFmt c.fmtOut || !isFmt c.fmtInit ||
  (c.scaleA && !isScalable c.fmtA) || (c.scaleB && !isScalable c.fmtB) ||
  (if c.cls = 1 then
    !outOk || (c.hasInit && !initOk) ||
    (c.intPath && (c.isScaled || !isIntFmt c.fmtA || !isIntFmt c.fmtB || (c.hasInit && decide (c.fmtInit ≠ 0xB)))) ||
    ((decide (c.am = 1) || decide (c.am = 2)) &&
      (decide (c.chunk = 0) || (c.isScaled && decide (c.chunk % 32 ≠ 0)))) ||
    decide (2 ^ 32 < x.products)
  else if c.cls = 2 then
    !outOk || (c.intPath && (c.isScaled || !isIntFmt c.fmtA))
  else if c.cls = 4 then
    c.isScaled || decide (c.fmtA < 3) || decide (0xA < c.fmtA) || decide (c.fmtOut < 6) || decide (0xA < c.fmtOut)
  else false)

/-- The validity conditions of the operation (R123, R134, R136, R138). -/
def Desc.isInvalid (x : Desc) : Bool :=
  let c := x.dcl
  if c.cls = 1 then
    (c.scaleA && decide (c.ld 1 = 1) && x.rows.any (fun i => decide (i * c.ld 0 % 32 ≠ 0))) ||
    (c.scaleB && decide (c.ld 2 = 1) && decide (x.cand.col.toNat * c.ld 3 % 32 ≠ 0))
  else if c.cls = 2 then c.mult && !isIntFmt c.fmtB
  else if c.cls = 3 then decide (c.width ≠ 4) && decide (c.width ≠ 8)
  else decide (c.func = fnSOFTMAX) && decide (65535 < c.dim 1)

/-- The check runs on the integer path (R103, R115). -/
def Desc.onIntPath (x : Desc) : Bool := !x.step0 && decide (x.cand.op ≤ opCONSERVE) && x.dcl.intPath

/-- The check runs in mimic mode: a DOT with AM0 to AM2 and FP32 accumulation (R104, R131, R134). DEDUCED (log entry 181). -/
def Desc.inMimic (x : Desc) : Bool :=
  !x.step0 && decide (x.cand.op = opDOT) && !x.dcl.intPath && decide (x.dcl.am ≤ 2) && decide (x.dcl.acc = 0)

/-- A verdict with the mode and the path that the declaration names, and nothing else (R115). -/
def Desc.plain (x : Desc) (v reason : Nat) : DWord := verdictWord v reason x.inMimic false false x.onIntPath 0

/-- What the Bank decides from the declaration and the table entry (R146): none where the check goes on. A failed table block gives OPERAND
before step 2 of CONSERVE and SETHASH is examined, and INVALID stands between BADDESC and OPERAND. DEDUCED (log entry 57). -/
def Desc.decide_ (x : Desc) : Option DWord :=
  if x.step0 then some (plainVerdict vVOID voidBADDESC)
  else if !x.tableRead then none
  else if x.isNull then some (x.plain vNULL 0)
  else if x.isBad then some (x.plain vVOID voidBADDESC)
  else if x.isInvalid then some (x.plain vVOID voidINVALID)
  else none

/-! ## Classes (R111) -/

/-- The host result has the class expected of `e`: for E4M3 an infinite class is NaN, or the largest finite value under SAT. -/
def classMatch (f : FloatFmt) (sat : Bool) (e host : Num) : Bool :=
  match e, host with
  | .nan, .nan => true
  | .inf s, h =>
    if f.bits = 8 && f.e = 4 then
      if sat then decide (h.isFin ∧ h.fix = (if s then -Int.ofNat f.largest else Int.ofNat f.largest)) else h == .nan
    else h == .inf s
  | .fin _ _ _, h => h.isFin
  | _, _ => false

/-! ## Accumulation models (R104 to R106) -/

/-- A list cut into runs of `n`. -/
def chunksOf {α : Type} (n : Nat) : Nat → List α → List (List α)
  | 0, _ => []
  | k + 1, l => if l.isEmpty then [] else l.take n :: chunksOf n k (l.drop n)

/-- One addition of the host's arithmetic. -/
def addR (ftz : Bool) (a b : Num) : Num := rne32 ftz (Num.sum [a, b])

/-- One level of the pairwise tree of AM2. -/
def pairUp (ftz : Bool) : List Num → List Num
  | a :: b :: l => addR ftz a b :: pairUp ftz l
  | l => l

/-- The pairwise tree of AM2. -/
def treeSum (ftz : Bool) : Nat → List Num → Num
  | 0, l => l.headD (.fin false 0 0)
  | n + 1, l =>
    match l with
    | [] => .fin false 0 0
    | [x] => x
    | _ => treeSum ftz n (pairUp ftz l)

/-- The models AM0, AM1 and AM2 over the products (R105). -/
def mimic (c : Decl) (products : List Num) (init : Option Num) : Num :=
  let ftz := c.ftz
  let wide (k : Nat) : Bool := decide (k = 0xA) || decide (k = 0xB)
  let ps := if !c.fused && !c.isScaled && (wide c.fmtA || wide c.fmtB) then products.map (rne32 ftz) else products
  let i := init.map (rne32 ftz)
  let seq (l : List Num) : Num :=
    match i, l with
    | some s, l => l.foldl (addR ftz) s
    | none, x :: l => l.foldl (addR ftz) (rne32 ftz x)
    | none, [] => .fin false 0 0
  if c.am = 0 then seq (if c.isScaled then (chunksOf 32 ps.length ps).map Num.sum else ps)
  else
    let v := (chunksOf c.chunk ps.length ps).map (fun l => rne32 ftz (Num.sum l))
    if c.am = 1 then seq v
    else
      let t := treeSum ftz v.length v
      match i with
      | some s => addR ftz s t
      | none => t

/-! ## The bound (R108, R109, R110, R112) -/

/-- −log2 u of the accumulation format (R104). -/
def accExp (acc : Nat) : Nat := if acc = 0 then 24 else if acc = 1 then 11 else 8

/-- The accumulation format. -/
def accFmt (acc : Nat) : FloatFmt := if acc = 0 then fp32 else ((floatFmt (7 + acc)).getD fp32)

/-- The weight of λ or h_out by format (R108). -/
def tinyExp (code : Nat) (ftz : Bool) : Int :=
  match code, ftz with
  | 0x6, false => -9
  | 0x6, true => -5
  | 0x7, false => -16
  | 0x7, true => -13
  | 0x8, false => -24
  | 0x8, true => -13
  | 0x9, false => -133
  | 0x9, true => -125
  | _, false => -149
  | _, true => -125

/-- The code of the accumulation format. -/
def accCode (acc : Nat) : Nat := if acc = 0 then 0xA else 7 + acc

/-- The longest chain of roundings (R108) over `k` products. -/
def kEff (c : Decl) (k : Nat) : Nat :=
  if c.am = 1 then ceilDiv k c.chunk + 1
  else if c.am = 2 then
    let m := ceilDiv k c.chunk
    (if m ≤ 1 then 0 else Nat.log2 (m - 1) + 1) + 2
  else k + 1

/-- γ(k_eff), rounded up; none where it is not defined (R109 steps 1 to 3, R110). -/
def gammaOf (acc ke : Nat) : Option Frac :=
  let w := 2 ^ accExp acc
  if w ≤ ke then none
  else
    let den := Frac.f64 false { n := w - ke, d := w }
    some (Frac.f64 true (Frac.div { n := ke, d := w } den))

/-- τ (R108, R109 step 7). -/
def tauOf (c : Decl) (ke : Nat) : Frac :=
  Frac.f64 true (Frac.add (Frac.dyadic ke (tinyExp (accCode c.acc) c.ftz)) (Frac.dyadic 1 (tinyExp c.fmtOut c.ftz)))

/-- u_out × |v| for an output of the format (R108). -/
def uOut (f : FloatFmt) (v : Nat) : Frac := { n := v, d := 2 ^ (320 + f.t + 1) }

/-- B from its three terms (R109 steps 4, 5 and 8). -/
def boundOf (g : Frac) (sAbs : Nat) (t2 t3 : Frac) : Frac :=
  let t1 := Frac.f64 true (Frac.mul g (Frac.f64 true (Frac.ofFix sAbs)))
  Frac.f64 true (Frac.add (Frac.f64 true (Frac.add t1 t2)) t3)

/-- The comparison of R109 steps 9 to 11: BEYOND or WITHIN, and the margin. -/
def judge (delta : Nat) (b : Frac) : Nat × Word :=
  let dlt := Frac.f64 false (Frac.ofFix delta)
  if Frac.lt b dlt then (vBEYOND, if b.n = 0 then marginInf else (Frac.div dlt b).f32Down)
  else (vWITHIN, if b.n = 0 then 0 else (Frac.div dlt b).f32Down)

/-- R112 step 3: no correct host could have overflowed. -/
def noOverflow (c : Decl) (f : FloatFmt) (g : Frac) (sAbs : Nat) (cExact : Int) (tau : Frac) : Bool :=
  let p := Frac.f64 true (Frac.mul (Frac.ofFix sAbs) (Frac.add (Frac.ofNat 1) g))
  let b := boundOf g sAbs (uOut f f.largest) tau
  Frac.lt p (Frac.ofFix (accFmt c.acc).threshold) &&
    Frac.lt (Frac.add (Frac.ofFix cExact.natAbs) b) (Frac.ofFix f.threshold)

/-! ## DOT and ROWSUM (R130 to R132) -/

/-- An element of a scaled or unscaled vector. -/
def Desc.elem (x : Desc) (c : Decl) (code : Nat) (v : Vec) (scales : Option Vec) (k : Nat) : Num :=
  let e := decodeElem code (x.raw c v k) c.daz
  match scales with
  | none => e
  | some s => e.scaled code (x.raw c s (k / 32))

/-- The scales of a row of A, where A is scaled. -/
def rowScales (c : Decl) (i : Nat) : Option Vec := if c.scaleA then some (scaleOfA c i) else none
/-- The scales of a column of B, where B is scaled. -/
def colScales (c : Decl) (j : Nat) : Option Vec := if c.scaleB then some (scaleOfB c j) else none

/-- Product `k` of row `i`. -/
def Desc.product (x : Desc) (c : Decl) (i k : Nat) : Num :=
  let j := x.cand.col.toNat
  Num.mul (x.elem c c.fmtA (vecA c i) (rowScales c i) k) (x.elem c c.fmtB (vecB c j) (colScales c j) k)

/-- The initial addend, decoded (R100). -/
def Desc.init (x : Desc) (c : Decl) : Option Num :=
  if c.hasInit then some (decodeElem c.fmtInit (x.raw c (vecI c x.cand.col.toNat) 0) c.daz) else none

/-- A row as the Anvil forms it: the exact sum with its class, the sum of magnitudes, and the products. -/
structure RowSum where
  total : Num
  sAbs : Nat
  products : List Num
  deriving DecidableEq, Repr

/-- The sum of a row's products and the initial addend (R99 to R101). -/
def Desc.rowOf (x : Desc) (c : Decl) (i : Nat) : RowSum :=
  let ps := (List.range (c.dim 2)).map (x.product c i)
  let terms := ps ++ (x.init c).toList
  { total := Num.sum terms, sAbs := sumNat (terms.map (fun t => t.fix.natAbs)), products := ps }

/-- The host result C[i, j], undecoded. -/
def Desc.host (x : Desc) (c : Decl) (i : Nat) : Nat := x.raw c (vecC c i x.cand.col.toNat) 0

/-- An integer reference modulo 2^32 or clamped (R103). -/
def intRef (wrap : Bool) (v : Int) : Int :=
  if wrap then Int.bmod v (2 ^ 32) else max (-(2 ^ 31)) (min (2 ^ 31 - 1) v)

/-- An exact value of the integer path as an integer. -/
def wholeOf (n : Num) : Int := n.fix / 2 ^ 320

/-- Two encodings are the same result: bit-identical, or both NaN (R111: payloads and signs of NaN are never compared). DEDUCED (log entry 60). -/
def sameBits (f : FloatFmt) (a b : Nat) : Bool := decide (a = b) || (f.decode a false == .nan && f.decode b false == .nan)

/-- The verdict of a DOT on the floating-point path, from its finite row (R116 steps 5 to 10). -/
def dotFloat (x : Desc) (c : Decl) (f : FloatFmt) (r : RowSum) (hostRaw : Nat) : DWord :=
  let mode := decide (c.am ≤ 2) && decide (c.acc = 0)
  let h := f.decode hostRaw false
  let (rc, clampR) := f.saturate c.sat r.total
  let (mc, clampM) := if mode then f.saturate c.sat (mimic c r.products (x.init c)) else (rc, false)
  let target := f.round c.ftz (if mode then mc else rc)
  let clamp := clampR || clampM
  let word (v reason : Nat) (miss : Bool) (m : Word) : DWord := verdictWord v reason mode miss clamp false m
  let ke := kEff c (c.dim 2)
  let tau := tauOf c ke
  if sameBits f target hostRaw then word vMATCH 0 false 0
  else if !h.isFin then
    match gammaOf c.acc ke with
    | none => word vVOID voidNOBOUND mode 0
    | some g =>
      if noOverflow c f g r.sAbs r.total.fix tau then word vBEYOND 0 mode marginInf else word vVOID voidRANGE mode 0
  else if mode && x.strict then word vBEYOND 0 true marginInf
  else match gammaOf c.acc ke with
    | none => word vVOID voidNOBOUND mode 0
    | some g =>
      let b := boundOf g r.sAbs (uOut f h.fix.natAbs) tau
      let (v, m) := judge (h.fix - rc.fix).natAbs b
      word v 0 mode m

/-- The verdict of a DOT (R130); on the integer path CLAMP and MODE are 0. DEDUCED (log entry 181). -/
def Desc.dotVerdict (x : Desc) (c : Decl) : DWord :=
  let i := x.cand.row.toNat
  let r := x.rowOf c i
  let hostRaw := x.host c i
  match floatFmt c.fmtOut with
  | none =>
    if intRef c.wrap (wholeOf r.total) = wholeOf (decodeInt 0xB hostRaw) then verdictWord vMATCH 0 false false false true 0
    else verdictWord vBEYOND 0 false false false true marginInf
  | some f =>
    if !r.total.isFin then
      let mode := decide (c.am ≤ 2) && decide (c.acc = 0)
      if classMatch f c.sat r.total (f.decode hostRaw false) then verdictWord vNONFINITE 0 mode false false false 0
      else verdictWord vBEYOND 0 mode false false false marginInf
    else dotFloat x c f r hostRaw

/-- The weight of a row offset is −1 (R131). -/
def negWeight (key : DWord) (i : Nat) : Bool := (mix64 (key + BitVec.ofNat 64 (i / 64))).getLsbD (i % 64)

/-- A number with its weight. -/
def weighted (neg : Bool) (v : Int) : Int := if neg then -v else v

/-- What a ROWSUM makes of one row (R132): of a class mismatch; excluded with a non-finite class; excluded as a correct overflow;
BEYOND or VOID by R112; or in Δ. -/
inductive RowFate where
  | mismatch
  | nonfinite
  | overflowed
  | proven
  | doubtful (reason : Nat)
  | counted (exact host : Int)
  deriving DecidableEq, Repr

/-- The fate of a row, given the S_abs of the whole descriptor. -/
def rowFate (c : Decl) (f : FloatFmt) (ke : Nat) (sAbs : Nat) (r : RowSum) (hostRaw : Nat) : RowFate :=
  let h := f.decode hostRaw false
  if !r.total.isFin then (if classMatch f c.sat r.total h then .nonfinite else .mismatch)
  else
    let rc := (f.saturate c.sat r.total).1
    if h.isFin then .counted rc.fix h.fix
    else if sameBits f (f.round c.ftz rc) hostRaw then .overflowed
    else match gammaOf c.acc ke with
      | none => .doubtful voidNOBOUND
      | some g => if noOverflow c f g sAbs r.total.fix (tauOf c ke) then .proven else .doubtful voidRANGE

/-- A row in Δ. -/
def RowFate.inDelta : RowFate → Bool
  | .counted _ _ => true
  | _ => false

/-- The verdict of a ROWSUM (R131, R132). DEDUCED (log entry 61). -/
def Desc.rowsumVerdict (x : Desc) (c : Decl) : DWord :=
  let rows := x.rows.zipIdx.map (fun e => (e.2, x.rowOf c e.1, x.host c e.1))
  match floatFmt c.fmtOut with
  | none =>
    let ref := rows.foldl (fun a e => a + weighted (negWeight x.key e.1) (intRef c.wrap (wholeOf e.2.1.total))) 0
    let hst := rows.foldl (fun a e => a + weighted (negWeight x.key e.1) (wholeOf (decodeInt 0xB e.2.2))) 0
    let same := if c.wrap then decide ((ref - hst) % 2 ^ 32 = 0) else decide (ref = hst)
    if same then verdictWord vMATCH 0 false false false true 0 else verdictWord vBEYOND 0 false false false true marginInf
  | some f =>
    let ke := kEff c (c.dim 2)
    let whole := sumNat (rows.map (fun e => e.2.1.sAbs))
    let fates := rows.map (fun e => (e.1, e.2.1.sAbs, rowFate c f ke whole e.2.1 e.2.2))
    let left := fates.filter (fun e => e.2.2.inDelta)
    let clamp := rows.any (fun e => e.2.1.total.isFin && (f.saturate c.sat e.2.1.total).2)
    let word (v reason : Nat) (m : Word) : DWord := verdictWord v reason false false clamp false m
    let bad := fates.any (fun e => e.2.2 == .mismatch || e.2.2 == .proven)
    let doubt := fates.findSome? (fun e => match e.2.2 with
      | .doubtful r => some r
      | _ => none)
    let nonfin := fates.any (fun e => e.2.2 == .nonfinite)
    let cmp : Option (Nat × Word) := match left, gammaOf c.acc ke with
      | [], _ => some (vWITHIN, 0)
      | _, none => none
      | _, some g =>
        let dlt := left.foldl (fun (a : Int) e => match e.2.2 with
          | .counted ex h => a + weighted (negWeight x.key e.1) (ex - h)
          | _ => a) 0
        let t2 := left.foldl (fun a e => match e.2.2 with
          | .counted _ h => Frac.f64 true (Frac.add a (uOut f h.natAbs))
          | _ => a) (Frac.ofNat 0)
        let t3 := Frac.f64 true (Frac.mul (Frac.ofNat left.length) (tauOf c ke))
        some (judge dlt.natAbs (boundOf g (sumNat (left.map (fun e => e.2.1))) t2 t3))
    if bad then word vBEYOND 0 marginInf
    else match cmp, doubt with
      | some (2, m), _ => word vBEYOND 0 m
      | _, some r => word vVOID r 0
      | none, none => word vVOID voidNOBOUND 0
      | some (v, m), none => if nonfin then word vNONFINITE 0 0 else word v 0 m

/-! ## CONSERVE (R134, R135) -/

/-- The terms of the input side; scale flags of a format that CONSERVE allows are ignored. DEDUCED (log entry 57). -/
def Desc.inputs (x : Desc) (c : Decl) : List Num :=
  let t := x.table
  let xs : Vec := { n := 0, bits := elemBits c.fmtA, off := t.getD 0 0, stride := 1, len := t.getD 1 0 }
  let ms : Vec := { n := 1, bits := elemBits c.fmtB, off := t.getD 0 0, stride := 1, len := t.getD 1 0 }
  (List.range (t.getD 1 0)).map (fun k =>
    let e := decodeElem c.fmtA (x.raw c xs k) c.daz
    if c.mult then Num.mul (decodeInt c.fmtB (x.raw c ms k)) e else e)

/-- The outputs, decoded. -/
def Desc.outputs (x : Desc) (c : Decl) : List Num :=
  let t := x.table
  let ys : Vec := { n := 2, bits := elemBits c.fmtOut, off := t.getD 2 0, stride := 1, len := t.getD 3 0 }
  (List.range (t.getD 3 0)).map (fun k => decodeElem c.fmtOut (x.raw c ys k) false)

/-- The verdict of a CONSERVE (R135). -/
def Desc.conserveVerdict (x : Desc) (c : Decl) : DWord :=
  let ins := x.inputs c
  let outs := x.outputs c
  let total := Num.sum ins
  let got := Num.sum outs
  match floatFmt c.fmtOut with
  | none =>
    let dlt := wholeOf total - wholeOf got
    let same := if c.wrap then decide (dlt % 2 ^ 32 = 0) else decide (dlt = 0)
    if same then verdictWord vMATCH 0 false false false true 0 else verdictWord vBEYOND 0 false false false true marginInf
  | some f =>
    let ke := ins.length + 1
    let sAbs := sumNat (ins.map (fun t => t.fix.natAbs))
    let tau := tauOf c ke
    if !total.isFin then
      if classMatch f c.sat total got || (f.bits = 8 && f.e = 4 && c.sat && total != .nan && got.isFin) then
        plainVerdict vNONFINITE 0
      else verdictWord vBEYOND 0 false false false false marginInf
    else match gammaOf c.acc ke with
      | none => plainVerdict vVOID voidNOBOUND
      | some g =>
        if !got.isFin then
          if noOverflow c f g sAbs total.fix tau then verdictWord vBEYOND 0 false false false false marginInf
          else plainVerdict vVOID voidRANGE
        else
          let t2 := outs.foldl (fun a y => Frac.f64 true (Frac.add a (uOut f y.fix.natAbs))) (Frac.ofNat 0)
          let t3 := Frac.f64 true (Frac.mul (Frac.ofNat outs.length) tau)
          let (v, m) := judge (total.fix - got.fix).natAbs (boundOf g sAbs t2 t3)
          verdictWord v 0 false false false false m

/-! ## SETHASH and SIGCMP (R136, R139) -/

/-- h (R136). -/
def setHash (key : DWord) (v : Nat) : Nat :=
  (((key ||| 1) * BitVec.ofNat 64 v + key.rotateLeft 32) >>> 3).toNat

/-- The elements of range `r`. -/
def Desc.rangeVals (x : Desc) (c : Decl) (r : Nat) : List Nat :=
  (List.range (x.range_ c r).len).map (x.raw c (x.range_ c r))

/-- H of one side. -/
def Desc.sideHash (x : Desc) (c : Decl) (right : Bool) : Nat :=
  sumNat ((List.range 4).flatMap (fun r =>
    if decide (c.side / 2 ^ r % 2 = 1) = right then (x.rangeVals c r).map (setHash x.key) else [])) % (2 ^ 61 - 1)

/-- The verdict of a SETHASH (R136). -/
def Desc.sethashVerdict (x : Desc) (c : Decl) : DWord :=
  if x.sideHash c false = x.sideHash c true then plainVerdict vMATCH 0
  else verdictWord vBEYOND 0 false false false false marginInf

/-- The verdict of a SIGCMP (R139). -/
def Cand.sigVerdict (x : Cand) : DWord :=
  if x.blocks = 0 then plainVerdict vNULL 0
  else if !x.validA || !x.validB then plainVerdict vVOID voidINVALID
  else if x.sigA = x.sigB then plainVerdict vMATCH 0
  else verdictWord vBEYOND 0 false false false false marginInf

/-! ## ELEMWISE (R113, R114, R138) -/

/-- The function at an input where the manual states the value, or its class (R113). -/
def specialValue (func : Nat) (v : Num) : Option Num :=
  let zero (neg : Bool) : Num := .fin neg 0 0
  match func, v with
  | _, .nan => some .nan
  | 1, .inf s => some (if s then zero false else .inf false)
  | 2, .inf s => some (if s then .nan else .inf false)
  | 3, .inf s => some (.fin s 1 0)
  | 4, .inf s => some (if s then zero false else .fin false 1 0)
  | 5, .inf s => some (if s then zero true else .inf false)
  | 6, .inf s => some (if s then zero true else .inf false)
  | 7, .inf s => some (zero s)
  | 8, .inf s => some (if s then .nan else zero false)
  | 2, .fin s m _ => if m = 0 then some (.inf true) else if s then some .nan else none
  | 7, .fin s m _ => if m = 0 then some (.inf s) else none
  | 8, .fin s m _ => if m = 0 then some (.inf s) else if s then some .nan else none
  | _, _ => none

/-- An ulp of a format in the binade of exponent `e`, as an accumulator integer. -/
def FloatFmt.ulp (f : FloatFmt) (e : Int) : Nat :=
  2 ^ (max (e - Int.ofNat f.t) (1 - Int.ofNat f.bias - Int.ofNat f.t) + 320).toNat

/-- T of R114 for two finite values; `within t_h + 2 of those ulps` is t_h ulps of the output format and 2 of FP32. DEDUCED (log entry 182). -/
def tolerance (f : FloatFmt) (tH : Nat) (r h : Int) : Nat :=
  let m := max r.natAbs h.natAbs
  let e := Int.ofNat (Nat.log2 m) - 320
  let t (e : Int) : Nat := tH * f.ulp e + 2 * fp32.ulp e
  if m ≠ 0 && decide (2 ^ (Nat.log2 m + 1) ≤ m + t e) then t (e + 1) else t e

/-- One element's verdict, reason and margin: by class, RANGE, equality, R114; SAT clamps the reference (R103), and a result that is not
finite equals no finite reference; an infinite reference is rounded to the output format. DEDUCED (log entry 60). DEDUCED (log entry 59).
-/
def elemJudge (c : Decl) (f : FloatFmt) (judgedByClass : Bool) (ref : Num) (near : Bool) (hostRaw : Nat) :
    Nat × Nat × Word :=
  let h := f.decode hostRaw false
  if judgedByClass then (if classMatch f c.sat ref h then (vNONFINITE, 0, 0) else (vBEYOND, 0, marginInf))
  else if near then (vVOID, voidRANGE, 0)
  else
    let r := (f.saturate c.sat ref).1
    if r.isFin && h.isFin then
      if r.fix = h.fix && r.isNegZero == h.isNegZero then (vMATCH, 0, 0)
      else
        let t := tolerance f c.tH r.fix h.fix
        let dlt := (r.fix - h.fix).natAbs
        let m := (Frac.div (Frac.ofFix dlt) (Frac.ofFix t)).f32Down
        (if t < dlt then vBEYOND else vWITHIN, 0, m)
    else if !r.isFin && sameBits f (f.round c.ftz r) hostRaw then (vMATCH, 0, 0)
    else (vBEYOND, 0, marginInf)

/-- A decoded input as the free values of Config take it. -/
def Num.triple : Num → Bool × Nat × Int
  | .fin s m q => (s, m, q)
  | _ => (false, 0, 0)

/-- The verdict of one element of a function of one input. -/
def elemOne (c : Decl) (f : FloatFmt) (v : Num) (hostRaw : Nat) : Nat × Nat × Word :=
  let (s, m, q) := v.triple
  match specialValue c.func v with
  | some e => elemJudge c f (!v.isFin || e == .nan) e false hostRaw
  | none =>
    let t := trueValue c.func v
    elemJudge c f false (refOf t (zeroSign c.func v) (Config.elemUp c.func s m q)) (nearEdge f c.tH t) hostRaw

/-- The verdict of a SOFTMAX_NORM row. -/
def softmaxOne (c : Decl) (f : FloatFmt) (row : List Num) (hostRaw : Nat) : Nat × Nat × Word :=
  let isInf (s : Bool) : Bool := row.any (fun x => x == .inf s)
  if row.any (fun x => x == .nan) || isInf false || row.all (fun x => x == .inf true) then
    elemJudge c f true .nan false hostRaw
  else if isInf true then elemJudge c f true (.fin false 1 0) false hostRaw
  else
    let t := softmaxValue row
    elemJudge c f false (refOf t false (Config.softmaxUp (row.map Num.triple))) (nearEdge f c.tH t) hostRaw

/-- The order in which R138 takes verdicts: BEYOND, VOID, NONFINITE, WITHIN, MATCH. -/
def elemRank (v : Nat) : Nat := if v = vBEYOND then 0 else if v = vVOID then 1 else if v = vNONFINITE then 2 else
  if v = vWITHIN then 3 else 4

/-- The verdict of an ELEMWISE (R138). -/
def Desc.elemVerdict (x : Desc) (c : Decl) : DWord :=
  match floatFmt c.fmtOut with
  | none => plainVerdict vVOID voidBADDESC
  | some f =>
    let xs := x.vecX c
    let ys := x.vecY c
    let input (k : Nat) : Num := decodeElem c.fmtA (x.raw c xs k) c.daz
    let each : List (Nat × Nat × Word) :=
      if c.func = fnSOFTMAX then [softmaxOne c f ((List.range xs.len).map input) (x.raw c ys 0)]
      else (List.range xs.len).map (fun k => elemOne c f (input k) (x.raw c ys k))
    let best := each.foldl (fun a e => if elemRank e.1 < elemRank a.1 then e else a) (vMATCH, 0, 0)
    let margin := each.foldl (fun (a : Word) e => if a.toNat < e.2.2.toNat then e.2.2 else a) 0
    verdictWord best.1 best.2.1 false false false false
      (if best.1 = vWITHIN || best.1 = vBEYOND then margin else 0)

/-- The verdict of a descriptor whose operands have been read (R116 steps 4 to 10). -/
def Desc.finalVerdict (x : Desc) : DWord :=
  let c := x.dcl
  if x.cand.op = opDOT then x.dotVerdict c
  else if x.cand.op = opROWSUM then x.rowsumVerdict c
  else if x.cand.op = opCONSERVE then x.conserveVerdict c
  else if x.cand.op = opSETHASH then x.sethashVerdict c
  else if x.cand.op = opELEMWISE then x.elemVerdict c
  else x.cand.sigVerdict

/-! ## The work of a slot (R131, R136, R140, R142, R144) -/

/-- γ is not defined for the check: NOBOUND decides before the first slot (R110, R146). -/
def Desc.noGamma (x : Desc) : Bool :=
  let c := x.dcl
  !c.intPath &&
    (if x.cand.op = opDOT || x.cand.op = opROWSUM then (gammaOf c.acc (kEff c (c.dim 2))).isNone
    else if x.cand.op = opCONSERVE then (gammaOf c.acc (x.table.getD 1 0 + 1)).isNone
    else false)

/-- A descriptor can run: its next work unit's elements are in the buffer; where γ is not defined, every element (R145, R146). -/
def Desc.ready (x : Desc) : Bool := x.unitReady && (!x.noGamma || x.nextBlock.isNone)

/-- The zc that end a descriptor: the finish, or the whole of a SIGCMP (R140). -/
def Desc.finishZc (x : Desc) : Nat := if x.cand.op = opSIGCMP then 2 else 6

/-- A value added to a long accumulator pair, with a weight (R99, R100). -/
def ChanCtx.add (a : ChanCtx) (neg : Bool) (v : Num) : ChanCtx :=
  { a with
    sum := a.sum + BitVec.ofInt 640 (weighted neg v.fix)
    abs := a.abs + BitVec.ofNat 640 v.fix.natAbs
    negZero := a.negZero && v.isNegZero && !neg }

/-- A host value taken off SUM (R131, R135). -/
def ChanCtx.takeHost (a : ChanCtx) (neg : Bool) (v : Num) : ChanCtx := { a with sum := a.sum - BitVec.ofInt 640 (weighted neg v.fix) }

/-- u_out × |v| added to the running binary64 sum, upward (R132, R135). -/
def ChanCtx.addOut (a : ChanCtx) (code : Nat) (v : Num) : ChanCtx :=
  match floatFmt code with
  | some f => { a with run := Frac.f64 true (Frac.add a.run (uOut f v.fix.natAbs)) }
  | none => a

/-- An element of a multiset with its side, by its index over the four ranges. -/
def Desc.setElem (x : Desc) (c : Decl) (k : Nat) : Nat → Nat → Option (Bool × Nat)
  | 0, _ => none
  | n + 1, r =>
    let len := (x.range_ c r).len
    if k < len then some (decide (c.side / 2 ^ r % 2 = 1), x.raw c (x.range_ c r) k)
    else x.setElem c (k - len) n (r + 1)

/-- What one item of a descriptor does to its channel's accumulators. -/
def Desc.item (x : Desc) (c : Decl) (n1 k : Nat) (a : ChanCtx) : ChanCtx :=
  if x.cand.op = opDOT || x.cand.op = opROWSUM then
    let len := max 1 (c.dim 2)
    if k < n1 then
      let row := (x.cand.row.toNat + k / len) % 2 ^ 32
      let neg := x.cand.op = opROWSUM && negWeight x.key (k / len)
      let a1 := a.add neg (x.product c row (k % len))
      if k % len = 0 then
        match x.init c with
        | some v => a1.add neg v
        | none => a1
      else a1
    else
      let i := (x.cand.row.toNat + (k - n1)) % 2 ^ 32
      let h := decodeElem c.fmtOut (x.host c i) false
      let a1 := a.takeHost (negWeight x.key (k - n1)) h
      if h.isFin && (x.rowOf c i).total.isFin then a1.addOut c.fmtOut h else a1
  else if x.cand.op = opCONSERVE then
    if k < n1 then
      match (x.inputs c)[k]? with
      | some v => a.add false v
      | none => a
    else match (x.outputs c)[k - n1]? with
      | some v => (a.takeHost false v).addOut c.fmtOut v
      | none => a
  else if x.cand.op = opSETHASH then
    match x.setElem c k 4 0 with
    | some (true, v) => { a with hashR := (a.hashR + setHash x.key v) % (2 ^ 61 - 1) }
    | some (false, v) => { a with hashL := (a.hashL + setHash x.key v) % (2 ^ 61 - 1) }
    | none => a
  else a

/-- Items `lo` to `lo + n - 1` of a descriptor. -/
def Desc.runItems (x : Desc) (c : Decl) (n1 lo n : Nat) (a : ChanCtx) : ChanCtx :=
  (List.range n).foldl (fun a i => x.item c n1 (lo + i) a) a

/-- A descriptor run in `z` zc of a slot, as far as its elements are in the buffer: the descriptor, its accumulators, the zc left, and whether it finished. -/
def Desc.runIn (x : Desc) (a0 : ChanCtx) (z : Nat) : Desc × ChanCtx × Nat × Bool :=
  let c := x.dcl
  let (n1, rate, n2) := x.work
  let n := n1 + n2
  let a := if x.next = 0 then ChanCtx.init else a0
  let k1 := x.inBuffer c n1 n (min (n1 - x.next) (z * rate)) x.next
  let zc1 := ceilDiv k1 rate
  let a1 := x.runItems c n1 x.next k1 a
  let at1 := x.next + k1
  let z1 := z - zc1
  let k2 := if at1 < n1 then 0 else x.inBuffer c n1 n (min (n - at1) (z1 * 16)) at1
  let zc2 := ceilDiv k2 16
  let a2 := x.runItems c n1 at1 k2 a1
  let at2 := at1 + k2
  let z2 := z1 - zc2
  let fin := decide (n ≤ at2) && (x.needs c n1 n n).all x.kept && decide (x.finishZc ≤ z2)
  let units := x.units + (if zc1 + zc2 = 0 then 0 else 1) + bit fin
  let x1 := { x with next := at2, units := min 0xFFFF units, st := .running }
  if fin then
    let a3 := if x.cand.op = opDOT then a2.takeHost false (decodeElem c.fmtOut (x.host c x.cand.row.toNat) false) else a2
    ({ x1 with st := .finished, verdict := x.finalVerdict }, a3, z2 - x.finishZc, true)
  else (x1, a2, z2, false)

end Sys2Proof.Machine
end

