-- ==== Sys2Proof/Machine/Crypto.lean ====
section
/-! DEFINITION. The published algorithms the manual names: SHA-384 and ECDSA P-384 (FIPS 180-4, 186-5), AES-256 (FIPS 197),
GCM (SP 800-38D), HMAC and the counter-mode KDF (SP 800-108), ECDH (R24, R408 to R412, R427 to R431). -/

namespace Sys2Proof.Crypto

/-! ## SHA-384 -/

/-- The 80 round constants. -/
def shaK : List DWord := [
  0x428A2F98D728AE22, 0x7137449123EF65CD, 0xB5C0FBCFEC4D3B2F, 0xE9B5DBA58189DBBC,
  0x3956C25BF348B538, 0x59F111F1B605D019, 0x923F82A4AF194F9B, 0xAB1C5ED5DA6D8118,
  0xD807AA98A3030242, 0x12835B0145706FBE, 0x243185BE4EE4B28C, 0x550C7DC3D5FFB4E2,
  0x72BE5D74F27B896F, 0x80DEB1FE3B1696B1, 0x9BDC06A725C71235, 0xC19BF174CF692694,
  0xE49B69C19EF14AD2, 0xEFBE4786384F25E3, 0x0FC19DC68B8CD5B5, 0x240CA1CC77AC9C65,
  0x2DE92C6F592B0275, 0x4A7484AA6EA6E483, 0x5CB0A9DCBD41FBD4, 0x76F988DA831153B5,
  0x983E5152EE66DFAB, 0xA831C66D2DB43210, 0xB00327C898FB213F, 0xBF597FC7BEEF0EE4,
  0xC6E00BF33DA88FC2, 0xD5A79147930AA725, 0x06CA6351E003826F, 0x142929670A0E6E70,
  0x27B70A8546D22FFC, 0x2E1B21385C26C926, 0x4D2C6DFC5AC42AED, 0x53380D139D95B3DF,
  0x650A73548BAF63DE, 0x766A0ABB3C77B2A8, 0x81C2C92E47EDAEE6, 0x92722C851482353B,
  0xA2BFE8A14CF10364, 0xA81A664BBC423001, 0xC24B8B70D0F89791, 0xC76C51A30654BE30,
  0xD192E819D6EF5218, 0xD69906245565A910, 0xF40E35855771202A, 0x106AA07032BBD1B8,
  0x19A4C116B8D2D0C8, 0x1E376C085141AB53, 0x2748774CDF8EEB99, 0x34B0BCB5E19B48A8,
  0x391C0CB3C5C95A63, 0x4ED8AA4AE3418ACB, 0x5B9CCA4F7763E373, 0x682E6FF3D6B2B8A3,
  0x748F82EE5DEFB2FC, 0x78A5636F43172F60, 0x84C87814A1F0AB72, 0x8CC702081A6439EC,
  0x90BEFFFA23631E28, 0xA4506CEBDE82BDE9, 0xBEF9A3F7B2C67915, 0xC67178F2E372532B,
  0xCA273ECEEA26619C, 0xD186B8C721C0C207, 0xEADA7DD6CDE0EB1E, 0xF57D4F7FEE6ED178,
  0x06F067AA72176FBA, 0x0A637DC5A2C898A6, 0x113F9804BEF90DAE, 0x1B710B35131C471B,
  0x28DB77F523047D84, 0x32CAAB7B40C72493, 0x3C9EBE0A15C9BEBC, 0x431D67C49C100D4C,
  0x4CC5D4BECB3E42B6, 0x597F299CFC657E2A, 0x5FCB6FAB3AD6FAEC, 0x6C44198C4A475817]

/-- The initial hash value. -/
def shaH : List DWord := [
  0xCBBB9D5DC1059ED8, 0x629A292A367CD507, 0x9159015A3070DD17, 0x152FECD8F70E5939,
  0x67332667FFC00B31, 0x8EB44A8768581511, 0xDB0C2E0D64F98FA7, 0x47B5481DBEFA4FA4]

/-- Rotate right. -/
def ror (x : DWord) (k : Nat) : DWord := (x >>> k) ||| (x <<< (64 - k))

/-- A number spelt by bytes, most significant first. -/
def beNat (l : List Byte) : Nat := l.foldl (fun a b => a * 256 + b.toNat) 0

/-- The bytes of a number, most significant first. -/
def beBytes (n v : Nat) : List Byte := (leBytes n v).reverse

/-- The words of a padded message block. -/
def beWords : Nat → List Byte → List DWord
  | 0, _ => []
  | n + 1, l => BitVec.ofNat 64 (beNat (l.take 8)) :: beWords n (l.drop 8)

/-- The message schedule, extended one word at a time; the newest word first. -/
def shaExtend : Nat → List DWord → List DWord
  | 0, w => w
  | n + 1, w =>
    let w2 := w.getD 1 0
    let w7 := w.getD 6 0
    let w15 := w.getD 14 0
    let w16 := w.getD 15 0
    let s0 := ror w15 1 ^^^ ror w15 8 ^^^ (w15 >>> 7)
    let s1 := ror w2 19 ^^^ ror w2 61 ^^^ (w2 >>> 6)
    shaExtend n ((s1 + w7 + s0 + w16) :: w)

/-- The eight working variables. -/
structure ShaVars where
  a : DWord
  b : DWord
  c : DWord
  d : DWord
  e : DWord
  f : DWord
  g : DWord
  h : DWord
  deriving DecidableEq, Repr

/-- One round. -/
def shaRound (v : ShaVars) (kw : DWord × DWord) : ShaVars :=
  let s1 := ror v.e 14 ^^^ ror v.e 18 ^^^ ror v.e 41
  let ch := (v.e &&& v.f) ^^^ (~~~v.e &&& v.g)
  let t1 := v.h + s1 + ch + kw.1 + kw.2
  let s0 := ror v.a 28 ^^^ ror v.a 34 ^^^ ror v.a 39
  let maj := (v.a &&& v.b) ^^^ (v.a &&& v.c) ^^^ (v.b &&& v.c)
  { a := t1 + (s0 + maj), b := v.a, c := v.b, d := v.c, e := v.d + t1, f := v.e, g := v.f, h := v.g }

/-- One 128-byte block. -/
def shaBlock (hs : List DWord) (block : List Byte) : List DWord :=
  let w := (shaExtend 64 (beWords 16 block).reverse).reverse
  let v0 : ShaVars := { a := hs.getD 0 0, b := hs.getD 1 0, c := hs.getD 2 0, d := hs.getD 3 0,
                        e := hs.getD 4 0, f := hs.getD 5 0, g := hs.getD 6 0, h := hs.getD 7 0 }
  let v := (shaK.zip w).foldl shaRound v0
  [hs.getD 0 0 + v.a, hs.getD 1 0 + v.b, hs.getD 2 0 + v.c, hs.getD 3 0 + v.d,
   hs.getD 4 0 + v.e, hs.getD 5 0 + v.f, hs.getD 6 0 + v.g, hs.getD 7 0 + v.h]

/-- All blocks of a padded message. -/
def shaBlocks : Nat → List DWord → List Byte → List DWord
  | 0, hs, _ => hs
  | n + 1, hs, l => shaBlocks n (shaBlock hs (l.take 128)) (l.drop 128)

/-- The padded message. -/
def shaPad (m : List Byte) : List Byte :=
  m ++ [0x80] ++ List.replicate ((239 - m.length % 128) % 128) 0 ++ beBytes 16 (8 * m.length)

/-- SHA-384, 48 bytes. -/
def sha384 (m : List Byte) : List Byte :=
  let p := shaPad m
  ((shaBlocks (p.length / 128) shaH p).take 6).flatMap (fun w => beBytes 8 w.toNat)

/-- The digest as a number, most significant byte first. -/
def digest (m : List Byte) : BitVec 384 := BitVec.ofNat 384 (beNat (sha384 m))

/-! ## HMAC and the key derivation -/

/-- HMAC-SHA-384 of a key of at most 128 bytes. -/
def hmac (key m : List Byte) : List Byte :=
  let k := key ++ List.replicate (128 - key.length) 0
  let x (c : Byte) : List Byte := k.map (fun b => b ^^^ c)
  sha384 (x 0x5C ++ sha384 (x 0x36 ++ m))

/-- The bytes of an ASCII label. -/
def ascii (s : String) : List Byte := s.toList.map (fun c => BitVec.ofNat 8 c.toNat)

/-- KDF(K, label, context), truncated to `n` bytes: 32-bit counter, label, a zero byte, context, length in bits (R408). PRESUMED (log entry 139). -/
def kdf (key : List Byte) (label : String) (context : List Byte) (n : Nat) : List Byte :=
  let blk (i : Nat) : List Byte := hmac key (beBytes 4 i ++ ascii label ++ [0] ++ context ++ beBytes 4 (8 * n))
  ((List.range ((n + 47) / 48)).flatMap (fun i => blk (i + 1))).take n

/-! ## AES-256 -/

/-- Doubling in GF(2^8) modulo x^8 + x^4 + x^3 + x + 1. -/
def xtime (b : Nat) : Nat := if b < 128 then 2 * b else (2 * b - 256) ^^^ 0x1B

/-- Multiplication in that field. -/
def gmul : Nat → Nat → Nat → Nat
  | 0, _, _ => 0
  | n + 1, a, b => (if b % 2 = 1 then a else 0) ^^^ gmul n (xtime a) (b / 2)

/-- Squaring and multiplying: a^254, the inverse. -/
def ginv (a : Nat) : Nat :=
  let m := gmul 8
  let a2 := m a a
  let a4 := m a2 a2
  let a8 := m a4 a4
  let a16 := m a8 a8
  let a32 := m a16 a16
  let a64 := m a32 a32
  let a128 := m a64 a64
  m a2 (m a4 (m a8 (m a16 (m a32 (m a64 a128)))))

/-- The S-box. -/
def sbox (x : Nat) : Nat :=
  let b := ginv x
  let r (k : Nat) : Nat := (b * 2 ^ k) % 256 + b / 2 ^ (8 - k)
  b ^^^ r 1 ^^^ r 2 ^^^ r 3 ^^^ r 4 ^^^ 0x63

/-- XOR of two byte lists. -/
def xorL (a b : List Nat) : List Nat := (a.zip b).map (fun p => p.1 ^^^ p.2)

/-- The key schedule: words of four bytes, the newest first, extended word by word. -/
def keyExtend : Nat → Nat → List (List Nat) → List (List Nat)
  | 0, _, w => w
  | n + 1, i, w =>
    let t := w.getD 0 []
    let t' :=
      if i % 8 = 0 then xorL ((t.drop 1 ++ t.take 1).map sbox) [2 ^ (i / 8 - 1), 0, 0, 0]
      else if i % 8 = 4 then t.map sbox
      else t
    keyExtend n (i + 1) (xorL (w.getD 7 []) t' :: w)

/-- Pieces of four. -/
def fours : Nat → List Nat → List (List Nat)
  | 0, _ => []
  | n + 1, l => l.take 4 :: fours n (l.drop 4)

/-- The 15 round keys, 16 bytes each. -/
def roundKeys (key : List Nat) : List (List Nat) :=
  let w := (keyExtend 52 8 (fours 8 key).reverse).reverse
  (List.range 15).map (fun r => ((w.drop (4 * r)).take 4).flatten)

/-- ShiftRows on a state held column by column. -/
def shiftRows (s : List Nat) : List Nat := (List.range 16).map (fun i => s.getD ((i + 4 * (i % 4)) % 16) 0)

/-- MixColumns on one column. -/
def mixColumn (c : List Nat) : List Nat :=
  let g (i : Nat) : Nat := c.getD (i % 4) 0
  (List.range 4).map (fun i => xtime (g i) ^^^ (xtime (g (i + 1)) ^^^ g (i + 1)) ^^^ g (i + 2) ^^^ g (i + 3))

/-- AES-256 of one block: key 32 bytes, block 16 bytes. -/
def aesBytes (key block : List Byte) : List Byte :=
  let ks := roundKeys (key.map (fun b => b.toNat))
  let k (r : Nat) : List Nat := ks.getD r []
  let s0 := xorL (block.map (fun b => b.toNat)) (k 0)
  let mid (s : List Nat) (r : Nat) : List Nat :=
    xorL ((fours 4 (shiftRows (s.map sbox))).flatMap mixColumn) (k (r + 1))
  let s13 := (List.range 13).foldl mid s0
  (xorL (shiftRows (s13.map sbox)) (k 14)).map (fun n => BitVec.ofNat 8 n)

/-- AES-256 on numbers whose byte i is bits [8i + 7:8i] (R24). DEDUCED (log entry 138). -/
def aes256 (key : BitVec 256) (block : BitVec 128) : BitVec 128 :=
  BitVec.ofNat 128 (leNat (aesBytes (leBytes 32 key.toNat) (leBytes 16 block.toNat)))

/-! ## GCM -/

/-- Multiplication in GF(2^128), bit 0 of the standard being the most significant bit of a number. -/
def gf128 : Nat → Nat → Nat → Nat
  | 0, _, _ => 0
  | n + 1, x, v =>
    (if (x / 2 ^ n) % 2 = 1 then v else 0) ^^^
      gf128 n x (if v % 2 = 1 then (v / 2) ^^^ (0xE1 * 2 ^ 120) else v / 2)

/-- Blocks of 16 bytes, the last one filled with zeros. -/
def blocks16 : Nat → List Byte → List Nat
  | 0, _ => []
  | n + 1, l => beNat (l.take 16 ++ List.replicate (16 - l.length) 0) :: blocks16 n (l.drop 16)

/-- GHASH. -/
def ghash (h : Nat) (aad ct : List Byte) : Nat :=
  let bs := blocks16 ((aad.length + 15) / 16) aad ++ blocks16 ((ct.length + 15) / 16) ct ++
    [8 * aad.length * 2 ^ 64 + 8 * ct.length]
  bs.foldl (fun y b => gf128 128 (y ^^^ b) h) 0

/-- The keystream of CTR mode for `n` bytes, from counter 2 on, for a 12-byte IV. -/
def keystream (key iv : List Byte) (n : Nat) : List Byte :=
  ((List.range ((n + 15) / 16)).flatMap (fun i => aesBytes key (iv ++ beBytes 4 (i + 2)))).take n

/-- Encryption, or decryption, of a body. -/
def gcmBody (key iv m : List Byte) : List Byte :=
  (m.zip (keystream key iv m.length)).map (fun p => p.1 ^^^ p.2)

/-- The 16-byte tag. -/
def gcmTag (key iv aad ct : List Byte) : List Byte :=
  let h := beNat (aesBytes key (List.replicate 16 0))
  let s := beNat (aesBytes key (iv ++ beBytes 4 1))
  beBytes 16 (ghash h aad ct ^^^ s)

/-! ## P-384 -/

/-- The field prime. -/
def p384 : Nat := 2 ^ 384 - 2 ^ 128 - 2 ^ 96 + 2 ^ 32 - 1
/-- The order of the base point. -/
def n384 : Nat := 0xFFFFFFFFFFFFFFFFFFFFFFFFFFFFFFFFFFFFFFFFFFFFFFFFC7634D81F4372DDF581A0DB248B0A77AECEC196ACCC52973
/-- The coefficient b; a is -3. -/
def b384 : Nat := 0xB3312FA7E23EE7E4988E056BE3F82D19181D9C6EFE8141120314088F5013875AC656398D8A2ED19D2A85C8EDD3EC2AEF
/-- The base point. -/
def g384 : Nat × Nat := (0xAA87CA22BE8B05378EB1C71EF320AD746E1D3B628BA79B9859F741E082542A385502F25DBF55296C3A545E3872760AB7,
  0x3617DE4A96262C6F5D9E98BF9292DC29F8F41DBD289A147CE9DA3113B5F0B8C00A60B1CE1D7E819D7A431D7C90EA0E5F)

/-- x^e modulo m, by squaring over the bits of e. -/
def powMod (m : Nat) : Nat → Nat → Nat → Nat
  | 0, _, _ => 1 % m
  | n + 1, x, e =>
    let r := powMod m n (x * x % m) (e / 2)
    if e % 2 = 1 then r * x % m else r

/-- The inverse modulo a prime. -/
def invMod (m x : Nat) : Nat := powMod m 384 (x % m) (m - 2)

/-- A point of the curve; `none` is the point at infinity. -/
abbrev Point := Option (Nat × Nat)

/-- The sum of two points. -/
def addP (a b : Point) : Point :=
  match a, b with
  | none, q => q
  | q, none => q
  | some (x1, y1), some (x2, y2) =>
    if x1 = x2 ∧ (y1 + y2) % p384 = 0 then none
    else
      let lam :=
        if x1 = x2 then (3 * x1 * x1 + p384 - 3) * invMod p384 (2 * y1) % p384
        else (y2 + p384 - y1) * invMod p384 (x2 + p384 - x1) % p384
      let x3 := (lam * lam + 2 * p384 - x1 - x2) % p384
      some (x3, (lam * (x1 + p384 - x3) + p384 - y1) % p384)

/-- A multiple of a point, over the bits of the scalar. -/
def mulP : Nat → Nat → Point → Point
  | 0, _, _ => none
  | n + 1, k, q => let r := mulP n (k / 2) (addP q q); if k % 2 = 1 then addP r q else r

/-- A point lies on the curve and is not the point at infinity. -/
def onCurve (q : Nat × Nat) : Bool :=
  decide (q.1 < p384) && decide (q.2 < p384) &&
    decide (q.2 * q.2 % p384 = (q.1 * q.1 % p384 * q.1 + (p384 - 3) * q.1 + b384) % p384)

/-- A public key in its 97 bytes, uncompressed: 0x04, X, Y, most significant byte first (R438, R444). -/
def pointOf (k : BitVec 776) : Option (Nat × Nat) :=
  let v := k.toNat
  let q := (v / 2 ^ 384 % 2 ^ 384, v % 2 ^ 384)
  if v / 2 ^ 768 = 4 ∧ onCurve q = true then some q else none

/-- The 97 bytes of a point, as a number. -/
def ofPoint (q : Point) : BitVec 776 :=
  match q with
  | none => 0
  | some (x, y) => BitVec.ofNat 776 (4 * 2 ^ 768 + x * 2 ^ 384 + y)

/-- ECDSA verification of a digest: r then s, 48 bytes each, most significant byte first. -/
def ecdsaVerify (key : BitVec 776) (dig : BitVec 384) (sig : BitVec 768) : Bool :=
  match pointOf key with
  | none => false
  | some q =>
    let r := sig.toNat / 2 ^ 384
    let s := sig.toNat % 2 ^ 384
    if r = 0 ∨ n384 ≤ r ∨ s = 0 ∨ n384 ≤ s then false
    else
      let w := invMod n384 s
      match addP (mulP 384 (dig.toNat * w % n384) (some g384)) (mulP 384 (r * w % n384) (some q)) with
      | none => false
      | some (x, _) => decide (x % n384 = r)

/-- ECDSA signature of a digest under the scalar `d` with the per-signature number `k`. -/
def ecdsaSign (d k : Nat) (dig : BitVec 384) : BitVec 768 :=
  match mulP 384 (k % n384) (some g384) with
  | none => 0
  | some (x, _) =>
    let r := x % n384
    let s := invMod n384 k * (dig.toNat + r * d) % n384
    BitVec.ofNat 768 (r * 2 ^ 384 + s)

/-! ## The keys of the vault (R408) -/

/-- The root key as bytes. -/
def rootBytes : List Byte := beBytes 32 Config.rootKey.toNat

/-- CHIP_ID as bytes, [7:0] first. -/
def chipBytes : List Byte := leBytes 16 Config.chipId.toNat

/-- The private scalar of the device signing key (R408). -/
def deviceScalar : Nat := beNat (kdf rootBytes "ODTL-DEVSIG" chipBytes 56) % (n384 - 1) + 1

/-- The device public key. -/
def devicePublic : BitVec 776 := ofPoint (mulP 384 deviceScalar (some g384))

/-- The ledger key (R408). -/
def ledgerKey (uid : DWord) (salt : BitVec 256) (gen : DWord) : BitVec 256 :=
  BitVec.ofNat 256 (beNat (kdf rootBytes "ODTL-LEDGER"
    (leBytes 8 uid.toNat ++ leBytes 32 salt.toNat ++ leBytes 8 gen.toNat) 32))

/-- The export key (R408). -/
def exportKey : List Byte := kdf rootBytes "ODTL-EXPORT" chipBytes 32

end Sys2Proof.Crypto
end

