-- ==== Sys2Proof/Machine/Operands.lean ====
section
/-! DEFINITION. How a register access is examined (R477 to R484): the privilege of its path, where an indirect address points,
which row of R481 refuses a write, and what a refusal does. -/

namespace Sys2Proof.Machine

/-! ## Paths (R477) -/

/-- The privilege of a path: 0 for the management and steward paths, 1, or 2 (R477). -/
def pathPriv : Path → Nat
  | .hostP1 => 1
  | .hostP2 _ => 2
  | .mgmt => 0
  | .steward => 0
  | .cc _ => 1

/-- The path is the host register port. -/
def pathHost : Path → Bool
  | .hostP1 => true
  | .hostP2 _ => true
  | _ => false

/-- The path is a control-core port. -/
def pathCc : Path → Bool
  | .cc _ => true
  | _ => false

/-- The number of a path's own copy of the indirect registers and the mailboxes; all P2 accesses share one (R477). -/
def pathNo : Path → Nat
  | .hostP1 => 0
  | .hostP2 _ => 1
  | .mgmt => 2
  | .steward => 3
  | .cc b => 4 + b.val

/-- A path's own copy. -/
def Dev.path (d : Dev) (p : Path) : PathCopy := Tbl.get PathCopy.init d.regs.paths (pathNo p)

/-- Change a path's own copy. -/
def Dev.modPath (d : Dev) (p : Path) (f : PathCopy → PathCopy) : Dev :=
  { d with regs.paths := Tbl.modify PathCopy.init d.regs.paths (pathNo p) f }

/-! ## Targets -/

/-- A register: of the Zenith window, of a Bank, or of a Wisp, by byte offset. -/
inductive Target where
  | zn (off : Nat)
  | bk (bank off : Nat)
  | ws (bank pos off : Nat)
  deriving DecidableEq, Repr

/-- The row of a target's register; none for a hole. -/
def Target.row : Target → Option Reg.Row
  | .zn off => Reg.find .zn off
  | .bk _ off => Reg.find .bk off
  | .ws _ _ off => Reg.find .ws off

/-- The byte offset within the target's space. -/
def Target.off : Target → Nat
  | .zn off => off
  | .bk _ off => off
  | .ws _ _ off => off

/-- The offset, or the indirect address (R489), that REG_REJECT names (R455). -/
def Target.addr : Target → Nat
  | .zn off => off
  | .bk b off => b * 2 ^ 24 + 0x1FF * 2 ^ 15 + off
  | .ws b p off => b * 2 ^ 24 + p * 2 ^ 15 + off

/-- The control-core interface block (R496). -/
def Target.isCcBlock : Target → Bool
  | .bk _ off => decide (0x2000 ≤ off) && decide (off < 0x2050)
  | _ => false

/-- The debug block of the Zenith window, with the Bank registers of R406 (R384). -/
def Target.isDebug : Target → Bool
  | .zn off => decide (0x4800 ≤ off) && decide (off < 0x5000)
  | .bk _ off => decide (0x1900 ≤ off) && decide (off < 0x1A00)
  | .ws _ _ _ => false

/-- The stream whose registers R383 opens to a job, if the target is one of them. -/
def Target.jobStream : Target → Option Nat
  | .zn off =>
    let s := (off - 0x4800) / 0x20
    let r := (off - 0x4800) % 0x20
    if 0x4800 ≤ off ∧ off < 0x4900 ∧ (r = 0x10 ∨ r = 0x14 ∨ r = 0x18) then some s else none
  | .bk _ off => if 0x1900 ≤ off ∧ off < 0x1940 then some ((off - 0x1900) / 8) else none
  | .ws _ _ _ => none

/-- The seed registers (R63). -/
def Target.isSeed : Target → Bool
  | .zn off => decide (0x0450 ≤ off) && decide (off < 0x0468)
  | _ => false

/-- The targets open to P2: identity, indirect registers, and the registers of the job's own stream (R383, R498, R499). -/
def Dev.openP2 (d : Dev) (c : CtxId) (t : Target) : Bool :=
  match t.jobStream with
  | some s => decide (0 < s) && d.zf (Reg.ZN_CTR_S_CTX + 0x20 * s) 9 0 == c.val
  | none =>
    match t with
    | .zn off => decide (off < 0x0400) || (decide (0x7000 ≤ off) && decide (off < 0x7010))
    | _ => false

/-- The privilege rule of a write (R481 row 4): seed registers at P0, SET of ZN_UHT_CMD at P0, KICK by the steward. -/
def Dev.privOk (d : Dev) (p : Path) (t : Target) (v : Word) : Bool :=
  if t = .zn Reg.ZN_WDOG_KICK then decide (p = .steward)
  else if t.isSeed then decide (pathPriv p = 0)
  else if t = .zn Reg.ZN_UHT_CMD && bitOf v 1 then decide (pathPriv p = 0)
  else match p with
    | .hostP2 c => d.openP2 c t
    | _ => true

/-- The privilege rule of a read (R481, R383). -/
def Dev.privReadOk (d : Dev) (p : Path) (t : Target) : Bool :=
  if t.isSeed then decide (pathPriv p = 0)
  else match p with
    | .hostP2 c => d.openP2 c t
    | _ => true

/-! ## Field ranges (R481 row 6) -/

/-- Why a value is refused: the REG_REJECT reasons (R455), and the debug block's own count (R404). -/
inductive Illegal where
  | range
  | zero
  | nested
  | debug
  deriving DecidableEq, Repr

/-- A field that is 0, or from `lo` to `hi`. -/
def zeroOr (v lo hi : Nat) : Bool := decide (v = 0) || (decide (lo ≤ v) && decide (v ≤ hi))

/-- `none` where the condition holds. -/
def need (ok : Bool) (why : Illegal) : Option Illegal := if ok then none else some why

/-- The first refusal of two. -/
def Illegal.first : Option Illegal → Option Illegal → Option Illegal
  | some x, _ => some x
  | none, y => y

/-- Upper ≥ 4 × lower (R347). -/
def pairOk (upper lower : Nat) : Bool := decide (4 * lower ≤ upper)

/-- The stated range, zero rule (R13) and nested pairs (R347, R221) of a Zenith register, on the value a write would leave. DEDUCED (log entry 17). -/
def Dev.znIllegal (d : Dev) (off : Nat) (v : Word) : Option Illegal :=
  let n := v.toNat
  let z (o : Nat) : Nat := (d.zreg o).toNat
  if off = Reg.ZN_LVL_BUDGET then need (decide (bitsOf v 7 0 ≤ 192)) .range
  else if off = Reg.ZN_HZ_TIMEOUT then
    Illegal.first (need (decide (n ≠ 0)) .zero)
      (Illegal.first (need (decide (n ≤ 2 ^ 24)) .range) (need (pairOk n (z Reg.ZN_HZ_REPLAY_WAIT)) .nested))
  else if off = Reg.ZN_HZ_REPLAY_WAIT then
    Illegal.first (need (decide (n ≠ 0)) .zero)
      (Illegal.first (need (decide (n ≤ 2 ^ 22)) .range) (need (pairOk (z Reg.ZN_HZ_TIMEOUT) n) .nested))
  else if off = Reg.ZN_UHT_WIN then
    need (zeroOr (bitsOf v 5 0) 8 40 && zeroOr (bitsOf v 13 8) 8 40) .range
  else if off = Reg.ZN_UHT_CE then
    need (decide (bitsOf v 6 0 ≠ 127) && zeroOr (bitsOf v 13 8) 16 40) .range
  else if off = Reg.ZN_UHT_DAWN_AGE then need (zeroOr (bitsOf v 5 0) 8 40) .range
  else if off = Reg.ZN_TST_PER_CLEAR || off = Reg.ZN_TST_PER_HAZE then
    need (zeroOr (bitsOf v 5 0) 14 30 && zeroOr (bitsOf v 11 6) 18 34) .range
  else if off = Reg.ZN_TST_PER_OVC then need (zeroOr (bitsOf v 5 0) 14 30) .range
  else if off = Reg.ZN_TST_PER_T2 then
    need (zeroOr (bitsOf v 5 0) 22 38 && zeroOr (bitsOf v 11 6) 22 38) .range
  else if off = Reg.ZN_PAT_RETRY then need (zeroOr (bitsOf v 5 0) 16 32) .range
  else if off = Reg.ZN_PAT_SRC_LO || off = Reg.ZN_EXP_ADDR_LO then need (decide (bitsOf v 5 0 = 0)) .range
  else if off = Reg.ZN_SD_QUIESCE then
    Illegal.first (need (decide (n ≠ 0)) .zero) (need (pairOk (z Reg.ZN_SD_LIMIT) n) .nested)
  else if off = Reg.ZN_SD_LIMIT then
    Illegal.first (need (decide (n ≠ 0)) .zero) (need (pairOk n (z Reg.ZN_SD_QUIESCE)) .nested)
  else if off = Reg.ZN_THM_CTL then need (decide (bitsOf v 4 0 ≤ 16)) .range
  else if off = Reg.ZN_THM_LIMITS then
    need (decide (60 ≤ bitsOf v 7 0) && decide (bitsOf v 7 0 ≤ 105) && decide (60 ≤ bitsOf v 15 8) &&
      decide (bitsOf v 15 8 ≤ 95)) .range
  else if off = Reg.ZN_THM_RISE then need (zeroOr (bitsOf v 12 8) 8 24) .range
  else if off = Reg.ZN_THM_MARGIN then need (decide (bitsOf v 4 0 ≠ 0)) .zero
  else if off = Reg.ZN_HANG_FRAMES then
    need (decide (n = 0) || pairOk n (z Reg.ZN_HOST_RETRY)) .nested
  else if off = Reg.ZN_RECOV_LIMIT then
    Illegal.first (need (decide (n ≠ 0)) .zero) (need (pairOk n (z Reg.ZN_HOST_RETRY)) .nested)
  else if off = Reg.ZN_ANV_RST_LIMIT then
    Illegal.first (need (decide (n ≠ 0)) .zero) (need (pairOk (z Reg.ZN_BANK_RST_LIMIT) n) .nested)
  else if off = Reg.ZN_BANK_RST_LIMIT then
    Illegal.first (need (decide (n ≠ 0)) .zero)
      (need (pairOk n (z Reg.ZN_ANV_RST_LIMIT) && pairOk (z Reg.ZN_WDOG) n) .nested)
  else if off = Reg.ZN_WDOG then
    Illegal.first (need (decide (n ≠ 0)) .zero) (need (pairOk n (z Reg.ZN_BANK_RST_LIMIT)) .nested)
  else if off = Reg.ZN_HANG_CTL then need (decide (bitsOf v 4 1 ≠ 0)) .zero
  else if off = Reg.ZN_JNL_CKPT then need (zeroOr (bitsOf v 5 0) 24 40) .range
  else if Reg.ZN_CTR_S_CFG ≤ off ∧ off < Reg.ZN_CTR_S_CFG + 0x100 ∧ (off - Reg.ZN_CTR_S_CFG) % 0x20 = 0 then
    need (decide (6 ≤ bitsOf v 5 1) && decide (bitsOf v 5 1 ≤ 20)) .debug
  else if off = Reg.ZN_PROT_CTL then need (zeroOr (bitsOf v 4 0) 10 30) .range
  else if off = Reg.ZN_SCR_RATE then need (decide (n ≠ 0)) .zero
  else none

/-- The same for any target: in the Bank spaces a partner Bank is at most 191 (R185). -/
def Dev.illegal (d : Dev) (t : Target) (v : Word) : Option Illegal :=
  match t with
  | .zn off => d.znIllegal off v
  | .bk _ off =>
    if Reg.BK_CTX_PAIR ≤ off ∧ off < Reg.BK_CTX_PAIR + 0x400 then need (decide (bitsOf v 7 0 ≤ 191)) .range else none
  | .ws _ _ _ => none

/-! ## The value a write leaves (R482, R484) -/

/-- Bits of `old` where the mask is 0, of `new` where it is 1. -/
def maskIn (old new mask : Word) : Word := (old &&& ~~~mask) ||| (new &&& mask)

/-- The value that a write leaves in a register with this row. -/
def rowMerge (r : Reg.Row) (old v : Word) : Word :=
  let rw := w32 r.rw
  let rwm := w32 r.rwm &&& (v >>> 16)
  maskIn (maskIn old v rw) v rwm

/-- How many CMD bits a value sets. -/
def popCount : Nat → Nat → Nat
  | 0, _ => 0
  | n + 1, v => v % 2 + popCount n (v / 2)

/-! ## The order of examination (R481) -/

/-- What a write meets: a refusing row of R481, or nothing. -/
inductive Refuse where
  | notReady
  | frozen
  | hole
  | denied
  | cmds
  | value (why : Illegal)
  deriving DecidableEq, Repr

/-- The number of a register in an array of `n` registers `stride` bytes apart from `base`. -/
def idxIn (off base n stride : Nat) : Option Nat :=
  if base ≤ off ∧ off < base + n * stride ∧ (off - base) % stride = 0 then some ((off - base) / stride) else none

/-- A field placed at bit `lo`. -/
def at_ (lo v : Nat) : Nat := v * 2 ^ lo

/-- The channel of a slot in the table of a Bank: at reset channel c owns slots 4c to 4c + 3 (R141). -/
def BankAnv.slotChan (a : BankAnv) (slot : Nat) : Nat := Tbl.getK (fun s => s / 4) a.slots slot

/-- BK_ANV_SLOTn as it reads: the channels of slots 4n to 4n + 3, a write that waits for its tick included (R141). -/
def BankAnv.slotWord (a : BankAnv) (n : Nat) : Nat :=
  let ch (i : Nat) : Nat := (Tbl.find a.slotsStaged (4 * n + i)).getD (a.slotChan (4 * n + i))
  ch 0 % 16 + at_ 4 (ch 1 % 16) + at_ 8 (ch 2 % 16) + at_ 12 (ch 3 % 16)

/-- The effective owner of an entry: of the write still pending, or in force (R160). -/
def BankCc.effective (c : BankCc) (n : Nat) : Nat × Nat := (Tbl.find c.ownPend n).getD (c.owner n)

/-- The registers that hold the tables of a Bank that Zenith keeps a master copy of (R493), as they read. DEDUCED (log entry 22). -/
def Bank.tableWord (k : Bank) (off : Nat) : Option Word :=
  match idxIn off Reg.BK_ANV_SLOT 16 4 with
  | some n => some (w32 (k.anv.slotWord n))
  | none => match idxIn off Reg.BK_CTX_OWN 256 4 with
    | some n => let o := k.cc.effective n; some (w32 (o.1 % 1024 + at_ 10 (o.2 % 4)))
    | none => match idxIn off Reg.BK_CTX_PAIR 256 4 with
      | some n => let q := Tbl.get (0, 0) k.cc.pair n; some (w32 (q.1 % 256 + at_ 8 (q.2 % 256)))
      | none => none

/-- The stored value a write is merged with. -/
def Dev.stored (d : Dev) (t : Target) : Word :=
  match t with
  | .zn off => d.zreg off
  | .bk b off => ((d.bank b).tableWord off).getD ((d.bank b).reg off)
  | .ws b p off => (d.wisp b p).reg off

/-- The host port is refused: CHK_READY is 0, or Odtil runs unconfigured (R452, R453, R481 row 1). -/
def Dev.notReady (d : Dev) (p : Path) : Bool := pathHost p && (!d.start.ready || d.start.mode == .unconfigured)

/-- Lock freezes a write of this path (R481 row 2, R497). -/
def Dev.frozen (d : Dev) (p : Path) (t : Target) : Bool := (pathHost p || pathCc p) && d.locked && !t.isCcBlock

/-- The first row of R481 that refuses a write of `v` (R481). DEDUCED (log entry 16). -/
def Dev.refuse (d : Dev) (p : Path) (t : Target) (v : Word) : Option Refuse :=
  if d.notReady p then some .notReady
  else if d.frozen p t then some .frozen
  else match t.row with
    | none => some .hole
    | some r =>
      if !d.privOk p t v then some .denied
      else if 1 < popCount 32 (v &&& w32 r.cmd).toNat then some .cmds
      else match d.illegal t (rowMerge r (d.stored t) v) with
        | some why => some (.value why)
        | none => none

/-- REG_REJECT, at most one a frame (R447, R455). -/
def Dev.regReject (d : Dev) (t : Target) (v : Word) (reason : Nat) : Dev :=
  if d.regs.rejectAt = some d.clock.frame then d
  else ({ d with regs.rejectAt := some d.clock.frame }).zEvent 9 0x71 0 (w32 t.addr) v (w32 reason) 0

/-- What a refusal does: the counts and records of R481; under the clamp a write has no effect at all (R504). -/
def Dev.onRefuse (d : Dev) (p : Path) (t : Target) (v : Word) : Refuse → Dev
  | .notReady => if d.off then d else (d.regReject t v 5).bumpZ Reg.ZN_CFG_CNT_REJECT
  | .frozen => d.bumpZ Reg.ZN_ALM_CNT_FROZEN
  | .hole => d.bumpZ Reg.ZN_REG_CNT_HOLE
  | .denied =>
    if pathPriv p = 2 then
      if t.isDebug then d.bumpZ Reg.ZN_DBG_CNT_DENIED else d.bumpZ Reg.ZN_REG_CNT_DENIED
    else (d.regReject t v 4).bumpZ Reg.ZN_REG_CNT_DENIED
  | .cmds => (d.regReject t v 1).bumpZ Reg.ZN_CFG_CNT_REJECT
  | .value .range => (d.regReject t v 1).bumpZ Reg.ZN_CFG_CNT_REJECT
  | .value .zero => (d.regReject t v 2).bumpZ Reg.ZN_CFG_CNT_REJECT
  | .value .nested => (d.regReject t v 3).bumpZ Reg.ZN_CFG_CNT_REJECT
  | .value .debug => d.bumpZ Reg.ZN_DBG_CNT_REJECT

/-- A command of the host path that completes with a status of its own at Lock, where other writes are ignored without one (R268, R283, R358,
R372, R385, R433, R471). DEDUCED (log entry 16). -/
def answersLock (t : Target) (v : Word) : Bool :=
  match t with
  | .zn off =>
    (bitsOf v 1 0 = 1 && [Reg.ZN_PAT_CMD, Reg.ZN_SD_CMD, Reg.ZN_EXP_CMD, Reg.ZN_SCR_CMD, Reg.ZN_DMP_CMD].contains off) ||
      (off = Reg.ZN_REC_CLR_CMD && (bitsOf v 1 0 = 1 || bitsOf v 1 0 = 2)) ||
      (off = Reg.ZN_RECOV_CMD && (bitsOf v 2 0 = 1 || bitsOf v 2 0 = 2 || bitsOf v 2 0 = 4))
  | _ => false

/-- A write of a Zenith register: under the clamp it has no effect (R504), and a control core reaches none (R494). -/
def Dev.cmdZ (d : Dev) (p : Path) (off : Nat) (v : Word) (f : Dev → Dev) : Dev :=
  if d.off then d
  else if pathCc p then d.bumpZ Reg.ZN_REG_CNT_HOLE
  else match d.refuse p (.zn off) v with
    | some r =>
      let d1 := d.onRefuse p (.zn off) v r
      if r = .frozen && answersLock (.zn off) v then f d1 else d1
    | none => f d

/-- Record the outcome of an indirect access in the path's ZN_IND_STAT (R490). -/
def Dev.indResult (d : Dev) (p : Path) (r : Nat) : Dev := d.modPath p (fun c => { c with indResult := r })

/-- A Wisp that answers NOCLOCK: its clock is stopped, or its core is parked (R491). -/
def Dev.noClock (d : Dev) (b p : Nat) : Bool := (d.wisp b p).missed || (d.wisp b p).parked

/-- The Bank of a target. -/
def Target.bank? : Target → Option Nat
  | .zn _ => none
  | .bk b _ => some b
  | .ws b _ _ => some b

/-- RESULT of an indirect access to a target that has an address, `denied` where row 4 of R481 refuses it (R491). -/
def Dev.reach (d : Dev) (t : Target) (denied : Bool) : Nat :=
  let isolated := (t.bank?.map (fun b => (d.bank b).isolated)).getD false
  let stopped := match t with
    | .ws b q _ => d.noClock b q
    | _ => false
  if isolated then 2 else if stopped then 3 else if denied then 4 else if t.row.isNone then 5 else 0

/-- A Bank that is in reset takes writes of the tables of R493 only. DEDUCED (log entry 24). -/
def Dev.inReset (d : Dev) (t : Target) : Bool :=
  match t with
  | .bk b off => ((d.bank b).resetAt.isSome || !d.start.banksReleased) && ((d.bank b).tableWord off).isNone
  | .ws b _ _ => (d.bank b).resetAt.isSome || !d.start.banksReleased
  | .zn _ => false

/-- A write that has reached its target: refused, lost in a Bank's reset, or `f` (R481, R493). -/
def Dev.atTarget {α : Type} (d : Dev) (p : Path) (t : Target) (v : Word) (lift : Dev → α) (f : α) : α :=
  match d.refuse p t v with
  | some r => lift (d.onRefuse p t v r)
  | none => if d.inReset t then lift d else f

/-- The target belongs to the Bank whose control-core port the path is (R494). -/
def ownBank (p : Path) (t : Target) : Bool :=
  match p, t with
  | .cc own, .bk b _ => decide (own.val = b)
  | _, _ => false

/-- A command given by a CMD bit of a Bank or Wisp register, or a write of it: over the Bank's own control-core port, or through
the indirect window (R491, R494). -/
def Dev.cmdAt (d : Dev) (p : Path) (t : Target) (v : Word) (f : Dev → Dev) : Dev :=
  if d.off then d
  else if pathCc p then
    if !ownBank p t then d.bumpZ Reg.ZN_REG_CNT_HOLE
    else if d.reach t false = 2 then d
    else d.atTarget p t v id (f d)
  else if d.notReady p then d.onRefuse p t v .notReady
  else
    let r := d.reach t (decide (d.refuse p t v = some .denied))
    let d1 := d.indResult p r
    if r = 2 || r = 3 then (if d.frozen p t then d1.onRefuse p t v .frozen else d1) else d1.atTarget p t v id (f d1)

/-- The same for a Bank register. -/
def Dev.cmdB (d : Dev) (p : Path) (b off : Nat) (v : Word) (f : Dev → Dev) : Dev := d.cmdAt p (.bk b off) v f

/-- The same for a Wisp register. -/
def Dev.cmdW (d : Dev) (p : Path) (b q off : Nat) (v : Word) (f : Dev → Dev) : Dev := d.cmdAt p (.ws b q off) v f

end Sys2Proof.Machine
end

