-- ==== Sys2Proof/Machine/Records.lean ====
section
/-! DEFINITION. Event records and the journal (R360 to R382): Wisp records, the Bank ring, clearing, the journal and its
module sectors, and the commands of that chapter. -/

namespace Sys2Proof.Machine

/-! ## The Wisp record (R360 to R364) -/

/-- The histogram bin of a value, for every metric except MARGIN (R361). -/
def histBin (v : Nat) : Nat := if v = 0 then 0 else min 31 (1 + log2 v)

/-- ⌊log2 m⌋ of a positive binary32 value, from its exponent; a subnormal counts as below 2^-126. -/
def f32Log2 (m : Word) : Int :=
  let e := bitsOf m 30 23
  if e = 0 then Int.ofNat (log2 (bitsOf m 22 0)) - 149 else Int.ofNat e - 127

/-- The histogram bin of a MARGIN sample: verdict MATCH, WITHIN or BEYOND with its margin (R362). -/
def marginBin (beyond isMatch : Bool) (m : Word) : Nat :=
  if beyond then 31
  else if isMatch || bitsOf m 30 0 = 0 then 0
  else (min 30 (max 1 (31 + f32Log2 m))).toNat

/-- An extreme replaced by a strictly smaller (minimum) or strictly larger (maximum) value (R363). -/
def Extreme.update (old : Option Extreme) (isMax : Bool) (v : Word) (frame : Nat) : Option Extreme :=
  match old with
  | none => some { value := v, frame := frame }
  | some x =>
    if (isMax && decide (x.value.toNat < v.toNat)) || (!isMax && decide (v.toNat < x.value.toNat)) then
      some { value := v, frame := frame }
    else some x

/-- One sample of a metric; a frozen record does not take it and counts it (R364). -/
def Wisp.sample (w : Wisp) (metric bin : Nat) (v : Word) (frame : Nat) : Wisp :=
  if w.frozenAt.isSome then w.add Reg.WS_REC_LOST 1
  else
    let k := metric * 32 + bin
    let lo := metric * 2
    { w with
      hist := Tbl.set 0 w.hist k (Tbl.get 0 w.hist k + 1)
      extremes :=
        Tbl.set none
          (Tbl.set none w.extremes lo (Extreme.update (Tbl.get none w.extremes lo) false v frame))
          (lo + 1) (Extreme.update (Tbl.get none w.extremes (lo + 1)) true v frame) }

/-- A sample of a metric other than MARGIN (R361). -/
def Wisp.sampleNat (w : Wisp) (metric v frame : Nat) : Wisp :=
  w.sample metric (histBin v) (w32 (min v 0xFFFFFFFF)) frame

/-- The Wisp record cleared (R364). -/
def Wisp.clearRecord (w : Wisp) : Wisp :=
  { (w.setReg Reg.WS_REC_LOST 0) with hist := [], extremes := [] }

/-! ## The Bank ring (R365 to R370) -/

/-- The codes that never fold (R368). -/
def neverFolds (code : Nat) : Bool := [0x01, 0x03, 0x04, 0x05, 0x06].contains code

/-- The ring index of the record an event of this source, code and context folds into: the newest unreleased record of the
source, CW_DETAIL apart, with no REC_LOST or CLEARED after it (R368). -/
def BankRing.foldAt (r : BankRing) (source code ctx : Nat) : Nat → Nat → Option Nat
  | 0, _ => none
  | n + 1, back =>
    let i := (r.wr + 2048 - back) % 2048
    match Tbl.find r.ring i with
    | none => none
    | some x =>
      if x.code = 0x03 || x.code = 0x04 then none
      else if x.source = source && decide (x.code ≠ 0x16) then
        if x.code = code && x.ctx = ctx then some i else none
      else r.foldAt source code ctx n (back + 1)

/-- Write one record at WR; the ring has room. LOSS_BEFORE is set where the record written before it is a REC_LOST (R365). -/
def BankRing.write (r : BankRing) (x : Rec) : BankRing :=
  { r with
    ring := Tbl.put r.ring r.wr { x with flags := x.flags + 8 * bit r.afterLoss }
    wr := (r.wr + 1) % 2048
    count := r.count + 1
    afterLoss := x.code == 0x03 }

/-- The stamp of the CW_DETAIL of a record, which is accepted in the next zc (R369); an event of a Wisp keeps the frame it carries (R45). -/
def detailStamp (x : Rec) : DWord := if x.source < 264 && decide (x.ts.toNat % 2048 = 2047) then x.ts else x.ts + 1

/-- Write a check word failure with its CW_DETAIL: both follow what stands before the pair (R365, R369). -/
def BankRing.writePair (r : BankRing) (x : Rec) (got want : DWord) : BankRing :=
  (r.write { x with flags := x.flags + 16 }).write
    { x with ts := detailStamp x, code := 0x16, flags := x.flags % 2 + 8 * bit r.afterLoss,
             p0 := lo32 got, p1 := hi32 got, p2 := lo32 want, p3 := hi32 want }

/-- Count a lost event, in BK_REC_LOST and in the run a REC_LOST is owed for (R367, R370). -/
def BankRing.lose (r : BankRing) (frame : Nat) (frozen : Bool) : BankRing :=
  { r with
    lost := min 0xFFFFFFFF (r.lost + 1)
    owed := r.owed + 1
    owedFirst := if r.owed = 0 then frame else r.owedFirst
    owedLast := frame
    owedFrozen := (decide (r.owed ≠ 0) && r.owedFrozen) || frozen
    owedFull := (decide (r.owed ≠ 0) && r.owedFull) || !frozen }

/-- A record of the Bank's record store itself (R366). -/
def storeRec (frame zc code flags : Nat) (p0 p1 p2 p3 : Word) : Rec where
  ts := mkStamp frame zc
  code := code
  flags := flags
  source := 0x1FF
  ctx := 0
  rpt := 1
  p0 := p0
  p1 := p1
  p2 := p2
  p3 := p3

/-- Write the REC_LOST that is owed, where the ring has room and is not frozen (R367, R370). -/
def BankRing.flush (r : BankRing) (frame zc : Nat) : BankRing :=
  if r.owed = 0 || r.frozenAt.isSome || decide (2048 ≤ r.count) then r
  else
    { (r.write (storeRec frame zc 0x03 0 (w32 r.owed) (w32 r.owedFirst) (w32 r.owedLast)
        (w32 (bit r.owedFrozen + 2 * bit r.owedFull)))) with
      owed := 0, owedFrozen := false, owedFull := false }

/-- The fold itself: REPEAT, or SAT and BK_REC_SATURATED (R368). -/
def BankRing.foldInto (r : BankRing) (i : Nat) : BankRing :=
  match Tbl.find r.ring i with
  | none => r
  | some x =>
    if x.rpt < 65535 then { r with ring := Tbl.put r.ring i { x with rpt := x.rpt + 1 } }
    else
      { r with
        ring := Tbl.put r.ring i { x with flags := if (x.flags / 4) % 2 = 1 then x.flags else x.flags + 4 }
        saturated := r.saturated + 1 }

/-- Put an accepted event into the ring: lost, folded, or written, with its CW_DETAIL as a pair (R367 to R370). -/
def BankRing.take (r0 : BankRing) (frame zc : Nat) (x : Rec) (detail : Option (DWord × DWord)) : BankRing :=
  let r := r0.flush frame zc
  if r.frozenAt.isSome then r.lose frame true
  else if 2048 ≤ r.count then r.lose frame false
  else
    let at_ := if neverFolds x.code || decide (r.owed ≠ 0) then none else r.foldAt x.source x.code x.ctx r.count 1
    match at_, detail with
    | some i, _ => r.foldInto i
    | none, none => r.write x
    | none, some (got, want) =>
      if 2047 ≤ r.count then r.lose frame false else r.writePair x got want

/-- The presented event the round-robin arbiter serves next: the first of the source that comes next after the last one
served (R46, R54). -/
def BankRing.next (r : BankRing) : Option Nat :=
  let key (x : Presented) : Nat := (x.source + 512 - r.lastSource - 1) % 512
  let best := r.presented.foldl (fun acc x => min acc (key x)) 512
  r.presented.findIdx? (fun x => key x == best)

/-- The frame counter copy of a Bank (R39). DEDUCED (log entry 34). -/
def Dev.bankFrame (d : Dev) (b : Nat) : Nat := (d.clock.frame + (d.bank b).frameOff.toNat) % frameMod

/-- The codes whose ring record is a copy of an event that Zenith journals itself (R371, R425, R434). -/
def ringCopies (code : Nat) : Bool := [0x65, 0x78, 0x7E].contains code

/-- The record an accepted event makes, stamped by R44 and R45. -/
def Presented.toRec (x : Presented) (frame zc : Nat) : Rec where
  ts := match x.frame with
    | none => mkStamp frame zc
    | some f => if f = frame then mkStamp f zc else mkStamp f 2047
  code := x.ev.code
  flags := bit x.ev.nosent + 2 * bit (x.fwd == .journal || ringCopies x.ev.code)
  source := x.source
  ctx := x.ev.ctx
  rpt := 1
  p0 := x.ev.p0
  p1 := x.ev.p1
  p2 := x.ev.p2
  p3 := x.ev.p3

/-- The clear of one Bank, at a tick: the ring emptied, CLEARED written first and journaled, its Wisp records cleared
(R372, R373). -/
def Dev.applyClear (d : Dev) (b : Nat) : Dev :=
  match (d.bank b).ring.clearPend with
  | none => d
  | some host =>
    let d1 := d.bumpZ Reg.ZN_REC_CNT_CLEAR
    let r := (d.bank b).ring
    let p0 := w32 r.count
    let p1 := w32 r.lost
    let p2 := w32 (bit host)
    let p3 := d1.zreg Reg.ZN_REC_CNT_CLEAR
    let x := storeRec (d.bankFrame b) 0 0x04 2 p0 p1 p2 p3
    let emptied : BankRing :=
      { r with rd := r.wr, count := 0, ring := [], lost := 0, saturated := 0, owed := 0, owedFrozen := false,
               owedFull := false, afterLoss := false, clearPend := none }
    let d2 := d1.modBank b (fun k => { k with ring := emptied.write x })
    let d3 := { d2 with wisps := Tbl.mapAll Wisp.init (fun u w => if u / 264 = b then w.clearRecord else w) d2.wisps }
    d3.jPush (.event b x)

/-- Mark the clear of a Bank, or of all (0xFF), for the next tick (R372). DEDUCED (log entry 102). -/
def Dev.markClear (d : Dev) (sel : Nat) (host : Bool) : Dev :=
  if sel = 0xFF then d.modBanks (fun _ k => { k with ring.clearPend := some host })
  else d.modBank sel (fun k => { k with ring.clearPend := some host })

/-! ## The journal (R374 to R379, R418) -/

/-- The 512 bytes of a spare-remap table: POS in [8:0] and VACANT in [9] of each entry. -/
def mapBytes (map : Tbl Nat) (vacant : List Nat) : List Byte :=
  (List.range 256).flatMap (fun n => leBytes 2 (Tbl.getK (fun i => i) map n + 512 * bit (vacant.contains n)))

/-- The 8 bytes of a repair entry (R297). -/
def RepairRow.bytes (bank : Nat) (r : RepairRow) : List Byte :=
  [BitVec.ofNat 8 (r.kind + 4 * bit r.fused + 8 * bit r.badFuse), BitVec.ofNat 8 bank] ++
    leBytes 2 (r.pos + 512 * r.array) ++ leBytes 2 r.frm ++ leBytes 2 r.dst

/-- The 512 bytes of a repair table. -/
def repairBytes (bank : Nat) (rows : List RepairRow) : List Byte :=
  let l := rows.flatMap (RepairRow.bytes bank)
  l ++ List.replicate (512 - l.length) 0

/-- The bytes of words, least significant byte first. -/
def wordBytes (ws : List Word) : List Byte := ws.flatMap (fun w => leBytes 4 w.toNat)

/-- The number of bytes of an entry's body (R375, R419). -/
def JBody.bytes : JBody → Nat
  | .event _ _ => 48
  | .health _ _ _ _ _ _ => 32
  | .ages _ entries => 16 + 16 * entries.length
  | .remap _ _ _ => 528
  | .repair _ _ => 528
  | .start _ _ _ _ _ => 80
  | .cert _ => 128
  | .patslot _ _ => 16
  | .ckptBegin _ => 16
  | .ckptEnd _ _ => 16
  | .alarm _ _ _ => 16
  | .wear _ _ => 16
  | .exported _ => 48
  | .imported _ => 48

/-- The type of an entry (R375, R419). -/
def JBody.type : JBody → Nat
  | .event _ _ => 0x0001
  | .health _ _ _ _ _ _ => 0x0002
  | .ages _ _ => 0x0003
  | .remap _ _ _ => 0x0004
  | .repair _ _ => 0x0005
  | .start _ _ _ _ _ => 0x0006
  | .cert _ => 0x0007
  | .patslot _ _ => 0x0008
  | .ckptBegin _ => 0x0009
  | .ckptEnd _ _ => 0x000A
  | .alarm _ _ _ => 0x000B
  | .wear _ _ => 0x000C
  | .exported _ => 0x000D
  | .imported _ => 0x000E

/-- The 48 bytes of a SHA-384 digest in their order: the first is the most significant of the number. -/
def digestBytes (x : BitVec 384) : List Byte := (leBytes 48 x.toNat).reverse

/-- Reserved bytes. -/
def zeros (n : Nat) : List Byte := List.replicate n 0

/-- The body of an entry as bytes (R375, R419). -/
def JBody.encode : JBody → List Byte
  | .event bank r => wordBytes r.words ++ [BitVec.ofNat 8 bank] ++ zeros 15
  | .health u old new reason e ts =>
    leBytes 4 u ++ leBytes 4 (old.code + 8 * new.code + 256 * reason) ++ wordBytes e ++ leBytes 8 ts.toNat
  | .ages first es => leBytes 4 first ++ leBytes 4 es.length ++ zeros 8 ++ es.flatMap wordBytes
  | .remap bank map vacant => [BitVec.ofNat 8 bank] ++ zeros 15 ++ mapBytes map vacant
  | .repair bank rows => [BitVec.ofNat 8 bank] ++ zeros 15 ++ repairBytes bank rows
  | .start n kind cause chip digest =>
    leBytes 4 n.toNat ++ [BitVec.ofNat 8 kind] ++ zeros 3 ++ leBytes 4 cause.toNat ++ zeros 4 ++ leBytes 16 chip.toNat ++
      digestBytes digest
  | .cert ws => wordBytes ws
  | .patslot slot version => [BitVec.ofNat 8 slot] ++ zeros 7 ++ leBytes 8 version.toNat
  | .ckptBegin n => leBytes 4 n.toNat ++ zeros 12
  | .ckptEnd seq count => leBytes 8 seq.toNat ++ leBytes 4 count.toNat ++ zeros 4
  | .alarm level source ts => [BitVec.ofNat 8 level, BitVec.ofNat 8 source] ++ zeros 6 ++ leBytes 8 ts.toNat
  | .wear n stage => leBytes 8 n ++ [BitVec.ofNat 8 stage] ++ zeros 7
  | .exported digest => digestBytes digest
  | .imported digest => digestBytes digest

/-- The 16-byte header of an entry (R374). -/
def JEntry.header (e : JEntry) : List Byte :=
  leBytes 2 e.body.type ++ leBytes 2 e.body.bytes ++ leBytes 4 e.start.toNat ++ leBytes 8 e.seq

/-- An entry as bytes: header and body (R374). -/
def JEntry.encode (e : JEntry) : List Byte := e.header ++ e.body.encode

/-- An EVENT entry (R375). -/
def JBody.isEvent : JBody → Bool
  | .event _ _ => true
  | _ => false

/-- Bytes of staging in use: header and body of every staged entry (R374, R378). -/
def Journal.used (j : Journal) : Nat := sumNat (j.staging.map (fun e => 16 + e.body.bytes))

/-- An entry fits staging: the last 16 KiB take only entries other than EVENT (R378). -/
def Journal.fits (j : Journal) (b : JBody) : Bool :=
  decide (j.used + 16 + b.bytes ≤ (if b.isEvent then 245760 else 262144))

/-- Drop the oldest EVENT entries until the entry fits, or none is left (R378, a volatile journal). -/
def Journal.makeRoom (j : Journal) (b : JBody) : Nat → Journal
  | 0 => j
  | n + 1 =>
    if j.fits b then j
    else match j.staging.findIdx? (fun e => e.body.isEvent) with
      | none => j
      | some i => ({ j with staging := j.staging.eraseIdx i }).makeRoom b n

/-- Append an entry to staging under the next SEQ (R377). DEDUCED (log entry 101). -/
def Journal.stage (j : Journal) (b : JBody) : Journal :=
  { j with
    staging := j.staging ++ [{ start := j.start, seq := j.nextSeq, body := b }]
    nextSeq := (j.nextSeq + 1) % 2 ^ 64
    ckptSeq := match b with
      | .ckptBegin _ => j.nextSeq
      | _ => j.ckptSeq }

/-- An entry as it is appended: Zenith events, alarms and transitions take their stamp at acceptance (R44, R55), a CKPT_END
the SEQ of its CKPT_BEGIN (R419). -/
def Journal.stampBody (j : Journal) (frame zc : Nat) : JBody → JBody
  | .event 0xFF r => .event 0xFF { r with ts := mkStamp frame zc }
  | .health u old new reason e _ => .health u old new reason e (mkStamp frame zc)
  | .alarm l s _ => .alarm l s (mkStamp frame zc)
  | .ckptEnd _ n => .ckptEnd (BitVec.ofNat 64 j.ckptSeq) n
  | b => b

/-- The JNL_LOST event (R371). -/
def jnlLost (frame zc : Nat) (j : Journal) : JBody :=
  .event 0xFF { ts := mkStamp frame zc, code := 0x08, flags := 2, source := 7, ctx := 0, rpt := 1,
                p0 := w32 (j.lostEvents + j.lostOthers), p1 := w32 j.lostOthers, p2 := 0, p3 := 0 }

/-- Append one accepted entry, after the JNL_LOST that is owed; an entry that does not fit is lost (R376 to R378). Answers
the journal, the entries appended and whether the entry was lost. While the JNL_LOST does not fit, an entry that the last 16 KiB are for
still does. DEDUCED (log entry 172). -/
def Journal.append (j0 : Journal) (frame zc : Nat) (b0 : JBody) : Journal × Nat × Bool :=
  let b := j0.stampBody frame zc b0
  let owes := decide (j0.lostEvents + j0.lostOthers ≠ 0)
  let lost := jnlLost frame zc j0
  let (j1, n1) :=
    if owes && j0.fits lost then
      ({ (j0.stage lost) with lostEvents := 0, lostOthers := 0, ckptOwed := j0.ckptOwed || decide (j0.lostOthers ≠ 0) }, 1)
    else (j0, 0)
  let j2 := if j1.volatileRun then j1.makeRoom b j1.staging.length else j1
  if j2.fits b && (!owes || decide (n1 = 1) || !b.isEvent) then (j2.stage b, n1 + 1, false)
  else if b.isEvent then ({ j2 with lostEvents := j2.lostEvents + 1 }, n1, true)
  else ({ j2 with lostOthers := j2.lostOthers + 1 }, n1, true)

/-- The health entries of `n` units from `first` on. -/
def Dev.uhtSlice (d : Dev) (first n : Nat) : List (List Word) := (List.range n).map (fun i => d.uhtWords (first + i))

/-- The AGES entries that cover the whole table: 516 of 254 units and one of 8 (R376). -/
def Dev.agesEntries (d : Dev) : List JBody :=
  (List.range 516).map (fun i => JBody.ages (254 * i) (d.uhtSlice (254 * i) 254)) ++ [.ages 131064 (d.uhtSlice 131064 8)]

/-- A REMAP entry of a Bank (R375). -/
def Dev.remapEntry (d : Dev) (b : Nat) : JBody := .remap b (d.bank b).cc.map (d.bank b).cc.vacant

/-- A REPAIR entry of a Bank (R375). -/
def Dev.repairEntry (d : Dev) (b : Nat) : JBody := .repair b (d.bank b).repairs

/-- A PATSLOT entry (R375). -/
def Dev.patslotEntry (d : Dev) : JBody := .patslot d.pat.slot d.pat.slotVersion

/-- A complete checkpoint: CKPT_BEGIN, AGES for every unit, REMAP and REPAIR for every Bank, PATSLOT, CKPT_END (R418). -/
def Dev.checkpoint (d : Dev) : Dev :=
  let body := d.agesEntries ++ (List.range 192).map d.remapEntry ++ (List.range 192).map d.repairEntry ++ [d.patslotEntry]
  ({ d with jnl.waiting := d.jnl.waiting ++
              ([JBody.ckptBegin d.jnl.start] ++ body ++ [JBody.ckptEnd 0 (w32 body.length)]).map ArbItem.entry
            jnl.ckptOwed := false }).bumpZ Reg.ZN_JNL_CNT_CKPT

/-- Bytes of an entry on flash: header, body and tag (R412). -/
def JEntry.flashBytes (e : JEntry) : Nat := 32 + e.body.bytes

/-- Journal sectors of the bound module (R414, R415). -/
def Dev.jnlSectors (d : Dev) : Nat := (d.ledger.header.map (fun h => h.sectors)).getD 0

/-- The journal budget B_J, in sector erases (R420). -/
def Dev.wearBudget (d : Dev) : Nat :=
  match d.ledger.header with
  | none => 0
  | some h => 6 * d.cfg.endurance / 10 * h.sectors

/-- WEAR now: the header's with the erases since it was last written (R415). -/
def Dev.wear (d : Dev) : Nat := ((d.ledger.header.map (fun h => h.wear)).getD 0) + d.ledger.erasesSinceHeader

/-- The entries on the module with their sectors. -/
def Journal.durable (j : Journal) : List (Nat × JEntry) := j.sectors.flatMap (fun e => e.2.map (fun x => (e.1, x)))

/-- A complete checkpoint lies wholly in sectors that are `ok` (R418). -/
def Journal.ckptIn (j : Journal) (ok : Nat → Bool) : Bool :=
  j.durable.any (fun x => match x.2.body with
    | .ckptEnd first _ =>
      let inRange := j.durable.filter (fun y => decide (first.toNat ≤ y.2.seq) && decide (y.2.seq ≤ x.2.seq))
      decide (inRange.length = x.2.seq + 1 - first.toNat) && inRange.all (fun y => ok y.1)
    | _ => false)

/-- A checkpoint is on its way to the module. -/
def Journal.ckptComing (j : Journal) : Bool :=
  j.waiting.any (fun b => match b with
    | .entry (.ckptEnd _ _) => true
    | _ => false) ||
  j.staging.any (fun e => match e.body with
    | .ckptEnd _ _ => true
    | _ => false)

/-- The sectors that the log takes next: as many as a complete checkpoint and full staging need. DESIGN CHOICE (log entry 190). -/
def Journal.soon (j : Journal) (n k : Nat) : Bool := decide (1 ≤ (k + n - j.sector) % n) && decide ((k + n - j.sector) % n ≤ 48)

/-- The log comes near the only complete checkpoint, and none is on its way. -/
def Journal.ckptNear (j : Journal) (n : Nat) : Bool :=
  j.sectors.any (fun e => j.soon n e.1) && !j.ckptIn (fun k => !j.soon n k) && !j.ckptComing

/-- A header copy rewritten, the two in turn: WEAR brought up to date (R415). -/
def Dev.writeHeader (d : Dev) : Dev :=
  match d.ledger.header with
  | none => d
  | some h =>
    let x : LedgerHeader := { h with wear := d.wear }
    { d with
      ledger.header := some x
      ledger.copyA := if d.ledger.nextB then d.ledger.copyA else some x
      ledger.copyB := if d.ledger.nextB then some x else d.ledger.copyB
      ledger.nextB := !d.ledger.nextB
      ledger.erasesSinceHeader := 0 }

/-- A LEDGER notice: STATE, WEAR and stage (R430). -/
def Dev.ledgerNotice (d : Dev) (stage : Nat) : Dev :=
  let st := match d.ledger.state with
    | .absent => 0
    | .bound => 1
    | .foreign => 2
  d.notice 0x07 true [w32 st, w32 d.wear, w32 (d.wear / 2 ^ 32), w32 stage]

/-- A wear stage: the WEAR entry, the WEAR_STAGE event and, at ADVISE, the LEDGER notice (R420, R434). DEDUCED (log entry 104). -/
def Dev.wearStage (d : Dev) (stage : Nat) : Dev :=
  let d1 := (d.jPush (.wear d.wear stage)).zEvent 7 0x79 0 (w32 d.wear) (w32 (d.wear / 2 ^ 32)) (w32 stage) 0
  if stage = 1 then ({ d1 with ledger.advise := true }).ledgerNotice 1 else d1

/-! ## The commands -/

/-- JOURNAL_APPEND (R376): once a start has found its next SEQ (R377) the arbiter appends the entry accepted first; owed AGES, REMAP and REPAIR follow when there is
room again (R378). -/
def execJournalAppend (zc : Zc) (s : State) : Host.Outcome State Fault Refusal :=
  let d := s.dev
  let waits := d.off || (d.start.mode == .starting && decide (d.start.step ≤ 5))
  match takeItem ArbItem.isEntry [] d.jnl.waiting with
  | some (.entry b, rest) =>
    if waits then .next s else
    let (j, n, lost) := ({ d.jnl with waiting := rest }).append d.clock.frame zc.val b
    let d1 := ({ d with jnl := j }).addZ Reg.ZN_JNL_CNT_APPEND n
    let d2 := if lost then d1.bumpZ Reg.ZN_JNL_CNT_LOST else d1
    let d3 := if d2.jnl.ckptOwed && !lost then d2.checkpoint else d2
    .next { s with dev := d3 }
  | _ => .next s

/-- Every lower SEQ has been written: an entry of staging that was lost leaves a gap for good (R379, R464). -/
def Journal.contiguous (j : Journal) (seq : Nat) : Bool :=
  match j.durableSeq with
  | some k => decide (seq = k + 1)
  | none => true

/-- JOURNAL_ENTRY_DURABLE (R379): the flash controller writes the entry of the lowest SEQ into the current sector; a
volatile journal writes nothing (R378), and a WEAR entry of stage VOLATILE is the last durable one (R420). -/
def execJournalEntryDurable (s : State) : Host.Outcome State Fault Refusal :=
  let j := s.dev.jnl
  match j.staging with
  | [] => .next s
  | e :: rest =>
    if j.volatileRun || s.dev.ledger.state ≠ .bound || !s.dev.ledger.keyHeld ||
        decide (65536 < j.sectorFill + e.flashBytes) then .next s
    else
      let last := match e.body with
        | .wear _ 2 => true
        | _ => false
      .next { s with dev := { s.dev with jnl := { j with
        staging := rest
        sectors := Tbl.put j.sectors j.sector (Tbl.get [] j.sectors j.sector ++ [e])
        sectorFill := j.sectorFill + e.flashBytes
        durableSeq := if j.contiguous e.seq then some e.seq else j.durableSeq
        volatileRun := last } } }

/-- SECTOR_ERASE (R418, R420): the log takes the next sector once its present one cannot hold the next entry; a sector in use is erased only
when a complete checkpoint lies in other sectors, and one is written in time; the erase counts in WEAR. -/
def execSectorErase (s : State) : Host.Outcome State Fault Refusal :=
  let d := s.dev
  let n := d.jnlSectors
  let nextSector := if n = 0 then 0 else (d.jnl.sector + 1) % n
  let full := match d.jnl.staging with
    | [] => false
    | e :: _ => decide (65536 < d.jnl.sectorFill + e.flashBytes)
  if d.ledger.state ≠ .bound || d.jnl.volatileRun || !full || n = 0 then .next s
  else if (Tbl.get [] d.jnl.sectors nextSector).length ≠ 0 && !d.jnl.ckptIn (fun k => decide (k ≠ nextSector)) then
    .next { s with dev := if d.jnl.ckptComing then d else d.checkpoint }
  else
    let d1 := { d with
      jnl.sectors := Tbl.erase d.jnl.sectors nextSector
      jnl.sector := nextSector
      jnl.sectorFill := 64
      jnl.erases := Tbl.modify 0 d.jnl.erases nextSector (fun n => n + 1)
      ledger.erasesSinceHeader := d.ledger.erasesSinceHeader + 1 }
    let d2 := if d1.ledger.erasesSinceHeader % 4096 = 0 then d1.writeHeader else d1
    let budget := d2.wearBudget
    let d3 := if 10 * d2.wear ≥ 9 * budget && !d2.ledger.advise then d2.wearStage 1 else d2
    let d4 := if d3.jnl.ckptNear n then d3.checkpoint else d3
    .next { s with dev := if d4.wear = budget then d4.wearStage 2 else d4 }

/-- AGES_CHECKPOINT (R376): every 2^AGE_EXP F a complete checkpoint is appended; an AGE_EXP of 0 disables it. -/
def execAgesCheckpoint (s : State) : Host.Outcome State Fault Refusal :=
  let d := s.dev
  let exp := d.zf Reg.ZN_JNL_CKPT 5 0
  if exp = 0 || d.clock.frame < d.jnl.ckptAt + 2 ^ exp then .next s
  else .next { s with dev := ({ d with jnl.ckptAt := d.clock.frame }).checkpoint }

/-- A write of BK_REC_RD: the records up to the value written are released, and an owed REC_LOST is written (R367). -/
def Dev.recRd (d : Dev) (b : Nat) (v : Word) : Dev :=
  let r := (d.bank b).ring
  let dist := (bitsOf v 10 0 + 2048 - r.rd) % 2048
  if dist ≤ r.count then
    let (n, d1) := d.draw
    let r1 := { r with rd := bitsOf v 10 0, count := r.count - dist }
    d1.modBank b (fun k => { k with ring := BankRing.flush r1 (d.bankFrame b) (Config.freeZc n).val })
  else d

/-- REC_RD_WRITE. -/
def execRecRdWrite (p : Path) (bank : BankId) (value : Word) (s : State) : Host.Outcome State Fault Refusal :=
  .next (s.onDev (fun d => d.cmdB p bank.val Reg.BK_REC_RD value (fun d => d.recRd bank.val value)))

/-- Unfreeze the ring of a Bank: REC_LOST is written where events were lost (R370). -/
def Dev.recUnfreeze (d : Dev) (b : Nat) : Dev :=
  let (n, d1) := d.draw
  d1.modBank b (fun k =>
    { k with ring := ({ k.ring with frozenAt := none }).flush (d.bankFrame b) (Config.freeZc n).val })

/-- A write of BK_REC_CTL, masked (R370, R482). -/
def Dev.recFreeze (d : Dev) (b : Nat) (v : Word) : Dev :=
  if !bitOf v 16 then d
  else if bitOf v 0 then d.modBank b (fun k => { k with ring.frozenAt := some d.clock.frame })
  else if (d.bank b).ring.frozenAt.isSome then d.recUnfreeze b
  else d

/-- REC_FREEZE. -/
def execRecFreeze (p : Path) (bank : BankId) (value : Word) (s : State) : Host.Outcome State Fault Refusal :=
  .next (s.onDev (fun d => d.cmdB p bank.val Reg.BK_REC_CTL value (fun d => d.recFreeze bank.val value)))

/-- REC_FREEZE_EXPIRE (R370): FREEZE returns to 0 by itself 65,536 F after it was last written to 1. -/
def execRecFreezeExpire (bank : BankId) (s : State) : Host.Outcome State Fault Refusal :=
  match (s.dev.bank bank.val).ring.frozenAt with
  | none => .next s
  | some f => if s.dev.clock.frame < f + 65536 then .next s else .next { s with dev := s.dev.recUnfreeze bank.val }

/-- A write of WS_REC_CTL, masked (R364). -/
def Dev.wsRecFreeze (d : Dev) (b p : Nat) (v : Word) : Dev :=
  if !bitOf v 16 then d
  else d.modWisp b p (fun w => { w with frozenAt := if bitOf v 0 then some d.clock.frame else none })

/-- WS_REC_FREEZE. -/
def execWsRecFreeze (p : Path) (bank : BankId) (pos : Pos) (value : Word) (s : State) :
    Host.Outcome State Fault Refusal :=
  .next (s.onDev (fun d => d.cmdW p bank.val pos.val Reg.WS_REC_CTL value
    (fun d => d.wsRecFreeze bank.val pos.val value)))

/-- WS_REC_FREEZE_EXPIRE (R364). -/
def execWsRecFreezeExpire (bank : BankId) (pos : Pos) (s : State) : Host.Outcome State Fault Refusal :=
  match (s.dev.wisp bank.val pos.val).frozenAt with
  | none => .next s
  | some f =>
    if s.dev.clock.frame < f + 65536 then .next s
    else .next { s with dev := s.dev.modWisp bank.val pos.val (fun w => { w with frozenAt := none }) }

/-- Why a clear is refused: 3 DENIED, 5 BADBANK; 0 where the path may clear the Bank selected (R372). -/
def Dev.clearRefusal (d : Dev) (p : Path) : Nat :=
  let sel := d.zf Reg.ZN_REC_CLR_SEL 7 0
  if pathHost p && (!d.cfg.hostClear || d.locked) then 3
  else if 192 ≤ sel && sel ≠ 0xFF then 5
  else 0

/-- ARM of ZN_REC_CLR_CMD: each path keeps its own armed state (R372). -/
def Dev.recClrArm (d : Dev) (p : Path) (zc : Nat) : Dev :=
  match d.clearRefusal p with
  | 0 => (d.modPath p (fun c => { c with clearArmed := some (d.clock.frame * 2048 + zc, d.zreg Reg.ZN_REC_CLR_SEL) })).setZf
      Reg.ZN_REC_CLR_STAT 2 0 1
  | r => d.setZf Reg.ZN_REC_CLR_STAT 2 0 r

/-- REC_CLR_ARM. -/
def execRecClrArm (p : Path) (zc : Zc) (s : State) : Host.Outcome State Fault Refusal :=
  .next (s.onDev (fun d => d.cmdZ p Reg.ZN_REC_CLR_CMD 1 (fun d => d.recClrArm p zc.val)))

/-- CLEAR of ZN_REC_CLR_CMD, within 1,024 zc of this path's ARM with ZN_REC_CLR_SEL unchanged (R372). -/
def Dev.recClrClear (d : Dev) (p : Path) (zc : Nat) : Dev :=
  match d.clearRefusal p with
  | 0 =>
    let sel := d.zreg Reg.ZN_REC_CLR_SEL
    let ok := match (d.path p).clearArmed with
      | some (t, armed) => decide (d.clock.frame * 2048 + zc ≤ t + 1024) && decide (armed = sel)
      | none => false
    let d1 := d.modPath p (fun c => { c with clearArmed := none })
    if ok then (d1.markClear (bitsOf sel 7 0) (pathHost p)).setZf Reg.ZN_REC_CLR_STAT 2 0 2
    else d1.setZf Reg.ZN_REC_CLR_STAT 2 0 4
  | r => d.setZf Reg.ZN_REC_CLR_STAT 2 0 r

/-- REC_CLR_CLEAR. -/
def execRecClrClear (p : Path) (zc : Zc) (s : State) : Host.Outcome State Fault Refusal :=
  .next (s.onDev (fun d => d.cmdZ p Reg.ZN_REC_CLR_CMD 2 (fun d => d.recClrClear p zc.val)))

/-- A read that a privilege rule refuses returns 0 and is counted as R481 counts it (R481). -/
def Dev.deniedRead (d : Dev) (p : Path) (t : Target) : Dev :=
  let d1 := { d with regs.readData := 0 }
  if pathPriv p = 2 && t.isDebug then d1.bumpZ Reg.ZN_DBG_CNT_DENIED else d1.bumpZ Reg.ZN_REG_CNT_DENIED

/-- The cells of the ports are engaged (R504): reads return 0 and have no effect. While CHK_READY is 0, and unconfigured, the host
port refuses writes alone (R452, R453, R481). DEDUCED (log entry 169). -/
def Dev.readClamped (d : Dev) (_p : Path) : Bool := d.off

/-- A read of a register of a Bank or a Wisp (R491, R494): refused, or `f` with the target reached. -/
def Dev.readAt (d : Dev) (p : Path) (t : Target) (f : Dev → Dev) : Dev :=
  let zero := { d with regs.readData := 0 }
  if d.readClamped p then zero
  else if pathCc p then
    if !ownBank p t then zero.bumpZ Reg.ZN_REG_CNT_HOLE
    else if d.reach t false = 2 then zero
    else if t.row.isNone then zero.bumpZ Reg.ZN_REG_CNT_HOLE
    else f d
  else
    let r := d.reach t (t.row.isSome && !d.privReadOk p t)
    let d1 := d.indResult p r
    if r = 4 then d1.deniedRead p t
    else if r = 5 then ({ d1 with regs.readData := 0 }).bumpZ Reg.ZN_REG_CNT_HOLE
    else if r = 0 then f d1
    else { d1 with regs.readData := 0 }

/-- The same for a Bank register. -/
def Dev.readB (d : Dev) (p : Path) (b off : Nat) (f : Dev → Dev) : Dev := d.readAt p (.bk b off) f

/-- A read of BK_REC_W0 copies record IDX whole and sets VALID (R382). -/
def Dev.recW0 (d : Dev) (b : Nat) : Dev :=
  let r := (d.bank b).ring
  let ws := match Tbl.find r.ring r.idx with
    | some x => x.words
    | none => [0, 0, 0, 0, 0, 0, 0, 0]
  { (d.modBank b (fun k => { k with ring.copy := ws, ring.valid := true })) with regs.readData := ws.headD 0 }

/-- REC_W0_READ. -/
def execRecW0Read (p : Path) (bank : BankId) (s : State) : Host.Outcome State Fault Refusal :=
  .next (s.onDev (fun d => d.readB p bank.val Reg.BK_REC_W (fun d => d.recW0 bank.val)))

/-- A read of BK_REC_W7 clears VALID and increments IDX modulo 2,048 (R382). -/
def Dev.recW7 (d : Dev) (b : Nat) : Dev :=
  let w := (d.bank b).ring.copy.getD 7 0
  { (d.modBank b (fun k => { k with ring.valid := false, ring.idx := (k.ring.idx + 1) % 2048 })) with
    regs.readData := w }

/-- REC_W7_READ. -/
def execRecW7Read (p : Path) (bank : BankId) (s : State) : Host.Outcome State Fault Refusal :=
  .next (s.onDev (fun d => d.readB p bank.val (Reg.BK_REC_W + 28) (fun d => d.recW7 bank.val)))

/-- A mailbox holding words (R487). -/
def Mailbox.of (ws : List Word) : Mailbox where
  valid := true
  data := ws

/-- SNAP of ZN_JNL_SEQ_CMD: the next SEQ and the highest durable SEQ, all ones when none (R381). -/
def Dev.jnlSnap (d : Dev) (p : Path) : Dev :=
  let dur := d.jnl.durableSeq.getD 0xFFFFFFFFFFFFFFFF
  d.modPath p (fun c => { c with jnl := Mailbox.of (leWords 2 d.jnl.nextSeq ++ leWords 2 dur) })

/-- JNL_SEQ_SNAP. -/
def execJnlSeqSnap (p : Path) (s : State) : Host.Outcome State Fault Refusal :=
  .next (s.onDev (fun d => d.cmdZ p Reg.ZN_JNL_SEQ_CMD 1 (fun d => d.jnlSnap p)))

/-- READ of WS_REC_X_CMD: the extreme selected by WS_REC_X_SEL into the path's mailbox, EMPTY where it has no sample
(R363, R382). -/
def Dev.extremeRead (d : Dev) (p : Path) (b q : Nat) : Dev :=
  let w := d.wisp b q
  let sel := (w.reg Reg.WS_REC_X_SEL).toNat
  let x := Tbl.get none w.extremes (sel % 8 * 2 + sel / 8 % 2)
  let u := coreUnit b q
  let ws := match x with
    | none => [0, 0, 0]
    | some e => [e.value, lo32 (mkStamp e.frame 0), hi32 (mkStamp e.frame 0)]
  d.modPath p (fun c =>
    { c with
      extreme := Tbl.set Mailbox.init c.extreme u (Mailbox.of ws)
      extremeEmpty := if x.isNone then c.extremeEmpty.erase u ++ [u] else c.extremeEmpty.erase u })

/-- EXTREME_READ. -/
def execExtremeRead (p : Path) (bank : BankId) (pos : Pos) (s : State) : Host.Outcome State Fault Refusal :=
  .next (s.onDev (fun d => d.cmdW p bank.val pos.val Reg.WS_REC_X_CMD 1
    (fun d => d.extremeRead p bank.val pos.val)))

end Sys2Proof.Machine
end

