-- ==== Sys2Proof/Machine/Alarms.lean ====
section
/-! DEFINITION. Keys, alarms, debug access and the export (R408 to R427): the commands that raise an alarm, the debug
challenge and unlock, the DRBG reseed, and taking an export. -/

namespace Sys2Proof.Machine

/-- A source of alarm fires. While Zenith is held only the always-on slice acts: the level and the Erase (R426). -/
def Dev.alarmSource (d : Dev) (src : Nat) : Dev :=
  if d.off then
    let own := d.alarmLevelOf src
    let d1 := { d with
      aon.alarmLevel := max d.aon.alarmLevel own
      aon.raised := d.aon.raised ||| BitVec.ofNat 6 (2 ^ src) }
    if own = 3 then d1.erase else d1
  else d.raiseAlarm src

/-- VGLITCH (R424): the supply glitch detector of the always-on slice. -/
def execVglitch (s : State) : Host.Outcome State Fault Refusal := .next (s.onDev (fun d => d.alarmSource 1))

/-- CGLITCH (R36, R424): the glitch detector on ZCLK or on the always-on oscillator. -/
def execCglitch (s : State) : Host.Outcome State Fault Refusal := .next (s.onDev (fun d => d.alarmSource 2))

/-- TAMPER (R424, R426): TAMPER_N is asserted. -/
def execTamper (s : State) : Host.Outcome State Fault Refusal :=
  .next (s.onDev (fun d => d.alarmSource 3))

/-- DRBG_RESEED (R411), every 2^16 F: a reseed whose input failed a health test is not applied, raises ENTROPY and sets
ENT_FAIL; the DRBG runs on. -/
def execDrbgReseed (healthy : Bool) (s : State) : Host.Outcome State Fault Refusal :=
  if s.dev.clock.frame < s.dev.alarms.reseedAt + 65536 then .next s
  else .next (s.onDev (fun d =>
    let d1 := { d with alarms.reseedAt := d.clock.frame, alarms.entFail := !healthy }
    if healthy then d1 else d1.alarmSource 5))

/-! ## Debug access (R427) -/

/-- A key of the image's KEYS section; none where VALID is 0 (R444). -/
def Dev.imageKey (d : Dev) (i : Nat) : Option (BitVec 776) :=
  match d.cfg.keys[i]? with
  | some (true, k) => some k
  | _ => none

/-- DEBUG_CHALLENGE (R427): 32 DRBG bytes are offered for one attempt; refused while the level is Lock or higher. While Odtil is held the
port is clamped (R504, R506). -/
def execDebugChallenge (s : State) : Host.Outcome State Fault Refusal :=
  if s.dev.off || s.dev.locked then .next s
  else .next (s.onDev (fun d =>
    let (n, d1) := d.draw
    { d1 with alarms.challenge := some ((Config.drbg n).setWidth 256) }))

/-- The outcome of an attempt whose signature is good or bad (R427): success opens the port and clears the count, the third
consecutive failure raises DEBUG. -/
def Dev.debugAttempt (d : Dev) (good : Bool) : Dev :=
  let d0 := { d with alarms.challenge := none }
  if good then
    let d1 := { d0 with alarms.debugOpen := true, aon.debugFails := 0 }
    (d1.zEvent 6 0x7E 0 1 0 0 0).ringCopy 0x7E 1 0
  else
    let n := min 3 (d.aon.debugFails + 1)
    let d1 := { d0 with aon.debugFails := n }
    let d2 := (d1.zEvent 6 0x7E 0 2 (w32 n) 0 0).ringCopy 0x7E 2 (w32 n)
    if 3 ≤ n then d2.alarmSource 4 else d2

/-- The challenge as it is signed: 32 DRBG bytes followed by CHIP_ID (R427). -/
def challengeBytes (c : BitVec 256) : List Byte := leBytes 32 c.toNat ++ Crypto.chipBytes

/-- DEBUG_UNLOCK (R427): each challenge serves one attempt; at Lock or higher attempts are refused and not counted. DEDUCED (log entry 142). -/
def execDebugUnlock (signature : BitVec 768) (s : State) : Host.Outcome State Fault Refusal :=
  match s.dev.off || s.dev.locked, s.dev.alarms.challenge with
  | false, some c =>
    let good := match s.dev.imageKey 4 with
      | some k => Crypto.ecdsaVerify k (Crypto.digest (challengeBytes c)) signature
      | none => false
    .next (s.onDev (fun d => d.debugAttempt good))
  | _, _ => .next s

/-! ## Messages (R429) -/

/-- A message without its tag: the enterprise number, the header and the body. DEDUCED (log entry 145). -/
def Dev.message (d : Dev) (code flags : Nat) (seq : Word) (status : Nat) (body : List Byte) : List Byte :=
  leBytes 4 d.cfg.vendorIana ++ [1, BitVec.ofNat 8 code] ++ leBytes 2 flags ++ leBytes 4 seq.toNat ++ leBytes 2 body.length ++
    [BitVec.ofNat 8 status, 0] ++ body

/-- The AUTH tag under a session key: the first 16 bytes of the HMAC. DEDUCED (log entry 140). -/
def authTag (key : BitVec 256) (m : List Byte) : List Byte := (Crypto.hmac (Crypto.beBytes 32 key.toNat) m).take 16

/-- A message with flags of its own, and AUTH with its tag while a session is open (R429). -/
def Dev.sendable (d : Dev) (code flags : Nat) (seq : Word) (status : Nat) (body : List Byte) : List Byte :=
  match d.afsin.session with
  | none => d.message code flags seq status body
  | some key =>
    let m := d.message code (flags + 16) seq status body
    m ++ authTag key m

/-- A queued notice as it is offered: NOTICE, and ALERT where it carries one (R429, R432). -/
def Dev.noticeBytes (d : Dev) (n : Notice) : List Byte :=
  d.sendable n.code (4 + 8 * bit n.alert) (w32 n.seq) 0 (wordBytes n.body)

/-! ## What the module holds, as bytes (R412, R415) -/

/-- The 64 clear bytes of a header copy (R415). -/
def LedgerHeader.clear (h : LedgerHeader) : List Byte :=
  leBytes 4 0x5244474C ++ leBytes 2 1 ++ leBytes 2 0 ++ leBytes 16 h.chip.toNat ++ leBytes 8 h.uid.toNat ++ leBytes 8 h.gen.toNat ++
    leBytes 8 h.wear ++ leBytes 4 h.endurance ++ leBytes 2 h.slotWear0 ++ leBytes 2 h.slotWear1 ++ leBytes 4 h.sectors ++
    leBytes 4 (bit h.imported)

/-- A header copy as flash holds it: GMAC under the ledger key over the clear bytes, with an IV of all ones (R415). -/
def LedgerHeader.encode (key : BitVec 256) (h : LedgerHeader) : List Byte :=
  h.clear ++ Crypto.gcmTag (Crypto.beBytes 32 key.toNat) (List.replicate 12 0xFF) h.clear []

/-- The 64 clear bytes that begin a journal sector: MAGIC, GEN, its erase count, and the SEQ of its first entry (R415). DESIGN CHOICE (log
entry 190). -/
def sectorHead (gen : DWord) (erases firstSeq : Nat) : List Byte :=
  leBytes 4 0x5443534A ++ leBytes 8 gen.toNat ++ leBytes 4 erases ++ leBytes 8 firstSeq ++ zeros 40

/-- The IV of an entry: 0, then its SEQ. -/
def JEntry.iv (e : JEntry) : List Byte := zeros 4 ++ leBytes 8 e.seq

/-- An entry as flash holds it, sealed under the ledger key: the header in clear, the body encrypted, the tag (R412). -/
def JEntry.sealed (key : BitVec 256) (e : JEntry) : List Byte :=
  let k := Crypto.beBytes 32 key.toNat
  let ct := Crypto.gcmBody k e.iv e.body.encode
  e.header ++ ct ++ Crypto.gcmTag k e.iv e.header ct

/-! ## Exports (R422) -/

/-- The plain body of an export: health entries, maps, repair tables (R422). -/
def ExportSnap.body (x : ExportSnap) : List Byte :=
  (List.range 131072).flatMap (fun u => wordBytes (tableWords x.uht x.sweepNo x.ceSweep u)) ++
    x.maps.flatMap (fun m => mapBytes m.1 m.2) ++
    (x.repairs.zipIdx).flatMap (fun r => repairBytes r.2 r.1)

/-- The 128 clear bytes of an export (R422). -/
def Dev.exportHead (d : Dev) (x : ExportSnap) (nonce : List Byte) : List Byte :=
  leBytes 4 0x5850454C ++ leBytes 2 1 ++ leBytes 2 0 ++ Crypto.chipBytes ++ leBytes 8 d.ledger.uid.toNat ++
    leBytes 8 ((d.ledger.header.map (fun h => h.gen.toNat)).getD 0) ++ leBytes 4 d.jnl.start.toNat ++
    leBytes 4 131072 ++ leBytes 8 x.stamp.toNat ++ nonce ++ List.replicate 60 0

/-- The whole export: head, encrypted body, tag and signature; `n` is the draw that gives the nonce and `k` the one that
gives the signature's number. -/
def Dev.exportBytes (d : Dev) (x : ExportSnap) (n k : Nat) : List Byte :=
  let nonce := leBytes 12 (Config.drbg n).toNat
  let head := d.exportHead x nonce
  let ct := Crypto.gcmBody Crypto.exportKey nonce x.body
  let signed := head ++ ct ++ Crypto.gcmTag Crypto.exportKey nonce head ct
  let sig := Crypto.ecdsaSign Crypto.deviceScalar (Config.drbg k).toNat (Crypto.digest signed)
  signed ++ Crypto.beBytes 96 sig.toNat

/-- EXPORT given on a path: BUSY, LOCKED at Lock for the host, STATE unless the module is BOUND and the journal is not
volatile; otherwise it runs, and the snapshot is taken at the next tick (R422, R433). -/
def Dev.startExport (d : Dev) (host : Bool) : Dev × Nat :=
  if d.alarms.exportRunning.isSome || d.alarms.importPend.isSome then (d.setZf Reg.ZN_EXP_STAT 2 0 3, 3)
  else if host && d.locked then (d.setZf Reg.ZN_EXP_STAT 2 0 5, 5)
  else if d.ledger.state ≠ .bound || d.jnl.volatileRun then (d.setZf Reg.ZN_EXP_STAT 2 0 4, 4)
  else (({ d with alarms.exportRunning := some host, alarms.exportSnap := none }).setZf Reg.ZN_EXP_STAT 2 0 1, 1)

/-- EXPORT of ZN_EXP_CMD. -/
def execExportCmd (p : Path) (s : State) : Host.Outcome State Fault Refusal :=
  .next (s.onDev (fun d => d.cmdZ p Reg.ZN_EXP_CMD 1 (fun d => (d.startExport (pathHost p)).1)))

/-- The snapshot of a running export, taken at a tick (R422). -/
def Dev.snapExport (d : Dev) : Dev :=
  if d.alarms.exportRunning.isSome && d.alarms.exportSnap.isNone then
    let x : ExportSnap :=
      { uht := d.health.uht
        sweepNo := d.health.sweepNo
        ceSweep := d.health.ceSweep
        maps := (List.range 192).map (fun b => ((d.bank b).cc.map, (d.bank b).cc.vacant))
        repairs := (List.range 192).map (fun b => (d.bank b).repairs)
        stamp := mkStamp d.clock.frame 0 }
    { d with alarms.exportSnap := some x }
  else d

/-- Write bytes to host memory. -/
def HostMem.write (m : HostMem) (addr : Nat) (l : List Byte) : HostMem :=
  { m with bytes := (l.zipIdx).foldl (fun t x => Tbl.set 0 t ((addr + x.2) % 2 ^ 48) x.1) m.bytes }

/-- Read bytes of host memory. -/
def HostMem.read (m : HostMem) (addr n : Nat) : List Byte :=
  (List.range n).map (fun i => Tbl.get 0 m.bytes ((addr + i) % 2 ^ 48))

/-- The export address (R435). -/
def Dev.exportAddr (d : Dev) : Nat :=
  (d.zreg Reg.ZN_EXP_ADDR_LO).toNat + 2 ^ 32 * (d.zf Reg.ZN_EXP_ADDR_HI 15 0)

/-- The fragments of an export as responses to its request: an offset and up to 976 bytes each (R428, R430). -/
def Dev.fragments (d : Dev) (seq : Word) (l : List Byte) : Nat → Nat → List Byte
  | 0, _ => []
  | n + 1, off =>
    if l.length ≤ off then []
    else d.sendable 0x4C 2 seq 0 (leBytes 4 off ++ (l.drop off).take 976) ++ d.fragments seq l n (off + 976)

/-- EXPORT_DONE (R422): the export stands in host memory, or has left as response fragments; Zenith appends an EXPORT entry
and the event, and RESULT reads DONE. -/
def execExportDone (s : State) : Host.Outcome State Fault Refusal :=
  match s.dev.alarms.exportRunning, s.dev.alarms.exportSnap with
  | some host, some x =>
    let d := s.dev
    let (n, d1) := d.draw
    let (k, d2) := d1.draw
    let bytes := d.exportBytes x n k
    let d3 := ((d2.jPush (.exported (Crypto.digest bytes))).zEvent 5 0x7C 0 (if host then 1 else 2) 0 0 0).setZf
      Reg.ZN_EXP_STAT 2 0 2
    let d4 := { d3 with alarms.exportRunning := none, alarms.exportSnap := none
                        afsin.response := if host then d3.afsin.response else d3.fragments d3.alarms.exportSeq bytes bytes.length 0 }
    .next { s with dev := d4, mem := if host then s.mem.write d.exportAddr bytes else s.mem }
  | _, _ => .next s

end Sys2Proof.Machine
end

