-- ==== Sys2Proof/Machine/BlockWord.lean ====
section
/-! DEFINITION. Tensor block check words (R65 to R75, R86, R516): the word of a block, how it is examined, its signature term, and
the unit that holds a block. -/

namespace Sys2Proof.Machine

/-- The block tag (R75). -/
def blockTag (handle index : Nat) : Nat := (handle ^^^ (index * 0x9E37)) % 65536

/-- The valid bytes of block `i` of a tensor, rounded up to 16 (R66); 0 where the block has none (R67). -/
def validBytes (length i : Nat) : Nat := min 4096 (ceilDiv (length - 4096 * i) 16 * 16)

/-- The number of blocks with at least one valid byte. -/
def blockCount (length : Nat) : Nat := ceilDiv length 4096

/-- PART and VLEN of a block with `n` valid bytes (R69, R70). -/
def lengthField (n : Nat) : Nat := if n = 4096 then 0xFF else 0x200 + (n / 16 - 1)

/-- A check word (R69); a Wisp's words have NOSENT 0. -/
def checkWord (crc : Word) (tag fmt : Nat) (prov par : Bool) (valid : Nat) : DWord :=
  BitVec.ofNat 64 (crc.toNat * 2 ^ 32 + tag % 65536 * 2 ^ 16 + fmt % 16 * 2 ^ 12 + 2048 * bit prov + 1024 * bit par +
    lengthField valid)

/-- The CRC of a word. -/
def wordCrc (w : DWord) : Word := hi32 w
/-- The tag of a word. -/
def wordTag (w : DWord) : Nat := w.toNat / 2 ^ 16 % 65536
/-- The format of a word. -/
def wordFmt (w : DWord) : Nat := w.toNat / 2 ^ 12 % 16
/-- NOSENT of a word. -/
def wordNosent (w : DWord) : Bool := w.getLsbD 8
/-- PART and VLEN of a word. -/
def wordLength (w : DWord) : Nat := bit (w.getLsbD 9) * 0x200 + w.toNat % 256

/-- A malformed encoding (R70). -/
def wordMalformed (w : DWord) : Bool :=
  if w.getLsbD 9 then decide (w.toNat % 256 = 0xFF) else decide (w.toNat % 256 ≠ 0xFF)

/-- The valid bytes that a well-formed word states. -/
def wordValid (w : DWord) : Nat := if w.getLsbD 9 then (w.toNat % 256 + 1) * 16 else 4096

/-- A word with its CRC replaced (R84). -/
def withCrc (w : DWord) (crc : Word) : DWord := BitVec.ofNat 64 (crc.toNat * 2 ^ 32 + w.toNat % 2 ^ 32)

/-- A word with its tag replaced. -/
def withTag (w : DWord) (tag : Nat) : DWord :=
  BitVec.ofNat 64 (w.toNat / 2 ^ 32 * 2 ^ 32 + tag % 65536 * 2 ^ 16 + w.toNat % 65536)

/-- The term of a block in the tensor signature: PROV, PAR and NOSENT are masked (R86). -/
def sigTerm (w : DWord) (index : Nat) : DWord := (w &&& 0xFFFFFFFFFFFFF2FF) * BitVec.ofNat 64 (2 * index + 1)

/-- The sideband slot of the block at an address, of 48 bits (R68). -/
def HostMem.slot (m : HostMem) (addr : Nat) : DWord := Tbl.get 0 m.slots (addr / 4096 % 2 ^ 36)

/-- Write the sideband slot of the block at an address. -/
def HostMem.setSlot (m : HostMem) (addr : Nat) (w : DWord) : HostMem := { m with slots := Tbl.set 0 m.slots (addr / 4096 % 2 ^ 36) w }

/-- 48 GiB, the size of a tier-2 stack (R30). -/
def stackBytes : Nat := 48 * 2 ^ 30

/-- The tier-2 region of a host address (R469). -/
def Dev.regionOf (d : Dev) (addr : Nat) : Option Nat :=
  if addr < d.cfg.t2Base || d.cfg.t2Stride = 0 then none
  else
    let s := (addr - d.cfg.t2Base) / d.cfg.t2Stride
    let o := (addr - d.cfg.t2Base) % d.cfg.t2Stride
    if 16 ≤ s || stackBytes ≤ o then none else some (regionUnit s (o / (48 * 2 ^ 20)))

/-- The bytes of a tier-1 slice. -/
def sliceBytes : Nat := 4 * 2 ^ 20

/-- The unit that holds the block at a host address (R516). -/
def Dev.holderOf (d : Dev) (addr : Nat) : Option Nat :=
  if d.cfg.t1Base ≤ addr && decide (addr < d.cfg.t1Base + 50688 * sliceBytes) then
    some (sliceUnit ((addr - d.cfg.t1Base) / sliceBytes))
  else d.regionOf addr

end Sys2Proof.Machine
end

