-- ==== Sys2Proof/Machine/Resets.lean ====
section
/-! DEFINITION. Resets of an Anvil and of a Bank, and what isolation of either does to the hardware (R331, R349 to R352, R21). -/

namespace Sys2Proof.Machine

/-- A descriptor that was running or parked restarts from NEXT = 0, because its parked state is not trusted (R148, R331): its operands are read
again; a SIGCMP has none (R139). DEDUCED (log entry 55). -/
def Desc.restart (x : Desc) : Desc :=
  if x.st = .running || x.st = .parked then
    { x with st := if x.cand.op = 6 then .runnable else .fetching, next := 0, blocks := [], carried := 0 }
  else x

/-- How many descriptors a restart takes back to NEXT = 0. -/
def BankAnv.started (a : BankAnv) : Nat :=
  sumNat (a.queue.map (fun e => (e.2.filter (fun x => decide (x.st = .running) || decide (x.st = .parked))).length))

/-- The Anvil's channel contexts cleared, and its descriptors restarted (R331, R148). -/
def BankAnv.restart (a : BankAnv) : BankAnv :=
  { a with ctxs := [], queue := a.queue.map (fun e => (e.1, e.2.map Desc.restart)) }

/-- An Anvil reset begins (R349): its channels get no slots until it ends, and the partner's channels that it hosts restart with it
(R148). `cause` is 1 no progress, 2 parity, 3 command; a reset
within a Bank reset records no ANVIL_RESET of its own. `setTo` is what a SET writes if the reset succeeds (R353). DEDUCED (log entry 107). -/
def Dev.startAnvilReset (d : Dev) (b cause : Nat) (setTo : Option (Health × Nat)) : Dev :=
  let d1 := (d.bumpZ Reg.ZN_HANG_CNT_ANV_RESET).zEvent 3 0x65 0 (w32 cause) 0 0 0
  let d2 := (d1.bankEvent b 264 0x65 0 (w32 cause) 0 0 0 .nothing).modBank b (fun k =>
    { (k.add Reg.BK_ANV_RESTARTS k.anv.started) with anv := { k.anv.restart with resetAt := some d.clock.frame, setTo := setTo, resetPassed := false, resetCause := cause } })
  d2.modBank (partner b) (fun k =>
    if k.anv.isolated then { (k.add Reg.BK_ANV_RESTARTS k.anv.started) with anv := k.anv.restart } else k)

/-- The Odtil state of a Wisp after a reset of its Bank: pattern state and image are kept, and what the core's clock, supply and
throttle are doing is not Bank state (R331). -/
def Wisp.bankReset (w : Wisp) : Wisp :=
  { Wisp.init with
    pat := w.pat
    level := w.level
    missed := w.missed
    supplyLost := w.supplyLost
    parked := w.parked
    parkReq := w.parkReq
    busy := w.busy
    inProgress := w.inProgress
    wait := w.wait }

/-- A Bank as a Bank reset leaves it: the tables that Zenith reloads are kept, with the requests posted and the pattern round's
progress; the rest is cleared (R331). -/
def Bank.cleared (k : Bank) : Bank :=
  { Bank.init with
    isolated := k.isolated
    isolatedAt := k.isolatedAt
    resetAt := k.resetAt
    setTo := k.setTo
    resetCause := k.resetCause
    pairLostAt := k.pairLostAt
    anv := { Bank.init.anv with
      slots := k.anv.slots, slotsStaged := k.anv.slotsStaged, isolated := k.anv.isolated,
      isolatedAt := k.anv.isolatedAt, resetAt := k.anv.resetAt,
      setTo := k.anv.setTo, resetCause := k.anv.resetCause }
    cc := k.cc
    repairs := k.repairs
    newRows := k.newRows
    srep := k.srep
    arrayDone := k.arrayDone
    arrayFail := k.arrayFail
    patRepair := k.patRepair }

/-- A Bank reset begins (R351): the Bank domain is cleared and its Anvil is reset. Unread records are counted. `cause` is 1 no
summary, 2 command, 3 SET. DEDUCED (log entry 106). -/
def Dev.startBankReset (d : Dev) (b cause : Nat) (setTo : Option (Health × Nat)) : Dev :=
  let k := d.bank b
  let d1 := ((d.addZ Reg.ZN_HANG_CNT_BANKLOST k.ring.count).bumpZ Reg.ZN_HANG_CNT_BANK_RESET).zEvent 3 0x67 0 (w32 b)
    (w32 cause) 0 0
  let d2 := { d1 with
    wisps := Tbl.mapAll Wisp.init (fun u w => if u / 264 = b then w.bankReset else w) d1.wisps
    dbg.due := d1.dbg.due.filter (fun (e : Nat × Nat) => decide (e.1 % 192 ≠ b))
    dbg.snaps := d1.dbg.snaps.filter (fun (e : Nat × List CoreSnap) => decide (e.1 % 192 ≠ b)) }
  d2.modBank b (fun k =>
    let c := k.cleared
    { c with
      resetAt := some d.clock.frame
      setTo := setTo
      resetCause := cause
      anv := if c.anv.isolated then c.anv else { c.anv with resetAt := some d.clock.frame, resetCause := cause } })

/-- Both Anvils of a pair are isolated (R21). -/
def Dev.pairLost (d : Dev) (b : Nat) : Bool := (d.bank b).anv.isolated && (d.bank (partner b)).anv.isolated

/-- The Anvil's clock is stopped and its channels move to the paired Anvil, whose slot table is replaced (R350, R148); ANVIL_ISOLATED is
recorded. -/
def Dev.anvilOff (d : Dev) (b : Nat) : Dev :=
  let d1 := ((d.bumpZ Reg.ZN_HANG_CNT_ANV_ISO).zEvent 3 0x66 0 (w32 b) 0 0 0).modBank b (fun k =>
    { (k.add Reg.BK_ANV_RESTARTS k.anv.started) with anv := { k.anv.restart with isolated := true, isolatedAt := d.clock.frame, resetAt := none, setTo := none, resetPassed := false } })
  if d1.pairLost b then
    (d1.modBank b (fun k => { k with pairLostAt := some d.clock.frame })).modBank (partner b)
      (fun k => { k with pairLostAt := some d.clock.frame })
  else d1.modBank (partner b) (fun k => { k with anv.hostTable := !(d.bank b).isolated })

/-- Mark every context at Gate or above that owns a core of the Bank to fail at its next step boundary (R352). -/
def Dev.markLostFail (d : Dev) (b : Nat) : Dev :=
  { d with ctxs := Tbl.mapAll Ctx.init (fun c x =>
      if x.core.state = .active && decide (3 ≤ x.core.level) && (d.bank b).owns c then { x with core.lostFailPend := true }
      else x) d.ctxs }

/-- The hardware side of a Bank's isolation (R352): no tick and no data channel, its contexts at Gate marked, dropped from the
rounds in progress (R280); BANK_ISOLATED is recorded. -/
def Dev.bankOff (d : Dev) (b : Nat) : Dev :=
  let d1 := (d.bumpZ Reg.ZN_HANG_CNT_BANK_ISO).zEvent 3 0x68 0 (w32 b) 0 0 0
  let d2 := d1.modBank b (fun k =>
    { k with isolated := true, isolatedAt := d.clock.frame, resetAt := none, setTo := none
             patOut := [], patWord := 0, patArrive := []
             anv := { k.anv.restart with isolated := true, isolatedAt := d.clock.frame, resetAt := none, setTo := none, resetPassed := false } })
  let left := d.pat.banksLeft.filter (fun x => decide (x ≠ b))
  { (d2.markLostFail b) with pat.banksLeft := left, pat.phase := if left.isEmpty && decide (2 ≤ d.pat.phase) then 0 else d.pat.phase }

end Sys2Proof.Machine
end

