-- ==== Sys2Proof/Machine/Health.lean ====
section
/-! DEFINITION. The health engine (R227 to R241, R257): charges, observations, test results, transitions, the age rules, the CE
window, and reading and setting entries. -/

namespace Sys2Proof.Machine

/-! ## Reason codes (R239) -/

/-- Reason codes of R239, under the manual's names. -/
def rPRIOR : Nat := 0x01
def rBEYOND : Nat := 0x02
def rCW : Nat := 0x03
def rCE_RATE : Nat := 0x04
def rTHERMAL : Nat := 0x05
def rOVERDUE : Nat := 0x06
def rT2_FAIL : Nat := 0x09
def rREPRO : Nat := 0x0A
def rSPLIT : Nat := 0x0B
def rREDUNDANT : Nat := 0x0C
def rANVIL_DISAGREE : Nat := 0x0D
def rUNWATCHED : Nat := 0x0E
def rPATTERN_MISSING : Nat := 0x0F
def rSECOND : Nat := 0x10
def rCLEAN : Nat := 0x11
def rQUALIFIED : Nat := 0x12
def rDEEP_PASS : Nat := 0x13
def rHOST_REPORT : Nat := 0x15
def rISOLATED : Nat := 0x16
def rRETIRED : Nat := 0x17

/-! ## Due tests (R243, R254) -/

/-- The tier an on-demand request still asks of a core: one of its set without a PASS or a FAIL (R255). DEDUCED (log entry 76). -/
def Dev.reqTier (d : Dev) (u : Nat) : Option Nat :=
  match d.health.request with
  | some r => if r.running && r.units.contains u && 2 ≤ Tbl.get 3 r.results u then some r.tier else none
  | none => none

/-- A test of the core is due, scheduled or on demand. -/
def Dev.isDue (d : Dev) (u : Nat) : Bool := (d.uht u).due || (d.reqTier u).isSome

/-- The tier that is due: the deepest (R243, R255). -/
def Dev.tierDue (d : Dev) (u : Nat) : Nat :=
  max (if (d.uht u).due then (d.uht u).dueTier else 0) ((d.reqTier u).getD 0)

/-- DUE set for a tier; a test already due keeps its frame and the deeper tier. -/
def UhtEntry.makeDue (e : UhtEntry) (tier now : Nat) : UhtEntry :=
  if e.due then { e with dueTier := max e.dueTier tier }
  else { e with due := true, dueTier := tier, dueAt := now, overdue := false }

/-- The Wisp of a core is asked to check its image, which it does where it holds one (R275). DEDUCED (log entry 187). -/
def Dev.askCheck (d : Dev) (core : Nat) : Dev :=
  d.modWisp (core / 264) (core % 264) (fun w => if w.pat.valid then { w with pat.checking := true } else w)

/-- No test due. -/
def UhtEntry.clearDue (e : UhtEntry) : UhtEntry := { e with due := false, dueTier := 0, overdue := false }

/-! ## Transitions (R234, R238) -/

/-- The entry after a transition into `new`: counts since entry start again; entry into Dawn makes T1 due and into Overcast T2,
and Eclipse has no tests (R236, R243). -/
def UhtEntry.enter (e : UhtEntry) (core : Bool) (new : Health) (reason now : Nat) : UhtEntry :=
  let e1 := { e with state := new, reason := reason, charges := 0, fails := 0, overdueTier := none }
  if !core then e1
  else match new with
    | .dawn => { (e1.makeDue 1 now) with cleanSamples := 0, t1ok := false }
    | .overcast => { (e1.makeDue 2 now) with t2ran := false }
    | .eclipse => e1.clearDue
    | _ => e1

/-- The counter of transitions into a state; Dawn has none. -/
def Dev.countInto (d : Dev) (new : Health) : Dev :=
  match new with
  | .dawn => d
  | .clear => d.bumpZ Reg.ZN_UHT_CNT_CLEAR
  | .haze => d.bumpZ Reg.ZN_UHT_CNT_HAZE
  | .overcast => d.bumpZ Reg.ZN_UHT_CNT_OVERCAST
  | .eclipse => d.bumpZ Reg.ZN_UHT_CNT_ECLIPSE

/-- Mark the logical core that a position serves to be remapped (R251). -/
def Dev.markRemap (d : Dev) (b p : Nat) : Dev :=
  match (d.bank b).cc.logicalOf p with
  | some n =>
    d.modBank b (fun k => { k with cc.remapDue := if k.cc.remapDue.contains n then k.cc.remapDue else k.cc.remapDue ++ [n] })
  | none => d

/-- The logical core that a position serves is not to be remapped after all (R257). -/
def Dev.unmarkRemap (d : Dev) (b p : Nat) : Dev :=
  d.modBank b (fun k => { k with
    cc.remapDue := match k.cc.logicalOf p with
      | some n => k.cc.remapDue.filter (fun x => decide (x ≠ n))
      | none => k.cc.remapDue })

/-- The core that a core unit or a tier-1 slice stands at. -/
def coreOfUnit (u : Nat) : Option Nat :=
  match unitKind u with
  | .core => some u
  | .slice => some (u - 50688)
  | _ => none

/-- A transition: the entry, its counter, the HEALTH entry and notice, ALERT_N into Eclipse, and the remap of R251. DEDUCED (log entry 73). -/
def Dev.transition (d : Dev) (u : Nat) (new : Health) (reason : Nat) : Dev :=
  let old := d.healthOf u
  let d0 := (d.modUht u (fun e => e.enter (unitKind u == .core) new reason d.health.graceClock)).countInto new
  let d1 := if unitKind u == .core && (d0.uht u).due && !(d.uht u).due then d0.askCheck u else d0
  let ws := d1.uhtWords u
  let ts := mkStamp d.clock.frame 0
  let d2 := (d1.jPush (.health u old new reason ws ts)).notice 0x01 (new == .eclipse)
    ([w32 u, w32 (old.code + 8 * new.code + 256 * reason)] ++ ws ++ [lo32 ts, hi32 ts])
  let remap := new == .eclipse || (new == .overcast && bitOf (d.zreg Reg.ZN_TST_CTL) 4)
  match coreOfUnit u with
  | some c => if remap then d2.markRemap (c / 264) (c % 264) else d2
  | none => d2

/-- CLEAN_AGE to 0: the unit's visits so far become its base. -/
def Dev.zeroAge (d : Dev) (u : Nat) : Dev := d.modUht u (fun e => { e with cleanBase := Int.ofNat (d.visits u) })

/-- CLEAN_AGE in frames, as the saturating field holds it. -/
def Dev.cleanFrames (d : Dev) (u : Nat) : Nat := 256 * min 0xFFFFFFFF (ageOf (d.visits u) (d.uht u).cleanBase)

/-- An observation applied (R232): CLEAN_AGE to 0; Dawn and Clear go to Haze, other states stay. DEDUCED (log entry 77). -/
def Dev.observeRaw (d : Dev) (u reason : Nat) : Dev :=
  let from_ := d.healthOf u
  let tier := (d.uht u).dueTier
  let d1 := d.zeroAge u
  let d2 := if from_ = .dawn ∨ from_ = .clear then d1.transition u .haze reason else d1
  if from_ = .clear ∧ reason = rOVERDUE then d2.modUht u (fun e => { e with overdueTier := some tier }) else d2

/-- UNWATCHED of a core; the cause stays in force until its Bank returns (R352, R234). -/
def Dev.unwatchRaw (d : Dev) (u : Nat) : Dev :=
  (d.observeRaw u rUNWATCHED).modUht u (fun e => { e with unwatched := true })

/-- UNWATCHED for the 264 cores of a Bank. -/
def Dev.unwatch (d : Dev) (b : Nat) : Dev := (List.range 264).foldl (fun acc p => acc.unwatchRaw (coreUnit b p)) d

/-- A unit to Eclipse where it is not there yet. -/
def Dev.toEclipse (d : Dev) (u reason : Nat) : Dev :=
  if d.healthOf u = .eclipse then d else d.transition u .eclipse reason

/-- What Eclipse of a unit brings by R237: an Anvil or a Bank is isolated. -/
def Dev.afterEclipse (d : Dev) (u : Nat) : Dev :=
  if d.healthOf u ≠ .eclipse then d
  else match unitKind u with
    | .anvil =>
      let b := u - 117760
      if (d.bank b).anv.isolated then d else d.anvilOff b
    | .bank =>
      let b := u - 117952
      if (d.bank b).isolated then d else ((d.toEclipse (anvilUnit b) rISOLATED).unwatch b).bankOff b
    | _ => d

/-- A charge applied (R230, R234). -/
def Dev.chargeRaw (d : Dev) (u reason : Nat) : Dev :=
  let frames := d.cleanFrames u
  let d1 := (d.zeroAge u).modUht u (fun e => { e with charges := min 15 (e.charges + 1) })
  let k := d.zf Reg.ZN_UHT_WIN 5 0
  let d2 := match d.healthOf u with
    | .eclipse => d1
    | .overcast =>
      if reason = rREPRO then d1.transition u .eclipse rREPRO
      else if unitKind u = UnitKind.core then d1
      else d1.transition u .eclipse reason
    | .haze =>
      if reason = rREPRO then d1.transition u .eclipse rREPRO
      else if k ≠ 0 && decide (frames < 2 ^ k) then d1.transition u .overcast rSECOND
      else d1.transition u .haze reason
    | _ =>
      if reason = rREPRO then d1.transition u .eclipse rREPRO else d1.transition u .haze reason
  d2.afterEclipse u

/-- A Dawn core with a T1 or T2 PASS and enough clean samples is Clear (R235). -/
def Dev.qualify (d : Dev) (u : Nat) : Dev :=
  let e := d.uht u
  if e.state = .dawn && e.t1ok && decide (d.zf Reg.ZN_UHT_DAWN 15 0 ≤ e.cleanSamples) then d.transition u .clear rQUALIFIED
  else d

/-- A clean sample: counted in Dawn only (R236). -/
def Dev.sampleRaw (d : Dev) (u : Nat) : Dev :=
  if unitKind u = .core && d.healthOf u == .dawn then
    (d.modUht u (fun e => { e with cleanSamples := min 0xFFFF (e.cleanSamples + 1) })).qualify u
  else d

/-- A correctable error report (R233). -/
def Dev.ceRaw (d : Dev) (u : Nat) : Dev :=
  if d.zf Reg.ZN_UHT_CE 13 8 = 0 then d
  else
    let e := d.uht u
    let vis := d.visits u
    let fresh := visitsAt d.health.ceSweep u < vis ∧ e.ceVis ≤ visitsAt d.health.ceSweep u
    let raised := e.ceRaised && !decide fresh
    let ce := min 127 (e.ceNow vis (visitsAt d.health.ceSweep u) + 1)
    let trip := !raised && decide (d.zf Reg.ZN_UHT_CE 6 0 < ce)
    let d1 := d.modUht u (fun e => { e with ce := ce, ceVis := vis, ceRaised := raised || trip })
    if trip then d1.observeRaw u rCE_RATE else d1

/-- The tier-1 slice beneath a core after a T2 of the core (R234, R235, R237). -/
def Dev.sliceAfterT2 (d : Dev) (core : Nat) (pass : Bool) : Dev :=
  let u := sliceUnit core
  let e := d.uht u
  if pass then
    match e.state with
    | .overcast => if e.charges = 0 then d.transition u .haze rDEEP_PASS else d
    | .dawn => d.transition u .clear rQUALIFIED
    | _ => d
  else
    let d1 := d.modUht u (fun e => { e with fails := min 15 (e.fails + 1) })
    match e.state with
    | .overcast => d1.transition u .eclipse rT2_FAIL
    | .eclipse => d1
    | _ => d1.transition u .overcast rT2_FAIL

/-- A PASS resets the ages of its tier and of every shallower one (R243). -/
def UhtEntry.resetAges (e : UhtEntry) (tier vis : Nat) : UhtEntry :=
  { e with
    t0Base := Int.ofNat vis
    t1Base := if 1 ≤ tier then Int.ofNat vis else e.t1Base
    t2Base := if 2 ≤ tier then Int.ofNat vis else e.t2Base }

/-- A PASS applied (R234, R235, R243): of a core at a tier, or, as tier 2, the self-test of an Anvil or a Bank (R237). A result of a
core in Eclipse makes no transition (R255). -/
def Dev.passRaw (d : Dev) (u tier : Nat) : Dev :=
  match unitKind u with
  | .core =>
    let e := d.uht u
    let covers := e.due && decide (e.dueTier ≤ tier)
    let d1 := d.modUht u (fun e =>
      let e1 := e.resetAges tier (d.visits u)
      let e2 := { e1 with voided := false, t1ok := e1.t1ok || decide (1 ≤ tier), t2ran := e1.t2ran || decide (tier = 2) }
      if covers then e2.clearDue else e2)
    let overdueDone : Bool := match e.overdueTier with
      | some t => decide (t ≤ tier) && decide (e.state = .haze) && decide (e.reason = rOVERDUE) && decide (e.charges = 0)
      | none => false
    let d2 :=
      if e.state = .overcast && tier = 2 && e.charges = 0 then d1.transition u .haze rDEEP_PASS
      else if overdueDone then d1.transition u .clear rCLEAN
      else d1.qualify u
    if tier = 2 && e.state ≠ .eclipse then d2.sliceAfterT2 u true else d2
  | .anvil => if d.healthOf u = .dawn then d.transition u .clear rQUALIFIED else d
  | .bank => if d.healthOf u = .dawn then d.transition u .clear rQUALIFIED else d
  | _ => d

/-- A FAIL applied (R234): a T2 FAIL ends in Eclipse, a T0 or T1 FAIL in Overcast; the slice follows a core's T2 FAIL. A result of a core
in Eclipse makes no transition (R255). -/
def Dev.failRaw (d : Dev) (u tier : Nat) : Dev :=
  let core := unitKind u == .core
  let e := d.uht u
  let d1 := d.modUht u (fun e =>
    let e1 := { e with fails := min 15 (e.fails + 1) }
    if core then
      let e2 := { e1 with voided := false, t2ran := e1.t2ran || decide (tier = 2) }
      if e.due && decide (e.dueTier ≤ tier) then e2.clearDue else e2
    else e1)
  let d2 := match e.state with
    | .eclipse => d1
    | .overcast => if tier = 2 then d1.transition u .eclipse rT2_FAIL else d1
    | _ => if tier = 2 then d1.transition u .eclipse rT2_FAIL else d1.transition u .overcast (7 + tier)
  let d3 := d2.afterEclipse u
  if core && decide (tier = 2) && e.state ≠ .eclipse then d3.sliceAfterT2 u false else d3

/-- The entry that SET writes (R257). A reserved reason code is never written (R239): REASON stays. DESIGN CHOICE (log entry 173). -/
def Dev.writeSet (d : Dev) (u : Nat) (st : Health) (reason : Nat) : Dev :=
  let left := d.healthOf u == .eclipse && st != .eclipse
  let d0 := match coreOfUnit u with
    | some c => if left then d.unmarkRemap (c / 264) (c % 264) else d
    | none => d
  let d1 := ((d0.zeroAge u).bumpZ Reg.ZN_UHT_CNT_SET).transition u st (if reason ≤ rRETIRED then reason else (d.uht u).reason)
  if left then d1 else d1.afterEclipse u

/-- Apply a health event (R234). -/
def Dev.applyHealth (d : Dev) (u : Nat) : HEvent → Dev
  | .charge r => d.chargeRaw u r
  | .observe r => d.observeRaw u r
  | .sample => d.sampleRaw u
  | .ce => d.ceRaw u
  | .testPass tier => d.passRaw u tier
  | .testFail tier => d.failRaw u tier
  | .testVoid => d.modUht u (fun e => { e with voided := true })
  | .isolate => (d.toEclipse u rISOLATED).afterEclipse u
  | .retire => (d.toEclipse u rRETIRED).afterEclipse u
  | .eclipsed r => d.toEclipse u r
  | .unwatched => d.unwatchRaw u
  | .watched => d.modUht u (fun e => { e with unwatched := false })
  | .patMissing => (d.modUht u (fun e => { e with patMissing := true })).observeRaw u rPATTERN_MISSING
  | .patPresent => d.modUht u (fun e => { e with patMissing := false })
  | .set st reason => d.writeSet u st reason

/-- A health event accepted by the journal arbiter: applied now, or at resume where a global stop is in force (R23, R58). -/
def Dev.hEvent (d : Dev) (u : Nat) (ev : HEvent) : Dev :=
  if unitKind u = .reserved then d
  else if d.clock.stopped then { d with clock.stopHealth := d.clock.stopHealth ++ [(u, ev)] }
  else d.applyHealth u ev

/-- A Bank isolated (R352): its unit and its Anvil's to Eclipse, its cores UNWATCHED, and R352's hardware side. In a stop the entries
wait for its end. -/
def Dev.isolateBank (d : Dev) (b : Nat) : Dev :=
  let d1 := (d.hEvent (bankUnit b) (.eclipsed rISOLATED)).hEvent (anvilUnit b) (.eclipsed rISOLATED)
  ((List.range 264).foldl (fun (acc : Dev) p => acc.hEvent (coreUnit b p) .unwatched) d1).bankOff b

/-- An Anvil isolated (R350). -/
def Dev.isolateAnvil (d : Dev) (b : Nat) : Dev := (d.hEvent (anvilUnit b) (.eclipsed rISOLATED)).anvilOff b

/-! ## The age rules at a sweep visit (R228, R243, R246) -/

/-- The tier whose age has reached its period in the core's state, the deepest first (R243). -/
def Dev.tierReached (d : Dev) (u ahead : Nat) : Option Nat :=
  let e := d.uht u
  let vis := d.visits u
  let hit (base : Int) (k : Nat) : Bool := k ≠ 0 && decide (2 ^ k ≤ 256 * ageOf vis base + ahead)
  let pick (t0 t1 t2 : Bool) : Option Nat := if t2 then some 2 else if t1 then some 1 else if t0 then some 0 else none
  let per (reg hi lo : Nat) : Nat := d.zf reg hi lo
  match e.state with
  | .dawn => if e.t1ok then none else some 1
  | .clear =>
    pick (hit e.t0Base (per Reg.ZN_TST_PER_CLEAR 5 0)) (hit e.t1Base (per Reg.ZN_TST_PER_CLEAR 11 6))
      (hit e.t2Base (per Reg.ZN_TST_PER_T2 5 0))
  | .haze =>
    pick (hit e.t0Base (per Reg.ZN_TST_PER_HAZE 5 0)) (hit e.t1Base (per Reg.ZN_TST_PER_HAZE 11 6))
      (hit e.t2Base (per Reg.ZN_TST_PER_T2 11 6))
  | .overcast => if e.t2ran then none else pick (hit e.t0Base (per Reg.ZN_TST_PER_OVC 5 0)) false false
  | .eclipse => none

/-- A field test is in progress on the core. -/
def Dev.testing (d : Dev) (u : Nat) : Bool := (Tbl.get none (d.bank (u / 264)).tests (u % 264)).isSome

/-- DUE set, which asks the core's Wisp for an image check (R243, R275). -/
def Dev.setDue (d : Dev) (u tier : Nat) : Dev := (d.modUht u (fun e => e.makeDue tier d.health.graceClock)).askCheck u

/-- TEST_DUE (R243): at a sweep visit whose age has reached a period. -/
def execTestDue (u : UnitId) (s : State) : Host.Outcome State Fault Refusal :=
  let d := s.dev
  if d.clock.stopped || unitKind u.val ≠ .core then .next s
  else match d.tierReached u.val 0 with
    | none => .next s
    | some t => .next { s with dev := d.setDue u.val t }

/-- GRACE_EXPIRE (R246): a due test that has not started GRACE frames after DUE was set; once while it stays overdue. -/
def execGraceExpire (u : UnitId) (s : State) : Host.Outcome State Fault Refusal :=
  let d := s.dev
  let e := d.uht u.val
  if d.clock.stopped || unitKind u.val ≠ .core || !e.due || e.overdue || d.testing u.val then .next s
  else if d.health.graceClock < e.dueAt + d.zf Reg.ZN_TST_GRACE 24 0 then .next s
  else .next (s.onDev (fun d =>
    ((d.bumpZ Reg.ZN_TST_CNT_OVERDUE).hEvent u.val (.observe rOVERDUE)).modUht u.val (fun e => { e with overdue := true })))

/-- HAZE_CLEAR_AGE (R234): a Haze unit clean for 2^CLEAN_EXP F, with no test due and no cause in force. -/
def execHazeClearAge (u : UnitId) (s : State) : Host.Outcome State Fault Refusal :=
  let d := s.dev
  let e := d.uht u.val
  let k := d.zf Reg.ZN_UHT_WIN 13 8
  if d.clock.stopped || unitKind u.val = .reserved || k = 0 || e.state ≠ .haze || d.isDue u.val || e.unwatched || e.patMissing
  then .next s
  else if d.cleanFrames u.val < 2 ^ k then .next s
  else .next { s with dev := d.transition u.val .clear rCLEAN }

/-- The kinds that qualify by age (R235). -/
def agesOut : UnitKind → Bool
  | .slice => true
  | .region => true
  | .lane => true
  | .channel => true
  | _ => false

/-- DAWN_AGE_QUALIFY (R235): a Dawn unit of a kind that qualifies by age, clean for 2^DAWN_EXP F. -/
def execDawnAgeQualify (u : UnitId) (s : State) : Host.Outcome State Fault Refusal :=
  let d := s.dev
  let k := d.zf Reg.ZN_UHT_DAWN_AGE 5 0
  if d.clock.stopped || !agesOut (unitKind u.val) || k = 0 || d.healthOf u.val ≠ .dawn then .next s
  else if d.cleanFrames u.val < 2 ^ k then .next s
  else .next { s with dev := d.transition u.val .clear rQUALIFIED }

/-- An entry whose CE a pending restart has cleared, settled before the next restart (R233). -/
def UhtEntry.settleCe (e : UhtEntry) (vis visRestart : Nat) : UhtEntry :=
  if visRestart < vis ∧ e.ceVis ≤ visRestart then { e with ce := 0, ceVis := 0, ceRaised := false } else e

/-- CE_WINDOW_RESTART (R233), every 2^CE_EXP F; each entry's CE is cleared at its next visit. -/
def execCeWindowRestart (s : State) : Host.Outcome State Fault Refusal :=
  let d := s.dev
  let k := d.zf Reg.ZN_UHT_CE 13 8
  if k = 0 || decide (d.clock.frame < d.health.ceWindow + 2 ^ k) then .next s
  else
    let table := Tbl.mapAll UhtEntry.init
      (fun u e => e.settleCe (visitsAt d.health.sweepNo u) (visitsAt d.health.ceSweep u)) d.health.uht
    .next { s with dev :=
      { d with health := { d.health with uht := table, ceWindow := d.clock.frame, ceSweep := d.health.sweepNo } } }

/-! ## Reading and setting entries (R257, R353) -/

/-- READ of ZN_UHT_CMD: the selected entry into the path's mailbox (R258, R487). -/
def Dev.uhtRead (d : Dev) (p : Path) : Dev :=
  let ws := d.uhtWords (d.zf Reg.ZN_UHT_SEL 16 0)
  d.modPath p (fun c => { c with uht := Mailbox.of ws })

/-- UHT_READ. -/
def execUhtRead (p : Path) (s : State) : Host.Outcome State Fault Refusal :=
  .next (s.onDev (fun d => d.cmdZ p Reg.ZN_UHT_CMD 1 (fun d => d.uhtRead p)))

/-- The unit is in Eclipse, or will be when a stop ends. -/
def Dev.unitOut (d : Dev) (u : Nat) : Bool :=
  d.healthOf u == .eclipse || d.clock.stopHealth.contains (u, HEvent.eclipsed rISOLATED)

/-- SET of a unit (R257): a reserved index or state is ignored; an isolated Anvil or Bank taken out of Eclipse starts a reset,
and the entry is written when that succeeds (R353). -/
def Dev.setUnit (d : Dev) (u stCode reason : Nat) : Dev :=
  match Health.ofCode stCode, unitKind u with
  | none, _ => d
  | _, .reserved => d
  | some st, .anvil =>
    let b := u - 117760
    if (d.bank b).anv.isolated && d.unitOut u && st ≠ .eclipse then d.startAnvilReset b 3 (some (st, reason))
    else d.hEvent u (.set st reason)
  | some st, .bank =>
    let b := u - 117952
    if (d.bank b).isolated && d.unitOut u && st ≠ .eclipse then d.startBankReset b 3 (some (st, reason))
    else d.hEvent u (.set st reason)
  | some st, _ => d.hEvent u (.set st reason)

/-- SET of ZN_UHT_CMD, with ZN_UHT_SETVAL. DEDUCED (log entry 78). -/
def Dev.uhtSet (d : Dev) : Dev :=
  d.setUnit (d.zf Reg.ZN_UHT_SEL 16 0) (d.zf Reg.ZN_UHT_SETVAL 2 0) (d.zf Reg.ZN_UHT_SETVAL 15 8)

/-- UHT_SET. -/
def execUhtSet (p : Path) (s : State) : Host.Outcome State Fault Refusal :=
  .next (s.onDev (fun d => d.cmdZ p Reg.ZN_UHT_CMD 2 Dev.uhtSet))

end Sys2Proof.Machine
end

