-- ==== Sys2Proof/Machine/Launch.lean ====
section
/-! DEFINITION. Seeds, ZCLK, timestamps and the launch table (R24, R35, R36, R43, R51, R62, R63). -/

namespace Sys2Proof.Machine

/-! ## Seeds (R24) -/

/-- The seed of a frame under its period's key: bits [63:0] of AES-256 over the frame number (R24). -/
def seedOf (key : BitVec 256) (frame : Nat) : DWord := (Crypto.aes256 key (BitVec.ofNat 128 frame)).setWidth 64

/-- The seed of the current frame; none where no key is held. -/
def Dev.seed (d : Dev) : Option DWord :=
  (Tbl.find d.clock.seedKeys (d.clock.frame / 65536)).map (fun k => seedOf k d.clock.frame)

/-- Draw the seed key of the current period where there is none; the history keeps 1,024 periods (R24). -/
def Dev.ensureSeedKey (d : Dev) : Dev :=
  let p := d.clock.frame / 65536
  match Tbl.find d.clock.seedKeys p with
  | some _ => d
  | none =>
    let (n, d1) := d.draw
    let kept := d1.clock.seedKeys.filter (fun e => decide (p < e.1 + 1024))
    let lost := d1.clock.seedLost.filter (fun e => decide (p < e + 1024))
    { d1 with clock.seedKeys := Tbl.put kept p ((Config.drbg n).setWidth 256), clock.seedLost := lost }

/-- SEED_PERIOD (R24): a seed period begins, and its key is drawn. -/
def execSeedPeriod (s : State) : Host.Outcome State Fault Refusal := .next (s.onDev Dev.ensureSeedKey)

/-- READ of ZN_SEED_CMD (R63). -/
def Dev.seedRead (d : Dev) (p : Path) : Dev :=
  let f := d.zf Reg.ZN_SEED_FRAME_LO 31 0 + 2 ^ 32 * d.zf Reg.ZN_SEED_FRAME_HI 20 0
  let per := f / 65536
  let young := decide (d.clock.frame < (per + 1) * 65536 - 1 + 65536)
  let fail (r : Nat) : Dev :=
    (d.modPath p (fun c => { c with seed := Mailbox.init })).setZf Reg.ZN_SEED_MB_STAT 3 1 r
  if young then fail 2
  else if d.clock.seedLost.contains per then fail 4
  else match Tbl.find d.clock.seedKeys per with
    | none => fail 3
    | some k =>
      let s := seedOf k f
      (d.modPath p (fun c => { c with seed := { valid := true, data := [lo32 s, hi32 s] } })).setZf Reg.ZN_SEED_MB_STAT 3 1 1

/-- SEED_READ. -/
def execSeedRead (p : Path) (s : State) : Host.Outcome State Fault Refusal :=
  .next (s.onDev (fun d => d.cmdZ p Reg.ZN_SEED_CMD 1 (fun d => d.seedRead p)))

/-! ## The tick header (R39) -/

/-- One bit for each action code of some launches. -/
def actionBits (l : List Launch) : Nat := (l.map (fun e => 2 ^ (e.action - 1))).foldl (fun (a b : Nat) => a ||| b) 0

/-- The context parameter of the action among some launches that takes one. -/
def actionCtx (l : List Launch) : Nat := ((l.find? (fun e => decide (e.action = 3))).map (fun e => e.ctx)).getD 0

/-- Words 0 to 6 of the tick header of the frame (R39); a frame without a seed carries 0. -/
def Dev.headerWords (d : Dev) : List Word :=
  let f := d.clock.frame
  let next := (d.clock.launch.map Prod.snd).filter (fun e => decide (e.frame = f + 1))
  let seed := (d.seed).getD 0
  [w32 f, w32 (f / 2 ^ 32), lo32 seed, hi32 seed, w32 (actionBits d.clock.now % 2 ^ 15 + 2 ^ 16 * (actionBits next % 2 ^ 15)),
   w32 (actionCtx d.clock.now % 1024 + 1024 * (actionCtx next % 1024)), 0]

/-- The CRC of a header over its words 0 to 6. -/
def headerCrc (ws : List Word) : Word := crc32c (ws.flatMap (fun w => leBytes 4 w.toNat))

/-- The eight words of the tick header. -/
def Dev.header (d : Dev) : List Word := d.headerWords ++ [headerCrc d.headerWords]

/-- A header that a Bank received, bit 0 of word 0 first: its frame number and its seed where the CRC holds (R39, R41). -/
def readHeader (h : BitVec 256) : Option (Nat × DWord) :=
  let ws := leWords 8 h.toNat
  if headerCrc (ws.take 7) = ws.getD 7 0 then
    some ((ws.getD 0 0).toNat + 2 ^ 32 * bitsOf (ws.getD 1 0) 20 0, BitVec.ofNat 64 (leWordNat ((ws.drop 2).take 2)))
  else none

/-! ## ZCLK and time -/

/-- ZCLK_MEASURE (R62): the result of a measurement that ends at a tick whose frame is a multiple of 1,024, from 1,024 on. -/
def execZclkMeasure (khz : BitVec 21) (s : State) : Host.Outcome State Fault Refusal :=
  let f := s.dev.clock.frame
  if f % 1024 = 0 && 1024 ≤ f && s.dev.clock.measureAt ≠ f then
    .next (s.onDev (fun d => { d with clock.zclkKhz := khz.toNat, clock.measureAt := f }))
  else .next s

/-- ZCLK_CHANGE (R36): ZCLK runs at another frequency; no count stated in F or zc is disturbed. -/
def execZclkChange (khz : BitVec 21) (s : State) : Host.Outcome State Fault Refusal :=
  .next (s.onDev (fun d => { d with clock.zclkNow := khz.toNat }))

/-- SNAP of ZN_TIME_CMD: the Zenith timestamp into the path's mailbox (R62, R487). -/
def Dev.timeSnap (d : Dev) (p : Path) (zc : Nat) : Dev :=
  let ts := mkStamp d.clock.frame zc
  d.modPath p (fun c => { c with time := { valid := true, data := [lo32 ts, hi32 ts] } })

/-- TIME_SNAP. -/
def execTimeSnap (p : Path) (zc : Zc) (s : State) : Host.Outcome State Fault Refusal :=
  .next (s.onDev (fun d => d.cmdZ p Reg.ZN_TIME_CMD 1 (fun d => d.timeSnap p zc.val)))

/-! ## The launch table (R51, R52) -/

/-- The results of ARM and CANCEL (R62, ZN_LAUNCH_STAT). -/
inductive ArmResult where
  | armed
  | moved
  | full
  | null
  | badCode
  deriving DecidableEq, Repr

/-- The code of an ARM result. -/
def ArmResult.code : ArmResult → Nat
  | .armed => 1
  | .moved => 2
  | .full => 3
  | .null => 4
  | .badCode => 6

/-- Whether the request took or found an entry. -/
def ArmResult.ok (r : ArmResult) : Bool := r == .armed || r == .moved

/-- ARM an action with a context for a target frame (R51): the part, the result, the entry and the effective frame. -/
def Dev.arm (d : Dev) (action ctx target : Nat) : Dev × ArmResult × Nat × Nat :=
  let moved := decide (target < d.clock.frame + 2)
  let frame := if moved then d.clock.frame + 2 else target
  let c := if action = 3 then ctx else 0
  let res : ArmResult := if moved then .moved else .armed
  let at_ := d.clock.launch.filter (fun e => decide (e.2.frame = frame))
  if action = 0 then (d, .null, 0, frame)
  else if 5 ≤ action then (d, .badCode, 0, frame)
  else match at_.find? (fun e => decide (e.2.action = action) && decide (e.2.ctx = c)) with
    | some e => (d, res, e.1, frame)
    | none =>
      if action = 3 && at_.any (fun e => decide (e.2.action = 3)) then (d, .full, 0, frame)
      else match Tbl.freeKey d.clock.launch 8 with
        | none => (d, .full, 0, frame)
        | some k =>
          ({ d with clock.launch := Tbl.put d.clock.launch k { action := action, ctx := c, frame := frame } }, res, k, frame)

/-- ARM of ZN_LAUNCH_CMD. -/
def Dev.launchArm (d : Dev) : Dev :=
  let target := d.zf Reg.ZN_LAUNCH_FRAME_LO 31 0 + 2 ^ 32 * d.zf Reg.ZN_LAUNCH_FRAME_HI 20 0
  let (d1, r, k, f) := d.arm (d.zf Reg.ZN_LAUNCH_ACT 3 0) (d.zf Reg.ZN_LAUNCH_ACT 13 4) target
  let d2 := d1.setZf Reg.ZN_LAUNCH_STAT 3 0 r.code
  if r.ok then
    ((d2.setZf Reg.ZN_LAUNCH_STAT 6 4 k).setZ Reg.ZN_LAUNCH_FRAME_LO (w32 f)).setZ Reg.ZN_LAUNCH_FRAME_HI
      (w32 (f / 2 ^ 32 % 2 ^ 21))
  else d2

/-- LAUNCH_ARM. -/
def execLaunchArm (p : Path) (s : State) : Host.Outcome State Fault Refusal :=
  .next (s.onDev (fun d => d.cmdZ p Reg.ZN_LAUNCH_CMD 1 Dev.launchArm))

/-- CANCEL of an entry (R51): without effect once the action has been announced. -/
def Dev.launchCancel (d : Dev) (entry : Nat) : Dev :=
  match Tbl.find d.clock.launch entry with
  | none => d.setZf Reg.ZN_LAUNCH_STAT 3 0 4
  | some e =>
    if e.frame ≤ d.clock.frame + 1 then d.setZf Reg.ZN_LAUNCH_STAT 3 0 1
    else ({ d with clock.launch := Tbl.erase d.clock.launch entry }).setZf Reg.ZN_LAUNCH_STAT 3 0 5

/-- LAUNCH_CANCEL. -/
def execLaunchCancel (p : Path) (entry : Fin 8) (s : State) : Host.Outcome State Fault Refusal :=
  .next (s.onDev (fun d => d.cmdZ p Reg.ZN_LAUNCH_CMD (w32 (2 + 256 * entry.val)) (fun d => d.launchCancel entry.val)))

end Sys2Proof.Machine
end

