-- ==== Sys2Proof/Machine/HzOps.lean ====
section
/-! DEFINITION. Operations of the commit horizon that several commands share: serial order, messages and tokens, retraction,
failure of a context, exposure, suspect steps and the holds on control cores (R151, R178, R187 to R211, R222, R496). -/

namespace Sys2Proof.Machine

/-! ## Serial order (R187) -/

/-- `b` is later than `a` in serial order. -/
def serLt (a b : Word) : Bool := decide (0 < (b - a).toNat) && decide ((b - a).toNat < 2 ^ 31)

/-- `a` is `b` or earlier in serial order. -/
def serLe (a b : Word) : Bool := decide (a = b) || serLt a b

/-! ## Contexts -/

/-- ACTIVE at Gate or above. -/
def Ctx.gate (x : Ctx) : Bool := decide (x.core.state = .active) && decide (3 ≤ x.core.level)

/-- The epoch that a Wisp and the switch port mark the context's work with (R72, R192): the one that the counter names, at Gate and above.
DEDUCED (log entry 51). -/
def Ctx.mark (x : Ctx) : Option Word :=
  if 3 ≤ x.core.level && (decide (x.core.state = .active) || decide (x.core.state = .failed) || decide (x.core.state = .closing)) then
    some x.hz.epoch
  else none

/-- The epochs that have not been decided. -/
def CtxHz.liveEpochs (h : CtxHz) : List Epoch := h.epochs.filter (fun e => decide (e.fate = .live))

/-- Change an epoch of a context. -/
def Dev.modEpoch (d : Dev) (c : Nat) (num : Word) (f : Epoch → Epoch) : Dev :=
  d.modCtx c (fun x => { x with hz.epochs := x.hz.epochs.map (fun e => if e.num = num then f e else e) })

/-- The epoch open now: the newest, where its steps have not ended. -/
def CtxHz.openEpoch (h : CtxHz) : Option Epoch :=
  if h.opened then h.epochs.getLast? else none

/-- The epoch that a candidate's step counts against: the one it was drawn in, or the open one for a submission. DEDUCED (log entry 45). -/
def Dev.epochOf (d : Dev) (x : Cand) : Option Word :=
  match x.epoch with
  | some e => some e
  | none => ((d.ctx x.ctx).hz.openEpoch).map (fun e => e.num)

/-- No step of the context is in progress: every control core of its Banks is held at its step boundary (R151, R189). -/
def Ctx.atRest (x : Ctx) (banks : List Nat) : Bool :=
  x.core.marks.isEmpty && (x.hz.stall || banks.all (fun b => x.core.held.any (fun h => decide (h.1 = b))))

/-! ## Messages (R194, R196, R197) -/

/-- A horizon message: 32 bytes (R196). -/
def hzMessage (type src ctx incarn : Nat) (body : List Byte) : List Byte :=
  let m := [BitVec.ofNat 8 type, 0x01] ++ leBytes 2 src ++ leBytes 2 ctx ++ leBytes 2 incarn ++
    (body ++ List.replicate (16 - body.length) 0) ++ [0, 0, 0, 0]
  m ++ leBytes 4 (crc32c m).toNat

/-- The body of a token (R197). -/
def Token.body : Token → List Byte
  | .commit e => leBytes 4 e.toNat
  | .retract first last reason => leBytes 4 first.toNat ++ leBytes 4 last.toNat ++ [BitVec.ofNat 8 reason]

/-- The type of a token (R196). -/
def Token.type : Token → Nat
  | .commit _ => 2
  | .retract _ _ _ => 3

/-- This chip's peer ID in a message; 0 until the port has supplied one. -/
def Dev.selfId (d : Dev) : Nat := (d.hz.self.getD 0).toNat

/-- Hand a message to the switch port; under the clamp none leaves (R504). DESIGN CHOICE (log entry 160). -/
def Dev.swSend (d : Dev) (dest : MsgDest) (bytes : List Byte) : Dev :=
  if d.clamped then d else { d with hz.out := d.hz.out ++ [{ bytes := bytes, dest := dest }] }

/-- Hand a message of a context to the switch port; none is sent to peers while EN is 0 (R194). -/
def Dev.hzSend (d : Dev) (c : Nat) (bytes : List Byte) : Dev :=
  let x := d.ctx c
  if x.hz.en then d.swSend (.group x.hz.group) bytes else d

/-- The bytes of a token of a context. -/
def Dev.tokenBytes (d : Dev) (c : Nat) (t : Token) : List Byte :=
  hzMessage t.type d.selfId c (d.ctx c).core.incarn t.body

/-- Queue a token under the timing of R42. -/
def Dev.queueToken (d : Dev) (c : Nat) (t : Token) : Dev := { d with hz.tokens := d.hz.tokens ++ [(c, t, d.clock.frame)] }

/-! ## Exposure (R222 to R224) -/

/-- Queue an EXPOSE notice of a context; a waiting notice of KIND 0 takes a later trigger into its range (R222). -/
def Dev.expose (d : Dev) (c kind : Nat) (first last : Word) (unit : Nat) : Dev :=
  d.modCtx c (fun x =>
    if kind = 0 && x.hz.expose.any (fun e => e.kind == 0) then
      { x with hz.expose := x.hz.expose.map (fun e =>
          if e.kind = 0 then
            { e with first := if serLt first e.first then first else e.first
                     last := if serLt e.last last then last else e.last }
          else e) }
    else { x with hz.expose := x.hz.expose ++ [{ kind := kind, first := first, last := last, unit := unit }] })

/-- The bytes of an EXPOSE message (R197). -/
def Dev.exposeBytes (d : Dev) (c : Nat) (e : Expose) : List Byte :=
  hzMessage 4 d.selfId c (d.ctx c).core.incarn
    ([BitVec.ofNat 8 e.kind, 0, 0, 0] ++ leBytes 4 e.first.toNat ++ leBytes 4 e.last.toNat ++ leBytes 4 e.unit)

/-- Bytes as words, four at a time. -/
def toWords : Nat → List Byte → List Word
  | 0, _ => []
  | n + 1, l => BitVec.ofNat 32 (leNat (l.take 4)) :: toWords n (l.drop 4)

/-- Emit the EXPOSE notices a context has waiting: to its group and to the management network (R224). DEDUCED (log entry 53). -/
def Dev.emitExpose (d : Dev) (c : Nat) : Dev :=
  let es := (d.ctx c).hz.expose
  if es.isEmpty then d
  else (es.foldl (fun (acc : Dev) e => ((acc.hzSend c (d.exposeBytes c e)).notice 0x03 false
      (toWords 8 (d.exposeBytes c e))).bumpZ Reg.ZN_HZ_CNT_EXPOSE_OUT) d).modCtx c (fun x => { x with hz.expose := [] })

/-- Below Gate: a trigger of R222 for work of a step, where a cross-chip transfer has left since that step. -/
def Dev.exposeStep (d : Dev) (c : Nat) (step : Word) (unit : Nat) : Dev :=
  let x := d.ctx c
  match x.hz.issued with
  | some t => if x.core.state = .active && x.core.level < 3 && serLe step t then d.expose c 0 step x.core.step unit else d
  | none => d

/-! ## Retraction and failure (R178, R209, R211) -/

/-- The epochs of a run of numbers, for an EXPOSE of KIND 1 (R223). -/
def exposedRange (l : List Epoch) : Option (Word × Word) :=
  match l.filter (fun e => e.exposed), (l.filter (fun e => e.exposed)).getLast? with
  | e :: _, some z => some (e.num, z.num)
  | _, _ => none

/-- The replays that still run for steps of epochs: each runs to its end on its core (R183). DEDUCED (log entry 180). -/
def orphansOf (c : Nat) (l : List Epoch) : List Orphan :=
  l.flatMap (fun e => e.suspects.filterMap (fun q => match q.phase with
    | .replaying r => if q.runs.any (fun x => decide (x.run = r) && !x.done) then
        some { ctx := c, epoch := e.num, suspect := q, run := r } else none
    | _ => none))

/-- Retract epoch `first` and every later open epoch of a context (R209). An epoch whose COMMIT is queued is decided and stays
(R225); `hold` sets RETRACT_PEND. The next epoch opens with the first step after a RESUME (R187). -/
def Dev.retractRaw (d : Dev) (c : Nat) (first : Word) (reason : Nat) (hold : Bool) : Dev :=
  let x := d.ctx c
  let hit (e : Epoch) : Bool := decide (e.fate = .live) && serLe first e.num
  let gone := x.hz.epochs.filter hit
  match gone with
  | [] => d
  | e0 :: _ =>
    let last := x.hz.epoch
    let d1 := d.modCtx c (fun x => { x with hz := { x.hz with
      epochs := x.hz.epochs.map (fun e => if hit e then { e with fate := .retracting, suspects := [] } else e)
      opened := false
      openNext := x.atRest (d.banksOf c)
      retractPend := x.hz.retractPend || hold
      retracts := min 0xFF (x.hz.retracts + 1)
      retrFirst := e0.num
      retrLast := last } })
    let d2 := (d1.queueToken c (.retract e0.num last reason)).zEvent 1 0x30 c e0.num last (w32 reason) 0
    let inGone (w : Word) : Bool := gone.any (fun e => decide (e.num = w))
    let d3 := { d2 with
      hz.orphans := d2.hz.orphans ++ orphansOf c gone
      hz.log := d2.hz.log.filter (fun l => !(decide (l.share.ctx = c) && inGone l.share.epoch))
      hz.sigRetry := d2.hz.sigRetry.filter (fun q => !(decide (q.ctx = c) && inGone q.epoch)) }
    match exposedRange gone with
    | some (f, l) => d3.expose c 1 f l 0x1FFFF
    | none => d3

/-- The source of a CTX_FAILED event (R517). -/
def failSource (reason : Nat) : Nat := if reason = 1 || reason = 4 then 3 else 1

/-- A dump entry of a context that leaves ACTIVE is MISSED unless it is copying or done (R401). DEDUCED (log entry 114). -/
def Dev.missDumps (d : Dev) (c : Nat) : Dev :=
  { d with dbg.dumps := Tbl.mapAll Dump.init (fun _ e =>
      if e.ctx = c && (e.state = 1 || (e.state = 2 && !e.halting)) then { e with state := 5 } else e) d.dbg.dumps }

/-- Fail a context (R178): an ACTIVE context goes to FAILED, its pending SETLVL is discarded and every open epoch retracted; in
any other state the failure is recorded as an event only (R179). -/
def Dev.failCtx (d : Dev) (c reason : Nat) : Dev :=
  let d1 := d.zEvent (failSource reason) 0x38 c (w32 reason) 0 0 0
  let x := d.ctx c
  if x.core.state ≠ .active then d1
  else
    let d2 := (d1.missDumps c).modCtx c (fun x => { x with
      core.state := .failed, core.failReason := reason, core.pend := none, core.lostFailPend := false, hz.stall := false })
    match x.hz.liveEpochs with
    | e :: _ => d2.retractRaw c e.num 3 true
    | [] => d2

/-- A retraction that finds every epoch retracted already: in the frame of a RESUME it sets RETRACT_PEND again (R225). -/
def CtxHz.retractAgain (h : CtxHz) (frame : Nat) : CtxHz :=
  if h.retractPend then { h with againAt := some frame }
  else if h.resumedAt = some frame then { h with retractPend := true }
  else h

/-- Retract by R209 and hold the control cores until RESUME; a retraction above RETRACT_LIMIT fails the context (R211). -/
def Dev.retract (d : Dev) (c : Nat) (first : Word) (reason : Nat) : Dev :=
  let x := d.ctx c
  if !x.hz.liveEpochs.any (fun e => serLe first e.num) then d.modCtx c (fun x => { x with hz := x.hz.retractAgain d.clock.frame })
  else
    let d1 := d.retractRaw c first reason true
    if d.zf Reg.ZN_HZ_CTL 7 0 < (d1.ctx c).hz.retracts then d1.failCtx c 3 else d1

/-! ## Suspect steps (R201) -/

/-- An unresolved suspect step. -/
def Epoch.realCount (e : Epoch) : Nat := (e.suspects.filter (fun q => q.real)).length

/-- A run of a core. -/
def mkRun (run : RunId) (b p core : Nat) : Run where
  run := run
  bank := b
  pos := p
  core := core
  ticket := 0
  slot := 0
  host := none
  done := false
  shares := []
  badLoads := false
  passed := []

/-- A step of epoch `ep` becomes suspect; the core at (b, p) ran it. A step already suspect takes the event without a second
resolution, and a seventeenth suspect step retracts the epoch (R201). -/
def Dev.makeSuspect (d : Dev) (c : Nat) (ep step : Word) (cause : SuspectCause) (b p : Nat) (desc : Option Cand)
    (bad : List (Word × Word)) : Dev :=
  match (d.ctx c).hz.epochs.find? (fun e => decide (e.num = ep) && decide (e.fate = .live)) with
  | none => d
  | some e =>
    if e.suspects.any (fun q => q.real && decide (q.step = step)) then
      d.modEpoch c ep (fun e => { e with suspects := e.suspects.map (fun q =>
        if q.real && decide (q.step = step) then { q with badBlocks := q.badBlocks ++ bad } else q) })
    else if 16 ≤ e.realCount then d.retract c ep 1
    else
      let core := ((d.bank b).cc.logicalOf p).getD 0xFF
      let d1 := { d with hz.tagNo := d.hz.tagNo + 1 }
      d1.modEpoch c ep (fun e => { e with suspects := e.suspects ++
        [{ id := d.hz.tagNo, step := step, cause := cause, real := true, since := d.clock.frame, phase := .waitOrig,
           runs := [mkRun .orig b p core], desc := desc, descBank := if (d.bank b).anv.isolated then partner b else b, handles := [], badBlocks := bad, cmp := none,
           onVoid := false, pairs := [], left := none }] })

/-! ## Holds on control cores (R496, BK_CC_HOLD) -/

/-- The share log has no room (R203): its region is full. -/
def Dev.logFull (d : Dev) : Bool :=
  match d.cfg.regions[2]? with
  | some r => decide (r.size < 32 * (d.hz.log.length + 1))
  | none => false

/-- A Wisp of the context's cores in the Bank asserts HOLD_REQ (R151). -/
def Dev.holdReq (d : Dev) (b c : Nat) : Bool :=
  d.wisps.any (fun e => decide (e.1 / 264 = b) && e.2.holdReq && decide (d.ownerAt b (e.1 % 264) = c))

/-- A dump halts the context (R399). -/
def Dev.dumpHolds (d : Dev) (c : Nat) : Bool := d.dbg.dumps.any (fun e => e.2.halting && decide (e.2.ctx = c))

/-- A breakpoint hit or a dump halts the context (R396, R399). -/
def Dev.dbgHold (d : Dev) (c : Nat) : Bool := d.dbg.hits.any (fun h => h.isGlobal || decide (h.ctx = c)) || d.dumpHolds c

/-- The hold of hits and dumps on a context in a Bank: a hit of the frame in progress holds the control core of its own Bank only (R396). -/
def Dev.dbgHoldIn (d : Dev) (b c : Nat) : Bool :=
  d.dbg.hits.any (fun h => (decide (h.bank = b) || decide (h.since < d.clock.frame)) && (h.isGlobal || decide (h.ctx = c))) || d.dumpHolds c

/-- A run holds context `c` in the Bank: its core is that context's, taken for another context's replay (R204). -/
def Run.hosts (r : Run) (b c : Nat) : Bool := decide (r.host = some c) && decide (r.bank = b) && !r.done

/-- A core of the Bank that another context's replay uses holds its own context; context 0 gives an idle core (R204). -/
def Dev.replayHost (d : Dev) (b c : Nat) : Bool :=
  decide (c ≠ 0) &&
    (d.ctxs.any (fun x => decide (x.1 ≠ c) && x.2.hz.epochs.any (fun e => e.suspects.any (fun q => q.runs.any (fun r => r.hosts b c)))) ||
      d.hz.orphans.any (fun o => decide (o.ctx ≠ c) && o.suspect.runs.any (fun r => decide (r.run = o.run) && r.hosts b c)))

/-- The reasons to hold a context's control core in a Bank, as BK_CC_HOLD numbers the holds (R496). DEDUCED (log entry 94). -/
def Dev.holdBits (d : Dev) (b c : Nat) : List Bool :=
  let x := d.ctx c
  [x.gate && d.holdReq b c,
   x.hz.stall,
   x.hz.retractPend,
   decide (x.core.state = .failed),
   x.gate && d.logFull,
   (d.bank b).testHold.contains c,
   d.sd.hold,
   d.thm.stopReq,
   d.dbgHoldIn b c,
   d.replayHost b c,
   d.hang.chipReset]

/-- The reason for a hold stands. -/
def Dev.holdWanted (d : Dev) (b c n : Nat) : Bool := (d.holdBits b c).getD n false

/-- The holds that come into force at a step boundary and end at a tick: deferral, retraction, failure, share log, thermal. -/
def holdLatched (n : Nat) : Bool := [0, 2, 3, 4, 7].contains n

/-- A hold is in force on a context's control core in a Bank (R151, R496). -/
def Dev.holdOn (d : Dev) (b c n : Nat) : Bool :=
  if holdLatched n then (d.ctx c).core.held.contains (b, n) else d.holdWanted b c n

/-- The holds that a step boundary of a context brings into force in a Bank. -/
def Dev.newHolds (d : Dev) (b c : Nat) : List (Nat × Nat) :=
  (((List.range 11).filter (fun n => holdLatched n && d.holdWanted b c n)).map (fun n => (b, n))).filter
    (fun e => !(d.ctx c).core.held.contains e)

/-- A shutdown, a chip reset request or a global stop holds every control core (R496). -/
def Dev.globalHold (d : Dev) : Bool := d.sd.hold || d.hang.chipReset || d.clock.stopped

end Sys2Proof.Machine
end

