-- ==== Sys2Proof/Machine/Contexts.lean ====
section
/-! DEFINITION. Contexts (R158 to R185): ownership, creating, changing and tearing down a context, and its step boundaries with
what falls at them (R163, R170, R172, R188, R189, R202). -/

namespace Sys2Proof.Machine

/-! ## Discarding pending samples (R17, R154, R160, R180, R465, R510) -/

/-- One candidate fewer that an epoch waits for: it was discarded before it could have a verdict. -/
def Dev.uncount (d : Dev) (x : Cand) : Dev :=
  match x.epoch with
  | none => d
  | some e => d.modEpoch x.ctx e (fun e => { e with outstanding := e.outstanding - 1 })

/-- Discard the pending candidates of a Wisp that satisfy `f`: counted in WS_SMP_DROPPED and in the sample-drop metric. DEDUCED (log entry 35). -/
def Dev.discard (d : Dev) (b p : Nat) (f : Cand → Bool) : Dev :=
  let w := d.wisp b p
  let gone := w.pend.filter f
  if gone.isEmpty then d
  else
    let shown := ((w.pend.take w.presented).filter (fun x => !f x)).length
    let d1 := d.modWisp b p (fun w =>
      { (w.add Reg.WS_SMP_DROPPED gone.length) with
        pend := w.pend.filter (fun x => !f x)
        presented := shown
        drops := w.drops + gone.length
        holdReq := false })
    let d2 := d1.modBank b (fun k =>
      { k with anv.presented := k.anv.presented.filter (fun x => !(decide (x.pos = p) && f x)),
               anv.held := k.anv.held.filter (fun x => !(decide (x.pos = p) && decide (x.src = 0) && f x)) })
    gone.foldl Dev.uncount d2

/-! ## Ownership (R160) -/

/-- A write of BK_CTX_OWN that would leave `ctx` and `role` (R160): from one context other than 0 to another it is ignored and
CTX_OWNED recorded. -/
def Dev.writeOwner (d : Dev) (b n ctx role : Nat) : Dev :=
  let eff := ((d.bank b).cc.effective n).1
  if eff ≠ 0 && ctx ≠ 0 && ctx ≠ eff then d.bankEvent b 267 0x24 eff (w32 n) (w32 eff) (w32 ctx) 0 .nothing
  else d.modBank b (fun k => { k with cc.ownPend := Tbl.put k.cc.ownPend n (ctx, role) })

/-- A pending ownership write takes effect; pending candidates of the old owner are discarded (R160). -/
def Dev.applyOwner (d : Dev) (b n : Nat) : Dev :=
  match Tbl.find (d.bank b).cc.ownPend n with
  | none => d
  | some v =>
    let old := ((d.bank b).cc.owner n).1
    let d1 := d.modBank b (fun k => { k with cc.own := Tbl.set (0, 0) k.cc.own n v, cc.ownPend := Tbl.erase k.cc.ownPend n })
    match (d.bank b).cc.posOf n with
    | some p => if v.1 = old then d1 else (d1.dropBase (coreUnit b p)).discard b p (fun x => decide (x.ctx = old))
    | none => d1

/-- The core at a position has no command in progress. -/
def Dev.idle (d : Dev) (b p : Nat) : Bool := !(d.wisp b p).inProgress

/-- At a tick: the writes pending on idle cores of context 0 take effect (R160). -/
def Dev.applyIdleOwners (d : Dev) (b : Nat) : Dev :=
  (((d.bank b).cc.ownPend.map Prod.fst).filter (fun n =>
    decide (((d.bank b).cc.owner n).1 = 0) &&
      (match (d.bank b).cc.posOf n with
        | some p => d.idle b p
        | none => true))).foldl (fun acc n => acc.applyOwner b n) d

/-! ## Roles and the budget (R169, R171, R173, R174) -/

/-- Cores designated shadow or pair secondary among those `f` selects by owner. -/
def Dev.redund (d : Dev) (f : Nat → Bool) : Nat :=
  sumNat (d.banks.map (fun e => (e.2.cc.own.filter (fun o => f o.2.1 && (decide (o.2.2 = 1) || decide (o.2.2 = 3)))).length))

/-- The cores of a context in a role. -/
def Dev.inRole (d : Dev) (c role : Nat) : List (Nat × Nat) :=
  (d.allCores c).filter (fun x => decide (((d.bank x.1).cc.owner x.2).2 = role))

/-- The denominator D of SHADOW_FRAC (R169). -/
def shadowDen : Nat → Nat
  | 1 => 64
  | 2 => 16
  | _ => 8

/-- Bank `a` lies outside the Anvil pair of Bank `b`. -/
def outsidePair (a b : Nat) : Bool := decide (a / 2 ≠ b / 2)

/-- The core that works as a logical core is Clear. -/
def Dev.coreClear (d : Dev) (x : Nat × Nat) : Bool :=
  match (d.bank x.1).cc.posOf x.2 with
  | some p => d.healthOf (coreUnit x.1 p) == .clear
  | none => false

/-- The shadow rule (R169); a core that is not Clear is given no shadow role (R241). DEDUCED (log entry 41). -/
def Dev.shadowOk (d : Dev) (c frac : Nat) : Bool :=
  let shadows := (d.inRole c 1).filter d.coreClear
  let normals := d.inRole c 0
  decide (ceilDiv (d.allCores c).length (shadowDen frac) ≤ shadows.length) &&
    shadows.all (fun s => normals.any (fun n => outsidePair n.1 s.1))

/-- The pair rule (R171); a core that is not Clear is given no pair role (R241). DEDUCED (log entry 41). -/
def Dev.pairOk (d : Dev) (c : Nat) : Bool :=
  (d.allCores c).all (fun x =>
    let role := ((d.bank x.1).cc.owner x.2).2
    let q := Tbl.get (0, 0) (d.bank x.1).cc.pair x.2
    let o := (d.bank q.1).cc.owner q.2
    (decide (role = 2) || decide (role = 3)) && decide (o.1 = c) && decide (o.2 = 5 - role) &&
      decide (Tbl.get (0, 0) (d.bank q.1).cc.pair q.2 = x) && outsidePair q.1 x.1 && d.coreClear x)

/-- The primary and secondary cores of a context as its partner entries name them, read when a SETLVL to Pair is checked (R185). -/
def Dev.partnersNow (d : Dev) (c : Nat) : List ((Nat × Nat) × (Nat × Nat)) :=
  (d.inRole c 2).map (fun x => (x, Tbl.get (0, 0) (d.bank x.1).cc.pair x.2))

/-- The budget of R174 exceeded by a context at a level. -/
def Dev.overBudget (d : Dev) (c level : Nat) : Bool :=
  let cap := d.zf Reg.ZN_LVL_BUDGET 7 0 * 256
  decide (4 ≤ level) && (decide (cap = 0) || decide (cap < d.redund (fun o => decide (o ≠ 0))) ||
    decide (cap < d.redund (fun o => decide (o = c))))

/-! ## Epochs open and close (R187, R188, R189) -/

/-- A new epoch opens (R187). -/
def CtxHz.open_ (h : CtxHz) : CtxHz :=
  let num := if h.everOpened then h.epoch + 1 else h.epoch
  { h with
    epoch := num
    opened := true
    openNext := false
    everOpened := true
    firstNext := false
    epochs := h.epochs ++ [{ num := num, closing := none, counted := false, outstanding := 0, suspects := [],
                             exposed := false, fate := .live, first := h.firstNext || !h.everOpened }] }

/-- The next epoch opens; where it would be the third open one, the control cores are held until a token has left (R189). -/
def CtxHz.openOrStall (h : CtxHz) : CtxHz :=
  if 2 ≤ h.epochs.length then { h with stall := true, openNext := true } else h.open_

/-- The open epoch closes in a frame (R188). -/
def CtxHz.close (h : CtxHz) (frame : Nat) : CtxHz :=
  if h.opened then
    { h with opened := false
             epochs := h.epochs.map (fun e => if e.num = h.epoch then { e with closing := some frame } else e) }
  else h

/-! ## Commands (R175, R176, R180) -/

/-- The result field of a context. -/
def Dev.ctxResult (d : Dev) (c r : Nat) : Dev := d.modCtx c (fun x => { x with core.result := r })

/-- The SRATE in force for a staged one: SFLOOR where it is below (R174). -/
def Dev.floored (d : Dev) (srate : Nat) : Nat := max srate (d.zf Reg.ZN_LVL_BUDGET 12 8)

/-- A staged level that is reserved, or Shadow without a fraction (R175, R184). -/
def badLevel (cfg : Word) : Bool :=
  decide (6 ≤ bitsOf cfg 2 0) || (decide (bitsOf cfg 2 0 = 4) && decide (bitsOf cfg 5 4 = 0))

/-- CREATE past the rows on shutdown and stop (R175). DEDUCED (log entry 39). -/
def Dev.createNow (d : Dev) (c : Nat) (cfg : Word) : Dev :=
  let level := bitsOf cfg 2 0
  let srate := bitsOf cfg 10 6
  if c = 0 then d.ctxResult c 4
  else if badLevel cfg then d.ctxResult c 0xA
  else if (d.ctx c).core.state ≠ .free then d.ctxResult c 3
  else if d.overBudget c level then d.ctxResult c 5
  else d.modCtx c (fun x =>
    let fresh := { Ctx.init.core with
      state := .active, incarn := (x.core.incarn + 1) % 65536, level := level, strict := bitOf cfg 3,
      shadowFrac := bitsOf cfg 5 4, srate := d.floored srate, result := 1, clipped := decide (srate < d.floored srate) }
    let hz0 := { Ctx.init.hz with group := x.hz.group, en := x.hz.en }
    { core := fresh, hz := if 3 ≤ level then hz0.open_ else hz0, hang := Ctx.init.hang, dbgState := 0 })

/-- CREATE (R175). -/
def Dev.create (d : Dev) : Dev :=
  let c := d.zf Reg.ZN_CTX_SEL 9 0
  let cfg := d.zreg Reg.ZN_CTX_CFG
  if d.sdActive || d.alarms.importPend.isSome then d.ctxResult c 3
  else if d.clock.stopped then ({ d with clock.stopCmds := d.clock.stopCmds ++ [(0, c, cfg)] }).ctxResult c 2
  else d.createNow c cfg

/-- CREATE of ZN_CTX_CMD. -/
def execCreate (p : Path) (s : State) : Host.Outcome State Fault Refusal :=
  .next (s.onDev (fun d => d.cmdZ p Reg.ZN_CTX_CMD 1 Dev.create))

/-- SETLVL past the row on the stop (R175, R176). DEDUCED (log entry 40). -/
def Dev.setLevelNow (d : Dev) (c : Nat) (cfg : Word) : Dev :=
  let level := bitsOf cfg 2 0
  let frac := bitsOf cfg 5 4
  let srate := bitsOf cfg 10 6
  let x := d.ctx c
  if c = 0 && 2 < level then d.ctxResult c 0xA
  else if badLevel cfg then d.ctxResult c 0xA
  else match x.core.state with
    | .failed => d.ctxResult c 8
    | .active =>
      if level = 4 && !d.shadowOk c frac then d.ctxResult c 6
      else if level = 5 && !d.pairOk c then d.ctxResult c 7
      else if d.overBudget c level then d.ctxResult c 5
      else
        let d1 := d.modCtx c (fun x =>
          { x with core := { x.core with
              partners := if level = 5 then d.partnersNow c else x.core.partners
              strict := bitOf cfg 3
              sratePend := some (d.floored srate)
              clipped := decide (srate < d.floored srate) } })
        if level = x.core.level then
          d1.modCtx c (fun x => { x with core := { x.core with shadowFrac := frac, pend := none, result := 1 } })
        else
          let noCores := (d.allCores c).isEmpty
          d1.modCtx c (fun x => { x with core := { x.core with
            result := 2
            pend := some { level := level, shadowFrac := frac,
                           boundaryAt := if noCores then some d.clock.frame else none } } })
    | _ => d.ctxResult c 4

/-- SETLVL (R175). -/
def Dev.setLevel (d : Dev) : Dev :=
  let c := d.zf Reg.ZN_CTX_SEL 9 0
  let cfg := d.zreg Reg.ZN_CTX_CFG
  if d.clock.stopped then ({ d with clock.stopCmds := d.clock.stopCmds ++ [(1, c, cfg)] }).ctxResult c 2
  else d.setLevelNow c cfg

/-- SETLVL of ZN_CTX_CMD. -/
def execSetlvl (p : Path) (s : State) : Host.Outcome State Fault Refusal :=
  .next (s.onDev (fun d => d.cmdZ p Reg.ZN_CTX_CMD 2 Dev.setLevel))

/-- TEARDOWN past the row on the stop (R175, R180). -/
def Dev.teardownNow (d : Dev) (c : Nat) : Dev :=
  if c = 0 then d.ctxResult c 4
  else match (d.ctx c).core.state with
    | .active => d.modCtx c (fun x => { x with core := { x.core with result := 1, closePend := true, pend := none } })
    | .failed => d.modCtx c (fun x => { x with core := { x.core with result := 1, closePend := true, pend := none } })
    | _ => d.ctxResult c 4

/-- TEARDOWN (R175). -/
def Dev.teardown (d : Dev) : Dev :=
  let c := d.zf Reg.ZN_CTX_SEL 9 0
  if d.clock.stopped then ({ d with clock.stopCmds := d.clock.stopCmds ++ [(2, c, 0)] }).ctxResult c 2
  else d.teardownNow c

/-- TEARDOWN of ZN_CTX_CMD. -/
def execTeardown (p : Path) (s : State) : Host.Outcome State Fault Refusal :=
  .next (s.onDev (fun d => d.cmdZ p Reg.ZN_CTX_CMD 4 Dev.teardown))

/-- The tick at which a context goes to CLOSING (R180). -/
def Dev.closeCtx (d : Dev) (c : Nat) : Dev :=
  let owned := d.allCores c
  let d0 := owned.foldl (fun (acc : Dev) x =>
    match (acc.bank x.1).cc.posOf x.2 with
    | some p => acc.dropBase (coreUnit x.1 p)
    | none => acc) d
  let pending := (d0.wisps.filter (fun e => e.2.pend.any (fun y => decide (y.ctx = c)))).map Prod.fst
  let d1 := pending.foldl (fun (acc : Dev) u => acc.discard (u / 264) (u % 264) (fun y => decide (y.ctx = c))) d0
  let d2 := { d1 with
    banks := Tbl.mapAll Bank.init (fun _ k => { k with
      cc.own := k.cc.own.filter (fun e => decide (e.2.1 ≠ c))
      cc.ownPend := k.cc.ownPend.filter (fun e => decide (e.2.1 ≠ c)) }) d1.banks
    wisps := Tbl.mapAll Wisp.init (fun _ w => { w with shares := w.shares.filter (fun h => decide (h.ctx ≠ c)) }) d1.wisps
    hz.inbound := d1.hz.inbound.filter (fun e => decide (e.ctx ≠ c)) }
  let d3 := match (d.ctx c).hz.liveEpochs with
    | e :: _ => d2.retractRaw c e.num 4 false
    | [] => d2
  (d3.modCtx c (fun x => { x with
    core := { x.core with state := .closing, closePend := false, pend := none, held := [], marks := [], lostFailPend := false }
    hz := { x.hz with stall := false, retractPend := false, openNext := false, opened := false, capArm := false,
                      capWait := [] } })).missDumps c

/-- The drain count of a context (R181). -/
def Dev.drain (d : Dev) (c : Nat) : Nat :=
  let inBank (k : Bank) : Nat :=
    sumNat (k.anv.queue.map (fun e => (e.2.filter (fun x => decide (x.cand.ctx = c))).length)) +
      (k.anv.done.filter (fun x => decide (x.cand.ctx = c))).length
  let verdicts := (d.jnl.waiting.filter (fun i => match i with
    | .verdict _ x => decide (x.cand.ctx = c)
    | _ => false)).length
  sumNat (d.banks.map (fun e => inBank e.2)) + verdicts +
    (d.hz.sigRetry.filter (fun q => decide (q.ctx = c))).length +
    (d.hz.inbound.filter (fun e => decide (e.ctx = c))).length +
    (d.hz.tokens.filter (fun t => decide (t.1 = c))).length

/-- DRAIN_COMPLETE (R182): a CLOSING context whose drain count is zero becomes COOLING. -/
def execDrainComplete (ctx : CtxId) (s : State) : Host.Outcome State Fault Refusal :=
  let d := s.dev
  if (d.ctx ctx.val).core.state = .closing && d.drain ctx.val == 0 && !d.clock.stopped then
    .next { s with dev := d.modCtx ctx.val (fun x =>
      { x with core := { x.core with state := .cooling, coolAt := d.clock.frame } }) }
  else .next s

/-- COOLING_EXPIRE (R182): 64 F after COOLING the ID is FREE. -/
def execCoolingExpire (ctx : CtxId) (s : State) : Host.Outcome State Fault Refusal :=
  let d := s.dev
  let x := d.ctx ctx.val
  if x.core.state = .cooling && decide (x.core.coolAt + 64 ≤ d.clock.frame) && !d.clock.stopped then
    .next { s with dev := d.modCtx ctx.val (fun x => { x with core := { x.core with state := .free } }) }
  else .next s

/-- A level change takes effect (R177): into Gate an epoch opens, out of Gate the open epoch closed at the boundary. -/
def Dev.applyLevel (d : Dev) (c : Nat) (q : PendLevel) (boundary : Nat) : Dev :=
  d.modCtx c (fun x =>
    let core := { x.core with level := q.level, shadowFrac := q.shadowFrac, pend := none, result := 1 }
    let hz :=
      if x.core.level < 3 && 3 ≤ q.level then x.hz.openOrStall
      else if 3 ≤ x.core.level && q.level < 3 then { (x.hz.close boundary) with openNext := false, stall := false }
      else x.hz
    { x with core := core, hz := hz })

/-- LEVEL_CHANGE_APPLY (R176): at the tick after the boundary, or after the SETLVL of a context with no cores. -/
def execLevelChangeApply (ctx : CtxId) (s : State) : Host.Outcome State Fault Refusal :=
  let d := s.dev
  let x := d.ctx ctx.val
  match x.core.pend, x.core.state, d.clock.stopped with
  | some q, .active, false =>
    match q.boundaryAt with
    | some f => if f < d.clock.frame then .next { s with dev := d.applyLevel ctx.val q f } else .next s
    | none => .next s
  | _, _, _ => .next s

/-! ## Step boundaries (R163) -/

/-- ARM the SIGCAP a context still owes, at the earliest frame R51 allows (R202). -/
def Dev.tryCap (d : Dev) (c : Nat) : Dev :=
  if (d.ctx c).hz.capArm then
    let r := d.arm 3 c 0
    if r.2.1.ok then r.1.modCtx c (fun x => { x with hz.capArm := false }) else d
  else d

/-- A step under resolution that is not suspect: a shadow replay or a Pair comparison (R170, R172). DEDUCED (log entry 54). -/
def pendingCheck (id : Nat) (step : Word) (cause : SuspectCause) (phase : SuspectPhase) (runs : List Run) (frame : Nat) : Suspect where
  id := id
  step := step
  cause := cause
  real := false
  since := frame
  phase := phase
  runs := runs
  desc := none
  descBank := 0
  handles := []
  badBlocks := []
  cmp := none
  onVoid := false
  pairs := []
  left := none

/-- One of `n` alternatives, by mix64 of the frame's seed and the numbers that the choice rests on (R170, R204). DESIGN CHOICE (log entry 42). -/
def Dev.mixChoice (d : Dev) (x : DWord) (n : Nat) : Nat := (mix64 (d.seed.getD 0 ^^^ x)).toNat % n

/-- The replays that the shadow cores of a context make of a step; which normal core each takes, mix64 of the seed, its unit and the step
number say (R170). -/
def Dev.shadowChecks (d : Dev) (c : Nat) (ep step : Word) : Dev :=
  let normals := d.inRole c 0
  (d.inRole c 1).foldl (fun (acc : Dev) s =>
    let cand := normals.filter (fun n => outsidePair n.1 s.1)
    match (d.bank s.1).cc.posOf s.2 with
    | none => acc
    | some sp =>
      match cand[d.mixChoice (BitVec.ofNat 64 (coreUnit s.1 sp * 2 ^ 32 + step.toNat)) cand.length]? with
      | none => acc
      | some o =>
        match (d.bank o.1).cc.posOf o.2 with
        | some op =>
          ({ acc with hz.tagNo := acc.hz.tagNo + 1 }).modEpoch c ep (fun e => { e with suspects := e.suspects ++
            [pendingCheck acc.hz.tagNo step .shadow (.seek .shadow) [mkRun .orig o.1 op o.2, mkRun .shadow s.1 sp s.2] d.clock.frame] })
        | none => acc) d

/-- Logical cores of a Bank that may be remapped at a boundary of their owner: marked, or vacant (R251, R253). -/
def Dev.readyRemaps (d : Dev) (b : Nat) (f : Nat → Bool) : Dev :=
  d.modBank b (fun k =>
    let more := (((k.cc.remapDue ++ k.cc.vacant).filter (fun n => f n && !k.cc.remapReady.contains n)).eraseDups)
    { k with cc.remapReady := k.cc.remapReady ++ more })

/-- Dumps at a boundary that ends `step` (R399, R401). -/
def Dev.dumpBoundary (d : Dev) (c : Nat) (step : Word) : Dev :=
  { d with dbg.dumps := Tbl.mapAll Dump.init (fun _ e =>
      if e.ctx ≠ c then e
      else if e.state = 2 && decide (e.step = step) then { e with halting := true }
      else if e.state = 1 && serLt e.step step then { e with state := 5 }
      else e) d.dbg.dumps }

/-- What a step boundary does to the epochs of a context at Gate or above: one that is an epoch boundary closes the open epoch, and the next
step opens one where none is open (R187, R188); a retraction without RESUME keeps it waiting (R210), and so does a lowering below Gate that
takes effect at the next tick, after which none opens (R177). -/
def CtxHz.turn (h : CtxHz) (frame : Nat) (epochMark lowering : Bool) : CtxHz :=
  let h1 := if epochMark then h.close frame else h
  if h1.opened then h1
  else if h1.retractPend || lowering then { h1 with openNext := true }
  else h1.openOrStall

/-- A context step boundary (R163) that ends `step`, with what falls at it. DEDUCED (log entry 168). -/
def Dev.boundary (d : Dev) (c : Nat) (step : Word) (epochMark : Bool) : Dev :=
  let x := d.ctx c
  let banks := d.banksOf c
  let frame := d.clock.frame
  let ep := (x.hz.openEpoch.map (fun e => e.num)).getD x.hz.epoch
  let d1 := d.modCtx c (fun x => { x with
    core := { x.core with
      marks := [], markEpoch := false, boundaryAt := some frame, step := step + 1
      pend := x.core.pend.map (fun q => if q.boundaryAt.isNone then { q with boundaryAt := some frame } else q) }
    hz := { x.hz with endedStep := some step } })
  let d2 :=
    if x.gate then
      let d2 := d1.modCtx c (fun x => { x with
        hz := { x.hz with capArm := true, capWait := x.hz.capWait ++ [{ step := step, epoch := ep, pair := x.core.level == 5 }] } })
      let d3 := d2.tryCap c
      let d4 := if x.core.level = 4 then d3.shadowChecks c ep step else d3
      if x.core.level = 5 then ({ d4 with hz.tagNo := d4.hz.tagNo + 1 }).modEpoch c ep (fun e => { e with
        suspects := e.suspects ++ [pendingCheck d4.hz.tagNo step .pair .waitOrig [] frame] })
      else d4
    else d1
  let d3 :=
    if x.gate then d2.modCtx c (fun x => { x with hz := x.hz.turn frame epochMark (x.core.pend.any (fun q => decide (q.level < 3))) })
    else d2
  let lost := x.gate && (x.core.lostFailPend || banks.any (fun b => d.pairLost b))
  let d4 := d3.dumpBoundary c step
  let d5 := if lost then d4.failCtx c 1 else d4
  let d6 := banks.foldl (fun (acc : Dev) b => acc.readyRemaps b (fun n => decide (((d.bank b).cc.owner n).1 = c))) d5
  d6.modCtx c (fun x => { x with core.held := x.core.held ++ banks.flatMap (fun b => d6.newHolds b c) })

/-- Every Bank of the context that is not isolated has marked the end of the step: an isolated one marks none (R163, R352). -/
def Dev.allMarked (d : Dev) (c : Nat) : Bool :=
  (d.banksOf c).all (fun b => (d.bank b).isolated || (d.ctx c).core.marks.contains b)

/-- At a tick: the boundary of a step that waited only for marks of Banks isolated meanwhile (R352). DEDUCED (log entry 168). -/
def Dev.lostBoundary (d : Dev) (c : Nat) : Dev :=
  match (d.ctx c).core.marks with
  | b :: _ => if d.allMarked c then d.boundary c (d.bank b).cc.step (d.ctx c).core.markEpoch else d
  | [] => d

/-- END_STEP of BK_CC_MARK from the control core of a Bank (R496): a mark; the last one is the context's step boundary. During
a global stop the control cores are halted, and a mark is an event inside the frozen state (R59). -/
def Dev.endStep (d : Dev) (p : Path) (b c : Nat) (epoch : Bool) (v : Word) : Dev :=
  if d.clock.stopped then d.satZ Reg.ZN_STOP_LOST 1
  else if !(d.bank b).owns c then (d.regReject (.bk b Reg.BK_CC_MARK) v 1).bumpZ Reg.ZN_CFG_CNT_REJECT
  else
    let _ := p
    let step := (d.bank b).cc.step
    let d1 := d.modCtx c (fun x => { x with core := { x.core with
      marks := if x.core.marks.contains b then x.core.marks else x.core.marks ++ [b]
      markEpoch := x.core.markEpoch || epoch
      held := x.core.held ++ d.newHolds b c } })
    let x := d1.ctx c
    let d2 := if d1.allMarked c then d1.boundary c step x.core.markEpoch else d1
    (((d.bank b).cc.ownPend.map Prod.fst).filter (fun n => decide (((d.bank b).cc.owner n).1 = c))).foldl
      (fun acc n => acc.applyOwner b n) d2

/-- END_STEP. -/
def execEndStep (p : Path) (bank : BankId) (epoch : Bool) (ctx : CtxId) (s : State) : Host.Outcome State Fault Refusal :=
  let v := w32 (1 + 2 * bit epoch + 65536 * ctx.val)
  .next (s.onDev (fun d => d.cmdB p bank.val Reg.BK_CC_MARK v (fun d => d.endStep p bank.val ctx.val epoch v)))

end Sys2Proof.Machine
end

