-- ==== Sys2Proof/Machine/Descriptors.lean ====
section
/-! DEFINITION. Check descriptors in a Bank (R125 to R152): presenting and accepting a candidate, a submission, the operand
reader, and the Anvil's slots. -/

namespace Sys2Proof.Machine

/-! ## Entries of a channel (R149) -/

/-- The descriptors of a channel that have no verdict yet. -/
def BankAnv.chanQueue (a : BankAnv) (ch : Nat) : List Desc := Tbl.get [] a.queue ch

/-- A Bank with another descriptor list on a channel. -/
def Bank.setQueue (k : Bank) (ch : Nat) (l : List Desc) : Bank := { k with anv.queue := Tbl.set [] k.anv.queue ch l }

/-- Hold a candidate for a seed (R129). -/
def Bank.hold (k : Bank) (x : Cand) : Bank := { k with anv.held := k.anv.held ++ [x] }

/-- Take a candidate off those held. -/
def Bank.unhold (k : Bank) (x : Cand) : Bank :=
  let rest := k.anv.held.erase x
  { k with anv.held := rest }

/-- Take a candidate off those presented. -/
def Bank.unpresent (k : Bank) (x : Cand) : Bank :=
  let rest := k.anv.presented.erase x
  { k with anv.presented := rest }

/-- Entries in use on a channel: an entry is freed when its verdict is forwarded (R147). -/
def BankAnv.inUse (a : BankAnv) (ch : Nat) : List Desc := a.chanQueue ch ++ a.done.filter (fun x => decide (x.cand.chan = ch))

/-- `n` entries of a channel are free for a candidate of a source: Wisp candidates fill at most 60 (R149). -/
def BankAnv.room (a : BankAnv) (ch src n : Nat) : Bool :=
  let used := a.inUse ch
  decide (used.length + n ≤ 64) &&
    (decide (src ≠ 0) || decide ((used.filter (fun x => decide (x.cand.src = 0))).length + n ≤ 60))

/-- The entries a candidate takes: two for a ROWSUM of a TWOVEC declaration (R129). -/
def Cand.entries (x : Cand) : Nat := if x.op = opROWSUM && x.twoVec then 2 else 1

/-- A candidate that waits for a frame with a seed (R129). -/
def Cand.needsSeed (x : Cand) : Bool := decide (x.op = opROWSUM) || decide (x.op = opSETHASH)

/-- The seed at a Bank; a header with a CRC error brings none (R41). -/
def Dev.bankSeed (d : Dev) (b : Nat) : Option DWord := if (d.bank b).seedAbsent then none else d.seed.map (fun x => x ^^^ (d.bank b).seedFlip)

/-! ## Verdicts leave the Anvil (R107, R117, R146, R147) -/

/-- A descriptor has its verdict: it waits for the next tick, and BEYOND, VOID and a mimic miss are recorded (R371). -/
def Dev.finishDesc (d : Dev) (b : Nat) (x : Desc) : Dev :=
  let v := verdictOf x.verdict
  let p3 := w32 (x.cand.oper.toNat + 65536 * (x.seq.toNat % 65536))
  let event (code : Nat) (d : Dev) : Dev :=
    d.bankEvent b 264 code x.cand.ctx (lo32 x.verdict) (marginOf x.verdict) x.cand.step p3 .nothing
  let d1 := if v = vBEYOND then event 0x20 d else if v = vVOID then event 0x21 d else d
  let d2 := if missOf x.verdict && !x.strict then event 0x22 d1 else d1
  d2.modBank b (fun k => { k with anv.done := k.anv.done ++ [{ x with st := .finished }] })

/-! ## Acceptance (R125, R129) -/

/-- The check key of a descriptor (R129). -/
def checkKey (seed : DWord) (b : Nat) (seq : Word) : DWord :=
  mix64 (seed ^^^ BitVec.ofNat 64 (b * 2 ^ 48) ^^^ seq.setWidth 64)

/-- One descriptor of a candidate: SEQ, KEY and ACCEPT are set, with the context's STRICT and GATE (R125). DEDUCED (log entry 62). -/
def Dev.newDesc (d : Dev) (b : Nat) (x : Cand) (seed : Option DWord) : Desc :=
  let seq := (d.bank b).anv.seq
  let c := d.ctx x.ctx
  { cand := x
    key := match seed with
      | some s => checkKey s b seq
      | none => 0
    seq := seq
    accept := d.bankFrame b % 2 ^ 32
    st := if x.op = opSIGCMP then .runnable else .fetching
    strict := c.core.strict
    gate := c.gate
    incarn := c.core.incarn
    units := 0
    next := 0
    verdict := 0
    decl := []
    blocks := []
    carried := 0 }

/-- Queue one descriptor on its channel; a SIGCMP that fetch would decide takes its verdict now (R139, R146). -/
def Dev.queueDesc (d : Dev) (b : Nat) (x : Cand) (seed : Option DWord) : Dev :=
  let y := d.newDesc b x seed
  let d1 := d.modBank b (fun k => { k with anv.seq := k.anv.seq + 1 })
  let v := x.sigVerdict
  if x.op = opSIGCMP && (verdictOf v = vNULL || verdictOf v = vVOID) then d1.finishDesc b { y with verdict := v }
  else d1.modBank b (fun k => k.setQueue x.chan (k.anv.chanQueue x.chan ++ [y]))

/-- Accept a candidate: one descriptor, or the two of a TWOVEC pair with SECOND on the second (R129). -/
def Dev.acceptCand (d : Dev) (b : Nat) (x : Cand) : Dev :=
  let seed := d.bankSeed b
  if x.entries = 2 then (d.queueDesc b { x with second := false } seed).queueDesc b { x with second := true } seed
  else d.queueDesc b x seed

/-- A Wisp candidate leaves its pending entry at acceptance, and HOLD_REQ falls (R150, R151). -/
def Dev.freePending (d : Dev) (b : Nat) (x : Cand) : Dev :=
  let rest (w : Wisp) : List Cand := w.pend.erase x
  if x.src ≠ 0 then d
  else d.modWisp b x.pos (fun w => { w with pend := rest w, presented := (w.presented - 1), holdReq := false })

/-- CANDIDATE_PRESENT (R149): a Wisp presents its oldest candidate not presented yet, while its channel has room for it. -/
def execCandidatePresent (bank : BankId) (pos : Pos) (s : State) : Host.Outcome State Fault Refusal :=
  let d := s.dev
  let w := d.wisp bank.val pos.val
  match w.pend[w.presented]? with
  | none => .next s
  | some x =>
    if d.clock.stopped || d.bankDown bank.val || !(d.bank bank.val).anv.room x.chan 0 x.entries then .next s
    else .next (s.onDev (fun d =>
      (d.modWisp bank.val pos.val (fun w => { w with presented := w.presented + 1 })).modBank bank.val
        (fun k => { k with anv.presented := k.anv.presented ++ [x] })))

/-- DESCRIPTOR_ACCEPT (R129): the Bank accepts the candidate whose turn it is: one held for a seed that has come, else the first
presented that its channel has room for; a ROWSUM or SETHASH without a seed is held. DEDUCED (log entry 64). -/
def execDescriptorAccept (bank : BankId) (s : State) : Host.Outcome State Fault Refusal :=
  let d := s.dev
  let b := bank.val
  let a := (d.bank b).anv
  let seeded := (d.bankSeed b).isSome
  let fits (x : Cand) : Bool := a.room x.chan x.src x.entries
  if d.clock.stopped || d.bankDown b then .next s
  else match (if seeded then a.held.find? fits else none) with
    | some x => .next (s.onDev (fun d => ((d.modBank b (fun k => k.unhold x)).freePending b x).acceptCand b x))
    | none =>
      match a.presented.find? (fun x => fits x || (x.needsSeed && !seeded)) with
      | none => .next s
      | some x =>
        let d1 := d.modBank b (fun k => k.unpresent x)
        if x.needsSeed && !seeded then .next { s with dev := d1.modBank b (fun k => k.hold x) }
        else .next { s with dev := (d1.freePending b x).acceptCand b x }

/-! ## Submissions (R152, R156) -/

/-- The candidate that BK_SUB_D0 to BK_SUB_D7 hold (R125, R126). -/
def Bank.subCand (k : Bank) (twoVec : Bool) : Cand :=
  let w (i : Nat) : Word := k.reg (Reg.BK_SUB_D + 4 * i)
  let pos := bitsOf (w 1) 8 0
  { op := bitsOf (w 0) 3 0
    src := bitsOf (w 0) 6 4
    chan := (k.cc.chanOf pos).getD 0
    second := bitOf (w 0) 10
    validA := bitOf (w 0) 8
    validB := bitOf (w 0) 9
    ctx := bitsOf (w 0) 25 16
    pos := pos
    oper := BitVec.ofNat 16 (bitsOf (w 1) 31 16)
    step := w 2
    decl := BitVec.ofNat 48 ((w 3).toNat + 2 ^ 32 * bitsOf (w 4) 15 0)
    row := w 5
    col := w 6
    count := BitVec.ofNat 16 (bitsOf (w 7) 15 0)
    blocks := 0
    sigA := 0
    sigB := 0
    handle := 0
    twoVec := twoVec
    epoch := none
    tagNo := 0 }

/-- Why a submission is refused, in the order of the codes; 0 where it is not (R156). DEDUCED (log entry 65). -/
def Bank.subRefusal (k : Bank) (x : Cand) : Nat :=
  if x.src ≠ 2 || x.op = opSIGCMP then 3
  else if 263 < x.pos || (k.cc.chanOf x.pos).isNone then 4
  else if x.op = 0 || 7 ≤ x.op then 5
  else if k.anv.room x.chan 2 x.entries then 0
  else 2

/-- SUBMIT of BK_SUB_CMD (R152, R156): the result, and SEQ_LO of the last descriptor queued. -/
def Dev.submit (d : Dev) (mem : HostMem) (b : Nat) : Dev :=
  let k := d.bank b
  let decl := (k.subCand false).decl.toNat
  let x := k.subCand (Decl.parse (mem.read decl 128)).twoVec
  if d.clock.stopped then d.satZ Reg.ZN_STOP_LOST 1
  else match k.subRefusal x with
    | 0 =>
      if x.needsSeed && (d.bankSeed b).isNone then
        d.modBank b (fun k => (k.setReg Reg.BK_SUB_STAT (setBits (k.reg Reg.BK_SUB_STAT) 2 0 1)).hold x)
      else
        let seq := (k.anv.seq.toNat + x.entries - 1) % 65536
        (d.acceptCand b x).modBank b (fun k => k.setReg Reg.BK_SUB_STAT (w32 (1 + 65536 * seq)))
    | r => d.modBank b (fun k => k.setReg Reg.BK_SUB_STAT (setBits (k.reg Reg.BK_SUB_STAT) 2 0 r))

/-- SUBMIT. -/
def execSubmit (p : Path) (bank : BankId) (s : State) : Host.Outcome State Fault Refusal :=
  .next (s.onDev (fun d => d.cmdB p bank.val Reg.BK_SUB_CMD 1 (fun d => d.submit s.mem bank.val)))

/-- Zenith submits a descriptor (R139, R152, R207): queued on its channel, or retried at the next tick. -/
def Dev.zSubmit (d : Dev) (q : SigCmp) : Dev :=
  if d.bankDown q.bank || !(d.bank q.bank).anv.room q.cand.chan 1 1 then
    { d with hz.sigRetry := d.hz.sigRetry ++ [q] }
  else if q.cand.needsSeed && (d.bankSeed q.bank).isNone then { d with hz.sigRetry := d.hz.sigRetry ++ [q] }
  else ({ d with hz.sigOpen := d.hz.sigOpen ++ [q] }).queueDesc q.bank { q.cand with tagNo := q.tag } (d.bankSeed q.bank)

/-! ## The operand reader (R26, R145, R146) -/

/-- The head descriptor of a channel: the one that has started, else the first of Zenith's, else the first (R143). -/
def headOf (l : List Desc) : Option Desc :=
  match l.find? (fun x => decide (x.st = .running) || decide (x.st = .parked)) with
  | some x => some x
  | none =>
    match l.find? (fun x => decide (x.cand.src = 1)) with
    | some x => some x
    | none => l.head?

/-- Put a descriptor back in its place. -/
def replaceDesc (l : List Desc) (y : Desc) : List Desc := l.map (fun x => if x.seq = y.seq then y else x)

/-- Take a descriptor off its channel. -/
def Dev.dropDesc (d : Dev) (b : Nat) (x : Desc) : Dev :=
  d.modBank b (fun k => k.setQueue x.cand.chan ((k.anv.chanQueue x.cand.chan).filter (fun y => decide (y.seq ≠ x.seq))))

/-- Keep a descriptor that changed. -/
def Dev.keepDesc (d : Dev) (b : Nat) (x : Desc) : Dev :=
  d.modBank b (fun k => k.setQueue x.cand.chan (replaceDesc (k.anv.chanQueue x.cand.chan) x))

/-- A descriptor decided without a slot. -/
def Dev.decided (d : Dev) (b : Nat) (x : Desc) (v : DWord) : Dev := (d.dropDesc b x).finishDesc b { x with verdict := v }

/-- What reading an operand block finds (R26): nothing to object to, the check word event it is reported as, or a tag that is not
the one expected. -/
inductive BlockFinding where
  | clean
  | wrongTag
  | failed (code : Nat) (expected : DWord)
  deriving DecidableEq, Repr

/-- Examine a block read for operand `n` (R26, R145); a slot of zero is not checked. DEDUCED (log entry 56). -/
def examine (word : DWord) (handle index : Nat) (bytes : List Byte) : BlockFinding :=
  if word = 0 then .clean
  else if wordMalformed word then .failed 0x11 (withTag word (blockTag handle index))
  else if wordTag word ≠ blockTag handle index then .wrongTag
  else
    let crc := crc32c (bytes.take (wordValid word))
    if crc = wordCrc word then .clean else .failed 0x15 (withCrc word crc)

/-- A check word failure that the operand reader reports, for the step of the descriptor (R26, R84, R201). -/
def Dev.operandFailure (d : Dev) (b : Nat) (x : Desc) (addr code : Nat) (handle index : Word) (word expected : DWord) : Dev :=
  let ev : Event := { code := code, ctx := x.cand.ctx, nosent := wordNosent word, p0 := handle, p1 := index,
                      p2 := x.cand.step, p3 := w32 x.cand.oper.toNat, detail := some (word, expected) }
  let epoch := if x.gate then d.epochOf x.cand else none
  d.present b 265 none ev (.cw code addr x.cand.ctx x.cand.step epoch x.cand.pos handle index none)

/-- Where γ is not defined and every operand has been read, NOBOUND is decided before the first slot (R146). DEDUCED (log entry 57). -/
def Desc.isNobound (x : Desc) : Bool :=
  x.noGamma && x.nextBlock.isNone && decide (verdictOf x.finalVerdict = vVOID) && decide (reasonOf x.finalVerdict = voidNOBOUND)

/-- After a read: a decision of R146, or the descriptor is runnable once the elements for its next work unit are in (R145). -/
def Dev.afterRead (d : Dev) (b : Nat) (x : Desc) : Dev :=
  match x.decide_ with
  | some v => d.decided b x v
  | none =>
    if x.isNobound then d.decided b x x.finalVerdict
    else d.keepDesc b { x with st := if x.st = .fetching && x.ready then .runnable else x.st }

/-- One read of the operand reader for a head descriptor: the declaration first, then a block (R120, R145). -/
def Dev.fetchStep (d : Dev) (mem : HostMem) (b : Nat) (x : Desc) : Dev :=
  if x.decl.isEmpty then d.afterRead b { x with decl := mem.read x.cand.decl.toNat 128 }
  else match x.nextBlock with
    | none => d.afterRead b x
    | some key =>
      let n := key / 2 ^ 48
      let addr := key % 2 ^ 48
      let c := x.dcl
      let index := (addr + 2 ^ 48 - c.base n / 4096 * 4096) % 2 ^ 48 / 4096
      let bytes := mem.read addr 4096
      let word := mem.slot addr
      let carried := x.carried + (if word = 0 then 0 else 1)
      match examine word (c.handle n) index bytes with
      | .failed code want =>
        (d.operandFailure b x addr code (w32 (c.handle n)) (w32 index) word want).decided b x (x.plain vVOID voidOPERAND)
      | .wrongTag => d.decided b x (x.plain vVOID voidOPERAND)
      | .clean =>
        if 1024 < carried then d.decided b x (x.plain vVOID voidINVALID)
        else d.afterRead b { x with blocks := Tbl.put x.blocks key bytes, carried := carried }

/-- A descriptor has something to read: its declaration, or a block. -/
def Desc.wantsRead (x : Desc) : Bool := decide (x.cand.op ≠ opSIGCMP) && (x.decl.isEmpty || x.nextBlock.isSome)

/-- The channel whose turn it is at the operand reader: the next one, round robin, whose head descriptor has something to read (R145). -/
def BankAnv.nextRead (a : BankAnv) : Option Nat :=
  ((List.range 16).map (fun i => (a.lastRead + 1 + i) % 16)).find? (fun ch => (headOf (a.chanQueue ch)).any Desc.wantsRead)

/-- OPERAND_FETCH (R145): the reader completes one read for the head descriptor of the channel whose turn it is. DEDUCED (log entry 55). -/
def execOperandFetch (bank : BankId) (chan : Chan) (s : State) : Host.Outcome State Fault Refusal :=
  let d := s.dev
  let b := bank.val
  let a := (d.bank b).anv
  if d.clock.stopped || d.bankDown b || a.nextRead ≠ some chan.val then .next s
  else match headOf (a.chanQueue chan.val) with
    | none => .next s
    | some x => .next (s.onDev (fun d => (d.modBank b (fun k => { k with anv.lastRead := chan.val })).fetchStep s.mem b x))

/-! ## Slots (R141 to R144, R148) -/

/-- This Bank's Anvil runs its partner's channels (R20, R148); an isolated Bank's channels do not run (R352). DEDUCED (log entry 184). -/
def Dev.hosting (d : Dev) (b : Nat) : Bool :=
  (d.bank (partner b)).anv.isolated && !(d.bank (partner b)).isolated && !(d.bank b).anv.isolated

/-- A channel that an Anvil serves: 0 to 15 of its own Bank, 16 to 31 of the partner. -/
def chanBank (b id : Nat) : Nat := if id < 16 then b else partner b

/-- The owner of a slot (R141, R148). -/
def Dev.slotOwner (d : Dev) (b slot : Nat) : Nat :=
  if (d.bank b).anv.hostTable then slot / 4 + (if slot % 2 = 0 then 0 else 16) else (d.bank b).anv.slotChan slot

/-- The head descriptor of a channel can use a slot. -/
def Dev.chanReady (d : Dev) (b id : Nat) : Bool :=
  let k := d.bank (chanBank b id)
  if k.resetAt.isSome || k.isolated then false
  else match headOf (k.anv.chanQueue (id % 16)) with
    | some x => (decide (x.st = .runnable) || decide (x.st = .running) || decide (x.st = .parked)) && x.ready
    | none => false

/-- The channel a slot is given to: its own, or the next in round-robin order that is ready (R143). DEDUCED (log entry 63). -/
def Dev.slotChannel (d : Dev) (b slot : Nat) : Option Nat :=
  let owner := d.slotOwner b slot
  let n := if (d.bank b).anv.hostTable then 32 else 16
  if d.chanReady b owner then some owner
  else ((List.range n).map (fun i => (owner + 1 + i) % n)).find? (fun id => d.chanReady b id)

/-- Run a channel for `z` zc: its head, and after a finish the next descriptor of the channel. -/
def Dev.runChan (d : Dev) (b id : Nat) : Nat → Nat → Dev
  | 0, _ => d
  | fuel + 1, z =>
    if z = 0 || !d.chanReady b id then d
    else
      let kb := chanBank b id
      match headOf ((d.bank kb).anv.chanQueue (id % 16)) with
      | none => d
      | some x =>
        let (y, a, left, fin) := x.runIn (Tbl.get ChanCtx.init (d.bank kb).anv.ctxs (id % 16)) z
        let d1 := d.modBank kb (fun k => { k with anv.ctxs := Tbl.set ChanCtx.init k.anv.ctxs (id % 16) a })
        if fin then ((d1.dropDesc kb y).finishDesc kb y).runChan b id fuel left else d1.keepDesc kb y

/-- The outgoing channel's descriptor is parked at a switch (R142, R144). -/
def Dev.parkChan (d : Dev) (b id : Nat) : Dev :=
  d.modBank (chanBank b id) (fun k => k.setQueue (id % 16) ((k.anv.chanQueue (id % 16)).map (fun x =>
    if x.st = .running then { x with st := .parked } else x)))

/-- SLOT (R141, R142): a slot of 32 zc, with a 4 zc switch where its channel differs from the preceding one's. An Anvil that has returned to
service has its own slots again from the tick at which its partner's table is restored (R148). -/
def execSlot (bank : BankId) (s : State) : Host.Outcome State Fault Refusal :=
  let d := s.dev
  let b := bank.val
  let a := (d.bank b).anv
  if d.clock.stopped || d.bankDown b || a.isolated || a.resetAt.isSome || (d.bank (partner b)).anv.hostTable || decide (64 ≤ a.slotNo) then
    .next s
  else
    let d1 := d.modBank b (fun k => { k with anv.slotNo := k.anv.slotNo + 1 })
    match d.slotChannel b a.slotNo with
    | none => .next { s with dev := d1 }
    | some id =>
      let switch := decide (id ≠ a.lastChan)
      let d2 := if switch then (d1.parkChan b a.lastChan).modBank b (fun k => k.add Reg.BK_ANV_SWITCHES 1) else d1
      let d3 := (d2.modBank b (fun k => { k with anv.lastChan := id })).modBank (chanBank b id) (fun k =>
        { k with anv.slotsRun := Tbl.set 0 k.anv.slotsRun (id % 16) (Tbl.get 0 k.anv.slotsRun (id % 16) + 1) })
      .next { s with dev := d3.runChan b id 17 (if switch then 28 else 32) }

end Sys2Proof.Machine
end

