-- ==== Sys2Proof/Machine/Replay.lean ====
section
/-! DEFINITION. The resolution of suspect steps (R170, R172, R201 to R208): shares of a run, comparing two runs, choosing a replay
core, the request and its answer, and what each comparison decides. -/

namespace Sys2Proof.Machine

/-! ## Steps under resolution -/

/-- Change a step under resolution. -/
def Dev.modSuspect (d : Dev) (c : Nat) (ep : Word) (id : Nat) (f : Suspect → Suspect) : Dev :=
  d.modEpoch c ep (fun e => { e with suspects := e.suspects.map (fun q => if q.id = id then f q else q) })

/-- A step is cleared, or a comparison done with. -/
def Dev.clearSuspect (d : Dev) (c : Nat) (ep : Word) (id : Nat) : Dev :=
  d.modEpoch c ep (fun e => { e with suspects := e.suspects.filter (fun q => decide (q.id ≠ id)) })

/-- Every step under resolution with its context and epoch. -/
def Dev.suspects (d : Dev) : List (Nat × Word × Suspect) :=
  d.ctxs.flatMap (fun x => x.2.hz.epochs.flatMap (fun e => e.suspects.map (fun q => (x.1, e.num, q))))

/-- A run of a step under resolution. -/
def Suspect.run (q : Suspect) (r : RunId) : Option Run := q.runs.find? (fun x => decide (x.run = r))

/-- Change a run. -/
def Suspect.modRun (q : Suspect) (r : RunId) (f : Run → Run) : Suspect :=
  { q with runs := q.runs.map (fun x => if x.run = r then f x else x) }

/-- The unit of the core that made a run; 0x1FFFF where there is none. -/
def Suspect.unitOf (q : Suspect) (r : RunId) : Nat := ((q.run r).map (fun x => coreUnit x.bank x.pos)).getD 0x1FFFF

/-! ## Shares (R87, R202) -/

/-- A share added to those of its handle. -/
def addShare (l : List Share) (x : Share) : List Share :=
  if l.any (fun y => decide (y.handle = x.handle)) then
    l.map (fun y => if y.handle = x.handle then
      { y with blocks := y.blocks + x.blocks, sum := y.sum + x.sum, invalid := y.invalid || x.invalid } else y)
  else l ++ [x]

/-- Shares of one key captured at several ticks are summed (R202). -/
def mergeShares (l : List Share) : List Share := l.foldl addShare []

/-- The shares of a step that the log holds for one position. -/
def Dev.loggedShares (d : Dev) (c : Nat) (step : Word) (b p : Nat) : List Share :=
  mergeShares ((d.hz.log.filter (fun l => decide (l.bank = b) && decide (l.pos = p) && decide (l.share.ctx = c) &&
    decide (l.share.step = step))).map (fun l => l.share))

/-- A SIGCAP has captured the shares of a step. -/
def Dev.captured (d : Dev) (c : Nat) (step : Word) : Bool :=
  match (d.ctx c).hz.capStep with
  | some t => serLe step t
  | none => false

/-! ## Recording and charging (R207, R230) -/

/-- An event of the horizon engine about a step. -/
def Dev.hzEvent (d : Dev) (code c : Nat) (step : Word) (p1 p2 p3 : Nat) : Dev :=
  d.zEvent 1 code c step (w32 p1) (w32 p2) (w32 p3)

/-- Charge a core for a resolution that rests on no VOID SIGCMP. -/
def Dev.chargeRun (d : Dev) (q : Suspect) (r : RunId) (reason : Nat) : Dev :=
  match q.run r with
  | some x => if q.onVoid then d else d.hEvent (coreUnit x.bank x.pos) (.charge reason)
  | none => d

/-- HZ_SPLIT: the runs disagree three ways; with 0x1FFFF for the units where a comparison rests on a VOID SIGCMP. -/
def Dev.split (d : Dev) (c : Nat) (q : Suspect) (a b z : RunId) : Dev :=
  let u (r : RunId) : Nat := if q.onVoid then 0x1FFFF else q.unitOf r
  let d1 := d.hzEvent 0x33 c q.step (u a) (u b) (u z)
  ((d1.chargeRun q a rSPLIT).chargeRun q b rSPLIT).chargeRun q z rSPLIT

/-- A run is proven wrong by two that agree: charged, or recorded as HZ_SPLIT without units where that rests on a VOID SIGCMP. -/
def Dev.provenWrong (d : Dev) (c : Nat) (q : Suspect) (r : RunId) : Dev :=
  if q.onVoid then d.hzEvent 0x33 c q.step 0x1FFFF 0x1FFFF 0x1FFFF else d.chargeRun q r rREPRO

/-- Retract the epoch of a step, for a verdict. -/
def Dev.retractStep (d : Dev) (c : Nat) (ep : Word) : Dev := d.retract c ep 1

/-! ## Comparing two runs (R206) -/

/-- The handle under which a run's tensor is compared: a pair secondary stores with bit 31 inverted (R171). -/
def normHandle (r : RunId) (h : Word) : Word := if r = .secondary then h ^^^ 0x80000000 else h

/-- The handles under which two runs stored differently. -/
def shapeDiffs (ra rb : RunId) (a b : List Share) : List Word :=
  let ha := a.map (fun x => (normHandle ra x.handle, x.blocks))
  let hb := b.map (fun x => (normHandle rb x.handle, x.blocks))
  ((ha.filter (fun x => !hb.contains x) ++ hb.filter (fun x => !ha.contains x)).map Prod.fst).eraseDups

/-- A SIGCMP of two shares on a core's channel (R139). -/
def sigCand (c : Nat) (step : Word) (chan pos : Nat) (a b : Share) (handle : Word) : Cand where
  op := opSIGCMP
  src := 1
  chan := chan
  second := false
  validA := !a.invalid
  validB := !b.invalid
  ctx := c
  pos := pos
  oper := 0
  step := step
  decl := 0
  row := 0
  col := 0
  count := 0
  blocks := w32 a.blocks
  sigA := a.sum
  sigB := b.sum
  handle := handle
  twoVec := false
  epoch := none
  tagNo := 0

/-- The next number of a descriptor that Zenith submits. -/
def Dev.nextTag (d : Dev) : Nat × Dev := (d.hz.tagNo, { d with hz.tagNo := d.hz.tagNo + 1 })

/-- Submit one SIGCMP of a step and note its number. -/
def Dev.submitSig (d : Dev) (c : Nat) (ep step : Word) (b core pos : Nat) (both : List Nat) (a z : Share) (h : Word) :
    Dev × Nat :=
  let (tag, d1) := d.nextTag
  (d1.zSubmit { tag := tag, bank := b, cand := sigCand c step (core / 16) pos a z h, ctx := c, epoch := ep, step := step,
                both := both }, tag)

/-- Begin comparing runs `ra` and `rb`, handle by handle, the SIGCMPs on the channel of `rb`'s core (R206). -/
def Dev.compare (d : Dev) (c : Nat) (ep : Word) (q : Suspect) (ra rb : RunId) : Dev :=
  match q.run ra, q.run rb with
  | some a, some b =>
    let sa := a.shares
    let sb := b.shares
    let odd := shapeDiffs ra rb sa sb
    let d1 := odd.foldl (fun (acc : Dev) h => acc.zEvent 1 0x31 c q.step h 0 0) d
    let pairs := sa.filterMap (fun x =>
      (sb.find? (fun y => decide (normHandle rb y.handle = normHandle ra x.handle) && decide (y.blocks = x.blocks))).map
        (fun y => (x, y)))
    let (d2, tags) := pairs.foldl (fun (acc : Dev × List Nat) e =>
      let (dd, t) := acc.1.submitSig c ep q.step b.bank b.core b.pos [coreUnit a.bank a.pos, coreUnit b.bank b.pos] e.1 e.2
        (normHandle ra e.1.handle)
      (dd, acc.2 ++ [t])) (d1, [])
    d2.modSuspect c ep q.id (fun q => { q with
      phase := .comparing
      cmp := some { a := ra, b := rb, left := tags, mismatch := !odd.isEmpty, onVoid := false } })
  | _, _ => d

/-! ## Choosing a replay core (R28, R204) -/

/-- Scratch slots of the replay carve-out (R443). -/
def Dev.replaySlots (d : Dev) : Nat :=
  match d.cfg.regions[3]? with
  | some r => if d.cfg.replaySlot = 0 then 0 else r.size / (d.cfg.replaySlot * 4096)
  | none => 0

/-- Every replay request that stands. -/
def Dev.replayReqs (d : Dev) : List ReplayReq := d.banks.flatMap (fun e => e.2.cc.replays)

/-- The address of a scratch slot. -/
def Dev.slotAddr (d : Dev) (i : Nat) : Nat := ((d.cfg.regions[3]?).map (fun r => r.base)).getD 0 + i * d.cfg.replaySlot * 4096

/-- A free scratch slot. -/
def Dev.freeSlot (d : Dev) : Option Nat :=
  (List.range d.replaySlots).find? (fun i => !(d.replayReqs.any (fun r => decide (r.scratch = d.slotAddr i))))

/-- Commands to a logical core are withheld: a remap request waits, or a field test runs on it (R245, R496). -/
def Dev.withheld (d : Dev) (b n : Nat) : Bool :=
  (d.bank b).cc.remaps.any (fun r => decide (r.logical = n)) ||
    (match (d.bank b).cc.posOf n with
      | some p => (Tbl.get none (d.bank b).tests p).isSome
      | none => true)

/-- A core that can take a replay now: Clear, live Anvil, room in the queue, not in use (R204, R496). -/
def Dev.canReplay (d : Dev) (b n : Nat) : Bool :=
  let k := d.bank b
  !d.bankDown b && !d.pairLost b && decide (k.cc.replays.length < 4) && !d.withheld b n &&
    !k.cc.replays.any (fun r => decide (r.core = n)) &&
    (match k.cc.posOf n with
      | some p => d.healthOf (coreUnit b p) == .clear
      | none => false)

/-- A step boundary of a context fell in the frame just ended. -/
def Dev.atBoundary (d : Dev) (c : Nat) : Bool :=
  match (d.ctx c).core.boundaryAt with
  | some f => decide (f + 1 = d.clock.frame)
  | none => false

/-- The preference class of a core for a replay of context `c` (R204): 0 where it cannot be taken now. -/
def Dev.replayClass (d : Dev) (c b n : Nat) : Nat :=
  let o := ((d.bank b).cc.owner n).1
  if o = 0 then
    match (d.bank b).cc.posOf n with
    | some p => if d.idle b p then 1 else 0
    | none => 0
  else if !d.atBoundary o then 0
  else if o = c then 3
  else 2

/-- The cores of a preference class outside the Bank and the pair of every run, but for the core whose replay was abandoned last, those
outside the context's own Banks first where `outside` asks for them. DESIGN CHOICE (log entry 42). -/
def Dev.replayChoices (d : Dev) (c : Nat) (q : Suspect) (cls : Nat) (outside : Bool) : List (Nat × Nat) :=
  let own := d.banksOf c
  let banks := (List.range 192).filter (fun b => q.runs.all (fun r => outsidePair b r.bank) && !(outside && own.contains b))
  banks.flatMap (fun b => ((List.range 256).filter (fun n =>
    d.replayClass c b n == cls && d.canReplay b n && decide (q.left ≠ some (b, n)))).map (fun n => (b, n)))

/-- The core chosen: the best class, a Bank outside the context's own first, ties by mix64 of the seed and the step (R28, R204). -/
def Dev.pickCore (d : Dev) (c : Nat) (q : Suspect) : Option (Nat × Nat) :=
  let lists := [(1, true), (1, false), (2, true), (2, false), (3, true), (3, false)].map
    (fun e => d.replayChoices c q e.1 e.2)
  match lists.find? (fun l => !l.isEmpty) with
  | none => none
  | some l => l[d.mixChoice (q.step.setWidth 64) l.length]?

/-- Post a replay request to a Bank's control core (R205); a core that another context owns is held by its own (R204), and with `own` the
shadow core makes its shadow run (R170). -/
def Dev.postReplay (d : Dev) (c : Nat) (ep : Word) (q : Suspect) (r : RunId) (b n slot : Nat) (own : Bool) : Dev :=
  match (d.bank b).cc.posOf n with
  | none => d
  | some p =>
    let t := d.hz.ticket
    let o := (q.run .orig).getD (mkRun .orig 0 0 0)
    let req : ReplayReq := { ticket := t, ctx := c, step := q.step, origBank := o.bank, origCore := o.core, core := n,
                             scratch := d.slotAddr slot }
    let owner := ((d.bank b).cc.owner n).1
    let run : Run := { mkRun r b p n with ticket := t, slot := slot, host := if own then none else some owner }
    let d1 := ({ d with hz.ticket := (t + 1) % 65536 }).modBank b (fun k => { k with cc.replays := k.cc.replays ++ [req] })
    d1.modSuspect c ep q.id (fun q => { q with
      phase := .replaying r
      runs := q.runs.filter (fun x => decide (x.run ≠ r)) ++ [run] })

/-- A core is picked by R204 and the request posted; where none can be taken now, the step waits. -/
def Dev.seekAny (d : Dev) (c : Nat) (ep : Word) (q : Suspect) (r : RunId) (slot : Nat) : Dev :=
  match d.pickCore c q with
  | some (b, n) => d.postReplay c ep q r b n slot false
  | none => d

/-- Look for a replay core and post the request; a shadow run is made by its shadow core, or, where that is not Clear or its replay was
abandoned, by another core (R170, R204, R207). -/
def Dev.seekReplay (d : Dev) (c : Nat) (ep : Word) (q : Suspect) (r : RunId) : Dev :=
  match d.freeSlot with
  | none => d
  | some slot =>
    match if r = .shadow then q.run .shadow else none with
    | some s =>
      if d.healthOf (coreUnit s.bank s.pos) ≠ .clear then
        d.seekAny c ep { q with runs := q.runs.filter (fun x => decide (x.run ≠ .shadow)) } r slot
      else if decide ((d.bank s.bank).cc.replays.length < 4) && !d.bankDown s.bank && !d.withheld s.bank s.core then
        d.postReplay c ep q r s.bank s.core slot true
      else d
    | none => d.seekAny c ep q r slot

/-! ## What a comparison decides (R207) -/

/-- The next pair of a Pair mismatch: O is the primary, with the secondary beside it. -/
def Dev.nextPair (d : Dev) (c : Nat) (ep : Word) (q : Suspect) : Dev :=
  match q.pairs with
  | [] => d.clearSuspect c ep q.id
  | (m, z) :: rest =>
    let mk (r : RunId) (x : Nat × Nat) : Run :=
      let p := ((d.bank x.1).cc.posOf x.2).getD 0
      { mkRun r x.1 p x.2 with done := true, shares := d.loggedShares c q.step x.1 p }
    d.modSuspect c ep q.id (fun q => { q with
      pairs := rest, runs := [mk .orig m, mk .secondary z], phase := .seek .r1, cmp := none, left := none })

/-- Blocks and sum of a core's share of a tensor differ between the cores of a pair, or one of the shares is INVALID. -/
def sharesDiffer (a z : Option (Nat × DWord × Bool)) : Bool :=
  let bad (x : Option (Nat × DWord × Bool)) : Bool := (x.map (fun y => y.2.2)).getD false
  decide (a ≠ z) || bad a || bad z

/-- The share of a tensor that a core stored in a step, as the share log holds it. -/
def Dev.coreShare (d : Dev) (c : Nat) (step : Word) (x : Nat × Nat) (h : Word) : Option (Nat × DWord × Bool) :=
  match (d.bank x.1).cc.posOf x.2 with
  | some p => ((d.loggedShares c step x.1 p).find? (fun s => decide (s.handle = h))).map (fun s => (s.blocks, s.sum, s.invalid))
  | none => none

/-- The pairs to replay for failing handles: those whose per-core shares differ (R207); where none does, since a SIGCMP ended VOID, those
that stored under one of them (R172). DEDUCED (log entry 179). -/
def Dev.pairsThatDiffer (d : Dev) (c : Nat) (step : Word) (hs : List Word) : List ((Nat × Nat) × (Nat × Nat)) :=
  let pairs := (d.ctx c).core.partners
  let differ := pairs.filter (fun e => hs.any (fun h =>
    sharesDiffer (d.coreShare c step e.1 h) (d.coreShare c step e.2 (h ^^^ 0x80000000))))
  if differ.isEmpty then
    pairs.filter (fun e => hs.any (fun h =>
      (d.coreShare c step e.1 h).isSome || (d.coreShare c step e.2 (h ^^^ 0x80000000)).isSome))
  else differ

/-- A comparison that was not yet a suspect step makes one (R201, R207); a step that is suspect already takes no second
resolution. -/
def Dev.raiseSuspect (d : Dev) (c : Nat) (ep : Word) (q : Suspect) : Dev :=
  match (d.ctx c).hz.epochs.find? (fun e => decide (e.num = ep)) with
  | none => d
  | some e =>
    if e.suspects.any (fun z => z.real && decide (z.step = q.step)) then d.clearSuspect c ep q.id
    else if 16 ≤ e.realCount then d.retract c ep 1
    else if q.cause = .pair then
      let pairs := d.pairsThatDiffer c q.step q.handles
      if pairs.isEmpty then (d.hzEvent 0x33 c q.step 0x1FFFF 0x1FFFF 0x1FFFF).retractStep c ep
      else
        (d.modSuspect c ep q.id (fun q => { q with real := true, since := d.clock.frame })).nextPair c ep
          { q with pairs := pairs }
    else d.modSuspect c ep q.id (fun q => { q with real := true, since := d.clock.frame, phase := .seek .r1, cmp := none })

/-- The sampled descriptor goes to the Anvil of R1's Bank (R207). -/
def Dev.startCrossCheck (d : Dev) (c : Nat) (ep : Word) (q : Suspect) : Dev :=
  match q.desc, q.run .r1 with
  | some x, some r =>
    let (tag, d1) := d.nextTag
    let cand := { x with src := 1, chan := r.core / 16, pos := r.pos, epoch := none, twoVec := false }
    (d1.zSubmit { tag := tag, bank := r.bank, cand := cand, ctx := c, epoch := ep, step := q.step, both := [] }).modSuspect c ep
      q.id (fun q => { q with phase := .crossCheck tag, cmp := none })
  | _, _ => d.clearSuspect c ep q.id

/-- R1 clears a check word suspect: none of its loads failed, and it verified every block that made the step suspect. -/
def Suspect.cwCleared (q : Suspect) : Bool :=
  match q.run .r1 with
  | some r => !r.badLoads && q.badBlocks.all (fun x => r.passed.contains x)
  | none => false

/-- Look for R2, or compare again. -/
def Dev.seek (d : Dev) (c : Nat) (ep : Word) (q : Suspect) (r : RunId) : Dev :=
  d.modSuspect c ep q.id (fun q => { q with phase := .seek r, cmp := none, left := none })

/-- The result of a comparison, by the table of R207. -/
def Dev.resolve (d0 : Dev) (c : Nat) (ep : Word) (q0 : Suspect) (m : Compare) : Dev :=
  let q := { q0 with onVoid := q0.onVoid || (m.mismatch && m.onVoid) }
  let d := d0.modSuspect c ep q.id (fun z => { z with onVoid := q.onVoid, cmp := none })
  match q.cause, m.a, m.b, m.mismatch with
  | .shadow, .orig, .shadow, false => d.clearSuspect c ep q.id
  | .shadow, .orig, .shadow, true => d.raiseSuspect c ep q
  | .shadow, .orig, .r1, false => (d.chargeRun q .shadow rREDUNDANT).clearSuspect c ep q.id
  | .shadow, .orig, .r1, true => d.compare c ep q .shadow .r1
  | .shadow, _, _, false => (d.provenWrong c q .orig).retractStep c ep
  | .shadow, _, _, true => (d.split c q .orig .r1 .shadow).retractStep c ep
  | .pair, .orig, .secondary, false => d.clearSuspect c ep q.id
  | .pair, .orig, .secondary, true => d.raiseSuspect c ep q
  | .pair, .orig, _, false => (d.chargeRun q .secondary rREDUNDANT).nextPair c ep q
  | .pair, .orig, _, true => d.compare c ep q .secondary .r1
  | .pair, _, _, false => (d.provenWrong c q .orig).retractStep c ep
  | .pair, _, _, true => (d.split c q .orig .r1 .secondary).retractStep c ep
  | .beyond, .orig, _, false => d.startCrossCheck c ep q
  | .deferral, .orig, _, false => d.clearSuspect c ep q.id
  | .checkWord, _, _, false => if q.cwCleared then d.clearSuspect c ep q.id else d.retractStep c ep
  | .checkWord, _, _, true =>
    (if q.onVoid then d.hzEvent 0x33 c q.step 0x1FFFF 0x1FFFF 0x1FFFF else d).retractStep c ep
  | _, .orig, _, true => d.seek c ep q .r2
  | _, _, _, false => (d.provenWrong c q .orig).retractStep c ep
  | _, _, _, true => (d.split c q .orig .r1 .r2).retractStep c ep

/-- A comparison with no SIGCMP left is decided. -/
def Dev.settleCompare (d : Dev) (c : Nat) (ep : Word) (id : Nat) : Dev :=
  match (d.ctx c).hz.epochs.find? (fun e => decide (e.num = ep)) with
  | none => d
  | some e =>
    match e.suspects.find? (fun q => decide (q.id = id)) with
    | none => d
    | some q =>
      match q.phase, q.cmp with
      | .comparing, some m => if m.left.isEmpty then d.resolve c ep q m else d
      | _, _ => d

/-- The verdict of the cross-check: BEYOND proves the kernel, any other clears the step and speaks against the Anvil of the first
BEYOND (R207, R230); a verdict that proves nothing charges nothing (R8). -/
def Dev.crossVerdict (d : Dev) (c : Nat) (ep : Word) (q : Suspect) (v : Nat) : Dev :=
  if v = vBEYOND then (d.hzEvent 0x32 c q.step (q.unitOf .orig) 0 0).retractStep c ep
  else
    let u := anvilUnit q.descBank
    let d1 := (d.zEvent 1 0x26 c (w32 u) q.step 0 0).clearSuspect c ep q.id
    if v = vVOID || v = vNULL then d1 else d1.hEvent u (.charge rANVIL_DISAGREE)

/-- A verdict on a descriptor that Zenith submitted (R206, R207): a MATCH of a SIGCMP is a clean sample of both cores (R236). -/
def Dev.zVerdict (d : Dev) (tag v : Nat) (handle : Word) : Dev :=
  match d.hz.sigOpen.find? (fun q => decide (q.tag = tag)) with
  | none => d
  | some w =>
    let d1 := { d with hz.sigOpen := d.hz.sigOpen.filter (fun q => decide (q.tag ≠ tag)) }
    let d2 := if v = vMATCH then w.both.foldl (fun (acc : Dev) u => acc.hEvent u .sample) d1 else d1
    match d2.suspects.find? (fun e => decide (e.1 = w.ctx) && decide (e.2.1 = w.epoch) && (match e.2.2.phase, e.2.2.cmp with
      | .crossCheck t, _ => decide (t = tag)
      | .comparing, some m => m.left.contains tag
      | _, _ => false)) with
    | none => d2
    | some (c, ep, q) =>
      match q.phase with
      | .crossCheck _ => d2.crossVerdict c ep q v
      | _ =>
        let bad := decide (v ≠ vMATCH)
        let d3 := d2.modSuspect c ep q.id (fun q => { q with
          handles := if bad && q.cause = .pair && !q.real then q.handles ++ [handle] else q.handles
          cmp := q.cmp.map (fun m => { m with left := m.left.filter (fun t => decide (t ≠ tag)), mismatch := m.mismatch || bad,
                                              onVoid := m.onVoid || decide (v = vVOID) }) })
        d3.settleCompare c ep q.id

/-! ## Replays that outlive their step (R183) -/

/-- The replay of a retracted step has ended with these shares: for a CLOSING context it is still compared with the original, and the verdicts
are discarded (R181, R183). DEDUCED (log entry 180). -/
def Dev.endOrphan (d : Dev) (o : Orphan) (shares : List Share) : Dev :=
  let d1 := { d with hz.orphans := d.hz.orphans.filter (fun x => decide (x ≠ o)) }
  match o.suspect.run o.run, (d.ctx o.ctx).core.state with
  | some r, .closing =>
    let orig := ((o.suspect.run .orig).map (fun x => x.shares)).getD []
    (orig.filterMap (fun x => (shares.find? (fun y => decide (y.handle = x.handle) && decide (y.blocks = x.blocks))).map (fun y => (x, y)))).foldl
      (fun (acc : Dev) e => (acc.submitSig o.ctx o.epoch o.suspect.step r.bank r.core r.pos [] e.1 e.2 e.1.handle).1) d1
  | _, _ => d1

/-! ## Progress at a tick -/

/-- The original's shares, once a SIGCAP has captured them. -/
def Dev.loadOrig (d : Dev) (c : Nat) (q : Suspect) : Suspect :=
  q.modRun .orig (fun r => if r.done then r else { r with done := true, shares := d.loggedShares c q.step r.bank r.pos })

/-- The replay core can no longer be trusted with the replay (R207, R225). -/
def Dev.replayBroken (d : Dev) (r : Run) : Bool :=
  decide (d.healthOf (coreUnit r.bank r.pos) ≠ .clear) || decide ((d.bank r.bank).cc.posOf r.core ≠ some r.pos) ||
    d.bankDown r.bank ||
    (match r.host with
      | some h => decide (((d.bank r.bank).cc.owner r.core).1 ≠ h)
      | none => false)

/-- A replay is abandoned: counted, and another core is sought (R207). DEDUCED (log entry 166). -/
def Dev.abandon (d : Dev) (c : Nat) (ep : Word) (q : Suspect) (r : RunId) : Dev :=
  (d.bumpZ Reg.ZN_HZ_CNT_ABANDONED).modSuspect c ep q.id (fun q => { q with
    phase := .seek r
    runs := q.runs.filter (fun x => decide (x.run ≠ r))
    left := (q.run r).map (fun x => (x.bank, x.core)) })

/-- The comparison that follows a finished replay. DEDUCED (log entry 108). -/
def Dev.afterReplay (d : Dev) (c : Nat) (ep : Word) (q : Suspect) (r : RunId) : Dev :=
  let q1 := d.loadOrig c q
  let d1 := d.modSuspect c ep q.id (fun _ => q1)
  let d2 := match r with
    | .shadow => d1.compare c ep q1 .orig .shadow
    | .r2 => d1.compare c ep q1 .r1 .r2
    | _ => d1.compare c ep q1 .orig .r1
  d2.settleCompare c ep q.id

/-- One step under resolution at a tick. -/
def Dev.advanceSuspect (d : Dev) (c : Nat) (ep : Word) (q : Suspect) : Dev :=
  match q.phase with
  | .waitOrig =>
    if q.real && d.captured c q.step then
      let q1 := { d.loadOrig c q with phase := .seek .r1 }
      (d.modSuspect c ep q.id (fun _ => q1)).seekReplay c ep q1 .r1
    else d
  | .seek r => d.seekReplay c ep q r
  | .replaying r =>
    match q.run r with
    | none => d
    | some x =>
      if x.done then (if d.captured c q.step then d.afterReplay c ep q r else d)
      else if d.replayBroken x then d.abandon c ep q r
      else d
  | .comparing => d
  | .crossCheck _ => d

/-- Every step under resolution at a tick; a replay that no step waits for ends with its core. -/
def Dev.advanceSuspects (d0 : Dev) : Dev :=
  let d := { d0 with hz.orphans := d0.hz.orphans.filter (fun o => (o.suspect.run o.run).any (fun r => !d0.replayBroken r)) }
  d.suspects.foldl (fun (acc : Dev) e =>
    match (acc.ctx e.1).hz.epochs.find? (fun x => decide (x.num = e.2.1)) with
    | some x =>
      match x.suspects.find? (fun q => decide (q.id = e.2.2.id)) with
      | some q => acc.advanceSuspect e.1 e.2.1 q
      | none => acc
    | none => acc) d

/-! ## SIGCAP (R88, R172, R202) -/

/-- The shares of a context in every Wisp that acts at the tick, replay shares apart (R50); a key that found no register has an invalid
one until its step has passed (R87). -/
def Dev.sharesNow (d : Dev) (c : Nat) : List LogEntry :=
  (d.wisps.filter (fun e => e.2.acts d.clock.frame)).flatMap (fun e =>
    (e.2.shares.filter (fun h => decide (h.ctx = c) && !h.replay && (h.invalid || decide (0 < h.blocks)))).map (fun h =>
    { bank := e.1 / 264, pos := e.1 % 264, share := h }))

/-- The role of the core at a position (R160). -/
def Dev.roleAt (d : Dev) (b p : Nat) : Nat :=
  match (d.bank b).cc.logicalOf p with
  | some n => ((d.bank b).cc.owner n).2
  | none => 0

/-- The SIGCMPs of a Pair boundary: each handle with bit 31 zero against its partner's, on the channel of the first primary that
stored under it (R172). -/
def Dev.pairCompare (d : Dev) (c : Nat) (w : CapWait) (caps : List LogEntry) : Dev :=
  match (d.ctx c).hz.epochs.find? (fun e => decide (e.num = w.epoch)) with
  | none => d
  | some e =>
    match e.suspects.find? (fun q => decide (q.cause = .pair) && decide (q.step = w.step) && !q.real && q.phase == .waitOrig) with
    | none => d
    | some q =>
      let mine := caps.filter (fun l => decide (l.share.step = w.step))
      let sums := mergeShares (mine.map (fun l => l.share))
      let handles := (sums.map (fun x => x.handle &&& 0x7FFFFFFF)).eraseDups
      let none_ (h : Word) : Share :=
        { ctx := c, handle := h, step := w.step, replay := false, ticket := 0, blocks := 0, sum := 0, invalid := true, epoch := w.epoch }
      let (d1, tags) := handles.foldl (fun (acc : Dev × List Nat) h =>
        let a := (sums.find? (fun x => decide (x.handle = h))).getD (none_ h)
        let z := (sums.find? (fun x => decide (x.handle = h ^^^ 0x80000000))).getD (none_ h)
        let a' := { a with blocks := max a.blocks z.blocks }
        let stored := (mine.filter (fun l => decide (l.share.handle = h))) ++
          mine.filter (fun l => decide (l.share.handle = h ^^^ 0x80000000))
        let home := (stored.find? (fun l => d.roleAt l.bank l.pos == 2)).orElse (fun _ => stored.head?)
        match home with
        | some l =>
          let core := ((d.bank l.bank).cc.logicalOf l.pos).getD 0
          let (dd, t) := acc.1.submitSig c w.epoch w.step l.bank core l.pos [] a' z h
          (dd, acc.2 ++ [t])
        | none => acc) (d, [])
      let d2 := d1.modSuspect c w.epoch q.id (fun q => { q with
        phase := .comparing
        cmp := some { a := .orig, b := .secondary, left := tags, mismatch := false, onVoid := false } })
      d2.settleCompare c w.epoch q.id

/-- Captured shares summed key by key. -/
def mergeKeys (l : List LogEntry) : List Share :=
  l.foldl (fun (acc : List Share) (e : LogEntry) =>
    if acc.any (fun y => decide (y.handle = e.share.handle) && decide (y.step = e.share.step)) then
      acc.map (fun y => if y.handle = e.share.handle && y.step = e.share.step then
        { y with blocks := y.blocks + e.share.blocks, sum := y.sum + e.share.sum, invalid := y.invalid || e.share.invalid } else y)
    else acc ++ [e.share]) []

/-- What a capture leaves of a Wisp's shares: the registers are freed, and a key that overflowed stays invalid (R87). -/
def capShares (c : Nat) (l : List Share) : List Share :=
  l.filterMap (fun (h : Share) =>
    if h.ctx = c && !h.replay then (if h.invalid then some { h with blocks := 0, sum := 0 } else none) else some h)

/-- The captured shares that enter the share log (R202): those of a context at Gate or above, or of a step boundary it had there, whose epoch
has been neither committed nor retracted. -/
def Dev.sharesToLog (d : Dev) (c : Nat) : List LogEntry :=
  let x := d.ctx c
  if x.gate || !x.hz.capWait.isEmpty then
    (d.sharesNow c).filter (fun l => x.hz.epochs.any (fun e => decide (e.num = l.share.epoch) && decide (e.fate ≠ .retracting)))
  else []

/-- SIGCAP of a context takes effect (R88, R202): the shares of its Wisps are captured, summed and logged, the Pair comparisons of
the boundaries it covers are submitted. -/
def Dev.sigcapNow (d : Dev) (c : Nat) : Dev :=
  let caps := d.sharesNow c
  let logged := d.sharesToLog c
  let d1 := { d with
    wisps := Tbl.mapAll Wisp.init (fun _ w => if w.acts d.clock.frame then { w with shares := capShares c w.shares } else w) d.wisps
    hz.log := d.hz.log ++ logged
    hz.logAt := d.hz.logAt + logged.length
    hz.captured := d.hz.captured.filter (fun (e : Nat × Share) => decide (e.1 ≠ c)) ++ (mergeKeys caps).map (fun h => (c, h)) }
  let waits := (d1.ctx c).hz.capWait
  let d2 := d1.modCtx c (fun x => { x with hz := { x.hz with capStep := x.hz.endedStep, capWait := [] } })
  waits.foldl (fun (acc : Dev) (w : CapWait) => if w.pair then acc.pairCompare c w caps else acc) d2

/-! ## Commands -/

/-- REPLAY_WAIT_EXPIRE (R208): a step not resolved within REPLAY_WAIT frames fails its context. -/
def execReplayWaitExpire (ctx : CtxId) (step : Word) (s : State) : Host.Outcome State Fault Refusal :=
  let d := s.dev
  let wait := d.zf Reg.ZN_HZ_REPLAY_WAIT 22 0
  let due := (d.ctx ctx.val).hz.epochs.any (fun e => decide (e.fate = .live) && e.suspects.any (fun q =>
    q.real && decide (q.step = step) && decide (q.since + wait ≤ d.clock.frame)))
  if due && !d.clock.stopped then .next { s with dev := d.failCtx ctx.val 5 } else .next s

/-- The step whose replay carries a ticket. -/
def Dev.byTicket (d : Dev) (t : Nat) : Option (Nat × Word × Suspect × RunId) :=
  d.suspects.findSome? (fun e => match e.2.2.phase with
    | .replaying r => match e.2.2.run r with
      | some x => if x.ticket = t && !x.done then some (e.1, e.2.1, e.2.2, r) else none
      | none => none
    | _ => none)

/-- The step and the run whose replay had a ticket, in progress or done (R207). -/
def Dev.runOfTicket (d : Dev) (t : Nat) : Option (Nat × Word × Suspect × RunId) :=
  d.suspects.findSome? (fun e => (e.2.2.runs.find? (fun x =>
    decide (x.ticket = t) && decide (x.run ≠ .orig) && decide (x.run ≠ .secondary) &&
      (x.done || e.2.2.phase == .replaying x.run))).map (fun x => (e.1, e.2.1, e.2.2, x.run)))

/-- The head request of a Bank's replay queue answered: it leaves the queue. -/
def Dev.popReplay (d : Dev) (b : Nat) : Dev := d.modBank b (fun k => { k with cc.replays := k.cc.replays.drop 1 })

/-- An answer in BK_CC_ANSWER: the ticket must be the head's (R496). -/
def Dev.ccAnswer (d : Dev) (b : Nat) (v : Word) (f : Dev → ReplayReq → Dev) : Dev :=
  match (d.bank b).cc.replays with
  | r :: _ =>
    if r.ticket = bitsOf v 31 16 then f (d.popReplay b) r
    else (d.regReject (.bk b Reg.BK_CC_ANSWER) v 1).bumpZ Reg.ZN_CFG_CNT_REJECT
  | [] => (d.regReject (.bk b Reg.BK_CC_ANSWER) v 1).bumpZ Reg.ZN_CFG_CNT_REJECT

/-- NOFIT (R205, R207): the replay is abandoned, and Zenith picks another core. -/
def Dev.ccNofit (d0 : Dev) (b : Nat) (v : Word) : Dev :=
  d0.ccAnswer b v (fun d r =>
    match d.byTicket r.ticket with
    | some (c, ep, q, run) => d.abandon c ep q run
    | none => d)

/-- CC_ANSWER_NOFIT. -/
def execCcAnswerNofit (p : Path) (bank : BankId) (ticket : BitVec 16) (s : State) : Host.Outcome State Fault Refusal :=
  let v := w32 (2 + 65536 * ticket.toNat)
  .next (s.onDev (fun d => d.cmdB p bank.val Reg.BK_CC_ANSWER v (fun d => d.ccNofit bank.val v)))

end Sys2Proof.Machine
end

