-- ==== Sys2Proof/Machine/Verdicts.lean ====
section
/-! DEFINITION. What the Zenith journal arbiter does with an item a Bank forwarded (R23, R25, R55, R83, R119, R150, R153, R181,
R201, R222, R230, R236): a verdict, a check word failure, a deferral. -/

namespace Sys2Proof.Machine

/-! ## Verdicts -/

/-- Count a verdict under what it finally carries (R119). -/
def Dev.countVerdict (d : Dev) (v : DWord) : Dev :=
  let d1 := d.bumpZ (match verdictOf v with
    | 0 => Reg.ZN_ANV_CNT_MATCH
    | 1 => Reg.ZN_ANV_CNT_WITHIN
    | 2 => Reg.ZN_ANV_CNT_BEYOND
    | 3 => Reg.ZN_ANV_CNT_NONFINITE
    | 4 => Reg.ZN_ANV_CNT_VOID
    | _ => Reg.ZN_ANV_CNT_NULL)
  let d2 := if missOf v then d1.bumpZ Reg.ZN_ANV_CNT_MISS else d1
  if verdictOf v ≠ vVOID then d2
  else if reasonOf v = voidNOBOUND then d2.bumpZ Reg.ZN_ANV_CNT_NOBOUND
  else if reasonOf v = voidRANGE then d2.bumpZ Reg.ZN_ANV_CNT_RANGE
  else if reasonOf v = voidBADDESC then d2.bumpZ Reg.ZN_ANV_CNT_BADDESC
  else d2

/-- A verdict for an epoch that has failed already: at Gate when it was accepted, of the same incarnation, of a context that is
FAILED now (R153, R348). DEDUCED (log entry 44). -/
def Dev.isLate (d : Dev) (x : Desc) : Bool :=
  let c := d.ctx x.cand.ctx
  x.gate && decide (x.incarn = c.core.incarn) && decide (c.core.state = .failed)

/-- The charge or the clean sample of a verdict on a core's work (R230, R236): a comparison of runs charges no unit, and a
cross-check's verdict no core (R207). -/
def Dev.verdictHealth (d : Dev) (b : Nat) (x : Desc) : Dev :=
  let v := verdictOf x.verdict
  let u := coreUnit b x.cand.pos
  if x.cand.op = opSIGCMP || x.cand.src = 1 then d
  else if v = vBEYOND then d.hEvent u (.charge rBEYOND)
  else if v = vMATCH || v = vWITHIN then d.hEvent u .sample
  else d

/-- What the horizon engine does with a verdict on a core's work (R191, R201, R222). -/
def Dev.verdictHorizon (d : Dev) (b : Nat) (x : Desc) : Dev :=
  let c := x.cand.ctx
  let same := decide ((d.ctx c).core.state = .active) && decide (x.incarn = (d.ctx c).core.incarn)
  if !same then d
  else
    let d1 := d.uncount x.cand
    if verdictOf x.verdict ≠ vBEYOND then d1
    else if x.gate then
      match d1.epochOf x.cand with
      | some e => d1.makeSuspect c e x.cand.step .beyond b x.cand.pos (some x.cand) []
      | none => d1
    else d1.exposeStep c x.cand.step (coreUnit b x.cand.pos)

/-- A verdict that Zenith waits for and that no longer serves an epoch. -/
def Dev.dropSig (d : Dev) (tag : Nat) : Dev :=
  { d with hz.sigOpen := d.hz.sigOpen.filter (fun q => decide (q.tag ≠ tag)) }

/-- A verdict accepted by the journal arbiter (R23). -/
def Dev.takeVerdict (d : Dev) (b : Nat) (x : Desc) : Dev :=
  let v := x.verdict
  let c := x.cand.ctx
  if d.isLate x then
    let d1 := (d.bumpZ Reg.ZN_ANV_CNT_LATE).recordLate 1 c (lo32 v) (lo32 v) (marginOf v) x.cand.step
    if x.cand.src = 1 then d1.dropSig x.cand.tagNo else d1
  else
    let d1 := (d.countVerdict v).verdictHealth b x
    if (d.ctx c).core.state = .closing then
      let d2 := d1.modCtx c (fun y => { y with core.discarded := y.core.discarded + 1 })
      if x.cand.src = 1 then d2.dropSig x.cand.tagNo else d2
    else if x.cand.src = 1 then d1.zVerdict x.cand.tagNo (verdictOf v) x.cand.handle
    else d1.verdictHorizon b x

/-- VERDICT_ACCEPT (R23, R55): the arbiter accepts a verdict. DESIGN CHOICE (log entry 171). -/
def execVerdictAccept (s : State) : Host.Outcome State Fault Refusal :=
  match s.dev.clock.stopped, takeItem ArbItem.isVerdict [] s.dev.jnl.waiting with
  | false, some (.verdict b x, rest) => .next (s.onDev (fun d => ({ d with jnl.waiting := rest }).takeVerdict b x))
  | _, _ => .next s

/-! ## Check word failures and deferrals -/

/-- The outcomes that are evidence against the memory that held the block: MALFORMED, TAG, LENGTH and CRC (R83). -/
def cwCounts (code : Nat) : Bool := [0x11, 0x12, 0x13, 0x15].contains code

/-- A load of a replay failed: the replay's run remembers it, its DONE accepted before or not (R207). -/
def Dev.badReplayLoad (d : Dev) (ticket : Nat) : Dev :=
  match d.runOfTicket ticket with
  | some (c, ep, q, r) => d.modSuspect c ep q.id (fun q => q.modRun r (fun x => { x with badLoads := true }))
  | none => d

/-- A check word failure accepted by the journal arbiter (R83, R85, R222, R230). -/
def Dev.takeCw (d : Dev) (b : Nat) : Forward → Dev
  | .cw code addr c step epoch pos handle index replay =>
    if !cwCounts code then d
    else
      let unit := d.holderOf addr
      let d1 := match unit with
        | some u => d.hEvent u (.charge rCW)
        | none => d
      match replay with
      | some t => d1.badReplayLoad t
      | none =>
        match epoch with
        | some e => d1.makeSuspect c e step .checkWord b pos none [(handle, index)]
        | none => d1.exposeStep c step (unit.getD 0x1FFFF)
  | .defer c step epoch pos owed =>
    match epoch with
    | none => d
    | some e =>
      let d1 := if owed then d.modEpoch c e (fun e => { e with outstanding := e.outstanding - 1 }) else d
      d1.makeSuspect c e step .deferral b pos none []
  | .nothing => d
  | .journal => d

/-- CW_OUTCOME_ACCEPT (R83, R55): the arbiter accepts a check word failure or a deferral (R150). -/
def execCwOutcomeAccept (s : State) : Host.Outcome State Fault Refusal :=
  match s.dev.clock.stopped, takeItem ArbItem.isCw [] s.dev.jnl.waiting with
  | false, some (.cw b f _, rest) => .next (s.onDev (fun d => ({ d with jnl.waiting := rest }).takeCw b f))
  | _, _ => .next s

end Sys2Proof.Machine
end

