-- ==== Sys2Proof/Machine/Horizon.lean ====
section
/-! DEFINITION. The commit horizon's own events (R186 to R226): counting and settling an epoch, tokens out and in, the tag of a
transfer, inbound entries, HELLO, links, refresh, expiry and RESUME. -/

namespace Sys2Proof.Machine

/-! ## Epochs (R190, R191) -/

/-- EPOCH_COUNTED (R190): an epoch is counted from the tick two frames after its closing frame. -/
def execEpochCounted (ctx : CtxId) (epoch : Word) (s : State) : Host.Outcome State Fault Refusal :=
  let d := s.dev
  let due := (d.ctx ctx.val).hz.epochs.any (fun e => decide (e.num = epoch) && !e.counted && (match e.closing with
    | some b => decide (b + 2 ≤ d.clock.frame)
    | none => false))
  if due && !d.clock.stopped then .next { s with dev := d.modEpoch ctx.val epoch (fun e => { e with counted := true }) }
  else .next s

/-- Every condition of R191 for an epoch of a context: counted, no verdict outstanding, no step suspect and no comparison due, no
inbound entry that it or an earlier epoch depends on, and the epoch before it committed. -/
def Dev.settles (d : Dev) (c : Nat) (e : Epoch) : Bool :=
  let h := (d.ctx c).hz
  e.counted && decide (e.outstanding = 0) && e.suspects.isEmpty &&
    !d.hz.inbound.any (fun i => decide (i.ctx = c) && serLe i.depend e.num) &&
    (e.first || (h.committedAny && decide (h.committed + 1 = e.num)))

/-- EPOCH_SETTLE (R191): the oldest epoch of a context that is not decided settles, and its COMMIT is queued. -/
def execEpochSettle (ctx : CtxId) (s : State) : Host.Outcome State Fault Refusal :=
  let d := s.dev
  match d.clock.stopped, (d.ctx ctx.val).hz.liveEpochs with
  | false, e :: _ =>
    if d.settles ctx.val e then
      .next (s.onDev (fun d => (d.modEpoch ctx.val e.num (fun e => { e with fate := .committing })).queueToken ctx.val
        (.commit e.num)))
    else .next s
  | _, _ => .next s

/-! ## Tokens out (R42, R189, R194) -/

/-- An epoch that a token's hand-over ends. -/
def Token.ends (t : Token) (e : Epoch) : Bool :=
  match t with
  | .commit n => decide (e.num = n)
  | .retract first last _ => decide (e.fate = .retracting) && serLe first e.num && serLe e.num last

/-- A token has been handed to the switch port: its epochs are no longer open, a stall without two open epochs ends, and a COMMIT
releases its share log entries. DEDUCED (log entry 46). -/
def Dev.tokenOut (d : Dev) (c : Nat) (t : Token) : Dev :=
  let d1 := (d.hzSend c (d.tokenBytes c t)).modCtx c (fun x =>
    let left := x.hz.epochs.filter (fun e => !t.ends e)
    { x with hz := { x.hz with
      epochs := left
      stall := x.hz.stall && decide (2 ≤ left.length)
      lastToken := some (t, d.clock.frame)
      committed := match t with
        | .commit e => e
        | .retract _ _ _ => x.hz.committed
      committedAny := match t with
        | .commit _ => true
        | .retract _ _ _ => x.hz.committedAny
      retracts := match t with
        | .commit _ => 0
        | .retract _ _ _ => x.hz.retracts } })
  match t with
  | .commit e =>
    ({ d1 with hz.log := d1.hz.log.filter (fun l => !(decide (l.share.ctx = c) && decide (l.share.epoch = e))) }).bumpZ
      Reg.ZN_HZ_CNT_COMMIT_OUT
  | .retract _ _ _ => d1.bumpZ Reg.ZN_HZ_CNT_RETRACT_OUT

/-- TOKEN_EMIT (R42): the oldest queued token of an earlier frame is handed to the switch port; none leaves in a global stop. -/
def execTokenEmit (s : State) : Host.Outcome State Fault Refusal :=
  match s.dev.clock.stopped, s.dev.hz.tokens with
  | false, (c, t, f) :: rest =>
    if f < s.dev.clock.frame then .next (s.onDev (fun d => ({ d with hz.tokens := rest }).tokenOut c t)) else .next s
  | _, _ => .next s

/-- TOKEN_REFRESH (R200): every HZ_REFRESH frames the latest token of each context that emitted one less than ZN_HZ_TIMEOUT frames
ago is sent again. -/
def execTokenRefresh (s : State) : Host.Outcome State Fault Refusal :=
  let d := s.dev
  let period := d.zf Reg.ZN_HZ_REFRESH 15 0
  if d.clock.stopped || period = 0 || decide (d.clock.frame < d.hz.refreshAt + period) then .next s
  else
    let timeout := d.zf Reg.ZN_HZ_TIMEOUT 24 0
    .next (s.onDev (fun d => d.ctxs.foldl (fun (acc : Dev) x =>
      match x.2.hz.lastToken with
      | some (t, f) =>
        if d.clock.frame < f + timeout && x.2.hz.en then
          (acc.hzSend x.1 (d.tokenBytes x.1 t)).bumpZ Reg.ZN_HZ_CNT_REFRESH
        else acc
      | none => acc) { d with hz.refreshAt := d.clock.frame }))

/-! ## Outbound transfers (R192, R195, R508) -/

/-- The horizon tag of a transfer of a context (R192); under the clamp it is 0 (R508). DEDUCED (log entry 51). -/
def Dev.horizonTag (d : Dev) (c : Nat) : BitVec 48 :=
  let x := d.ctx c
  if d.clamped then 0
  else BitVec.ofNat 48 (c + 2 ^ 10 * x.core.incarn + (match x.mark with
    | some e => 2 ^ 26 * (e.toNat % 256) + 2 ^ 34
    | none => 0))

/-- SW_ISSUE (R192): a core of a context issues a cross-chip transfer. -/
def execSwIssue (ctx : CtxId) (s : State) : Host.Outcome State Fault Refusal :=
  .next (s.onDev (fun d => ({ d with hz.transfers := d.hz.transfers ++ [d.horizonTag ctx.val] }).modCtx ctx.val
    (fun x => { x with hz.issued := some x.core.step })))

/-- NOCHK_TRANSFER (R195): a provisional transfer went to a peer that advertised no checker. -/
def execNochkTransfer (ctx : CtxId) (epoch8 : BitVec 8) (s : State) : Host.Outcome State Fault Refusal :=
  .next (s.onDev (fun d => d.modCtx ctx.val (fun x => { x with hz.epochs := x.hz.epochs.map (fun e =>
    if e.num.toNat % 256 = epoch8.toNat then { e with exposed := true } else e) })))

/-! ## Retractions and failures from outside (R225) -/

/-- Retract now, or at GRESUME where a global stop is in force (R225). -/
def Dev.retractIn (d : Dev) (c : Nat) (first : Word) (reason : Nat) : Dev :=
  if d.clock.stopped then { d with hz.stopQueue := d.hz.stopQueue ++ [.retract c first reason] } else d.retract c first reason

/-- Fail a context now, or at GRESUME. -/
def Dev.failIn (d : Dev) (c reason : Nat) : Dev :=
  if d.clock.stopped then { d with hz.stopQueue := d.hz.stopQueue ++ [.fail c reason] } else d.failCtx c reason

/-! ## Inbound entries (R212 to R219) -/

/-- A link. -/
def Dev.link (d : Dev) (l : Nat) : Link := Tbl.get { rtt := 0, measured := false, width := 0, up := false } d.hz.links l

/-- Change a link. -/
def Dev.modLink (d : Dev) (l : Nat) (f : Link → Link) : Dev :=
  { d with hz.links := Tbl.modify { rtt := 0, measured := false, width := 0, up := false } d.hz.links l f }

/-- The timeout scale of a link (R217). -/
def Dev.linkScale (d : Dev) (l : Nat) : Nat :=
  let x := d.link l
  let ref := d.zf Reg.ZN_HZ_RTT_REF 15 0
  if x.measured && ref ≠ 0 then min 255 (max 16 (ceilDiv (16 * x.rtt) ref))
  else if x.width = 0 then 255
  else min 255 (ceilDiv 1024 x.width)

/-- The deadline of data that arrives now over a link (R213, R217). -/
def Dev.deadline (d : Dev) (l : Nat) : Nat :=
  (d.clock.frame + min (2 ^ 24) (ceilDiv (d.zf Reg.ZN_HZ_TIMEOUT 24 0 * d.linkScale l) 16)) % frameMod

/-- An event about an inbound notice or token. -/
def Dev.inEvent (d : Dev) (code c : Nat) (peer : BitVec 16) (epoch : Word) (type : Nat) : Dev :=
  d.zEvent 1 code c (w32 peer.toNat) epoch (w32 type) 0

/-- A notice for a context at Gate: an entry is updated or created; with none free the context fails (R213, R219). -/
def Dev.takeNotice (d : Dev) (peer incarn : BitVec 16) (c : Nat) (e8 : BitVec 8) (l : Nat) : Dev :=
  let hit (i : Inbound) : Bool := decide (i.peer = peer) && decide (i.ctx = c) && decide (i.incarn = incarn) && decide (i.epoch8 = e8)
  if d.hz.inbound.any hit then
    { d with hz.inbound := d.hz.inbound.map (fun i => if hit i then
        { i with link := l, count := min 0xFFFFFFFF (i.count + 1), last := d.clock.frame, deadline := d.deadline l } else i) }
  else if 4096 ≤ d.hz.inbound.length then
    ((d.bumpZ Reg.ZN_HZ_CNT_FULL).inEvent 0x36 c peer (w32 e8.toNat) 0).failIn c 2
  else
    let h := (d.ctx c).hz
    let depend := (h.epochs.getLast?.map (fun e => e.num)).getD h.epoch
    let entry : Inbound := { peer := peer, ctx := c, link := l, incarn := incarn, epoch8 := e8, depend := depend, count := 1,
                             last := d.clock.frame, deadline := d.deadline l }
    { d with hz.inbound := d.hz.inbound ++ [entry], hz.peak := max d.hz.peak (d.hz.inbound.length + 1) }

/-- PROVISIONAL_NOTICE (R212): a transfer arrived; without PROV it carries no horizon state. -/
def execProvisionalNotice (peer : BitVec 16) (tag : BitVec 48) (link : Fin 16) (s : State) : Host.Outcome State Fault Refusal :=
  let d := s.dev
  let n := tag.toNat
  let c := n % 1024
  let incarn := BitVec.ofNat 16 (n / 2 ^ 10)
  let e8 := BitVec.ofNat 8 (n / 2 ^ 26)
  let x := d.ctx c
  if d.clamped || n / 2 ^ 34 % 2 = 0 then .next s
  else if x.gate then .next { s with dev := d.takeNotice peer incarn c e8 link.val }
  else if x.core.state = .closing || x.core.state = .cooling then
    .next { s with dev := d.modCtx c (fun x => { x with core.deadIn := x.core.deadIn + 1 }) }
  else
    let d1 := d.bumpZ Reg.ZN_HZ_CNT_UNHELD
    if d.hz.unheld.contains (peer, c, e8) then .next { s with dev := d1 }
    else .next { s with dev := ({ d1 with hz.unheld := d1.hz.unheld ++ [(peer, c, e8)] }).inEvent 0x34 c peer (w32 e8.toNat) 0 }

/-! ## Messages in (R199, R214, R220, R224) -/

/-- A received message, field by field. -/
structure InMsg where
  type : Nat
  src : BitVec 16
  ctx : Nat
  incarn : BitVec 16
  body : List Byte
  deriving DecidableEq, Repr

/-- A received message, unless R199 drops it. -/
def parseMsg (m : List Byte) : Option InMsg :=
  let f (lo n : Nat) : Nat := leNat ((m.drop lo).take n)
  if m.length = 32 && decide ((crc32c (m.take 28)).toNat = f 28 4) && decide (f 1 1 = 1) && decide (1 ≤ f 0 1) &&
      decide (f 0 1 ≤ 4) then
    some { type := f 0 1, src := BitVec.ofNat 16 (f 2 2), ctx := f 4 2 % 1024, incarn := BitVec.ofNat 16 (f 6 2),
           body := (m.drop 8).take 16 }
  else none

/-- A field of a message's body, by its first byte in the message. -/
def InMsg.field (m : InMsg) (lo n : Nat) : Nat := leNat ((m.body.drop (lo - 8)).take n)

/-- A message of the type a command names is handled; one that R199 drops is counted; under the clamp it is discarded (R507). -/
def Dev.receive (d : Dev) (type : Nat) (msg : List Byte) (f : Dev → InMsg → Dev) : Dev :=
  if d.clamped then d
  else match parseMsg msg with
    | none => d.bumpZ Reg.ZN_HZ_CNT_BADMSG
    | some m => if m.type = type then f d m else d

/-- The full sender epoch of an entry for a token about epoch `e` (R214). -/
def fullEpoch (e : Word) (e8 : BitVec 8) : Word :=
  let k := (e8.toNat + 256 - e.toNat % 256) % 256
  if k ≤ 128 then e + w32 k else e - w32 (256 - k)

/-- Handle a token: dropped for a CLOSING or COOLING context, LATE for a FAILED one, else matched by `hit` on the sender's full
epoch; `act` sees the entries matched. DEDUCED (log entry 47). -/
def Dev.takeToken (d : Dev) (m : InMsg) (e : Word) (hit : Word → Bool) (counter : Nat) (act : Dev → List Inbound → Dev) : Dev :=
  let x := d.ctx m.ctx
  match x.core.state with
  | .failed =>
    ((d.bumpZ Reg.ZN_HZ_CNT_LATE).inEvent 0x35 m.ctx m.src e m.type).recordLate 1 m.ctx 0x35 (w32 m.src.toNat) e (w32 m.type)
  | .closing => d.modCtx m.ctx (fun x => { x with core.deadIn := x.core.deadIn + 1 })
  | .cooling => d.modCtx m.ctx (fun x => { x with core.deadIn := x.core.deadIn + 1 })
  | _ =>
    let mine (i : Inbound) : Bool :=
      decide (i.peer = m.src) && decide (i.ctx = m.ctx) && decide (i.incarn = m.incarn) && hit (fullEpoch e i.epoch8)
    let found := d.hz.inbound.filter mine
    if found.isEmpty then d.bumpZ Reg.ZN_HZ_CNT_NOENTRY
    else act (({ d with hz.inbound := d.hz.inbound.filter (fun i => !mine i) }).bumpZ counter) found

/-- COMMIT_RECEIVE (R214): every matching entry of that epoch or an earlier one is committed and freed. -/
def execCommitReceive (link : Fin 16) (msg : List Byte) (s : State) : Host.Outcome State Fault Refusal :=
  let _ := link
  .next (s.onDev (fun d => d.receive 2 msg (fun d m =>
    let e := w32 (m.field 8 4)
    d.takeToken m e (fun x => serLe x e) Reg.ZN_HZ_CNT_COMMIT_IN (fun d _ => d))))

/-- The local epoch that the entry of the earliest sender epoch depends on. -/
def earliestDepend (last : Word) : List Inbound → Option Inbound
  | [] => none
  | i :: rest =>
    match earliestDepend last rest with
    | none => some i
    | some j => if serLe (fullEpoch last i.epoch8) (fullEpoch last j.epoch8) then some i else some j

/-- RETRACT_RECEIVE (R214): the matching entries from FIRST to LAST are freed, and the local epoch that the earliest depends on is
retracted. -/
def execRetractReceive (link : Fin 16) (msg : List Byte) (s : State) : Host.Outcome State Fault Refusal :=
  let _ := link
  .next (s.onDev (fun d => d.receive 3 msg (fun d m =>
    let first := w32 (m.field 8 4)
    let last := w32 (m.field 12 4)
    d.takeToken m last (fun x => serLe first x && serLe x last) Reg.ZN_HZ_CNT_RETRACT_IN (fun d found =>
      match earliestDepend last found with
      | some i => d.retractIn m.ctx i.depend 2
      | none => d))))

/-- EXPOSE_RECEIVE (R224): recorded, forwarded to management and counted. -/
def execExposeReceive (link : Fin 16) (msg : List Byte) (s : State) : Host.Outcome State Fault Refusal :=
  let _ := link
  .next (s.onDev (fun d => d.receive 4 msg (fun d m =>
    ((d.bumpZ Reg.ZN_HZ_CNT_EXPOSE_IN).zEvent 1 0x37 m.ctx (w32 m.src.toNat) (w32 (m.field 8 1)) (w32 (m.field 12 4))
      (w32 (m.field 16 4))).notice 0x03 false (toWords 8 msg))))

/-! ## HELLO and links (R198, R217, R220) -/

/-- A HELLO of this chip: FLAGS, LINK and STAMP (R197). DEDUCED (log entry 48). -/
def Dev.hello (d : Dev) (flags link : Nat) (stamp : DWord) : List Byte :=
  hzMessage 1 d.selfId 0 0 ([BitVec.ofNat 8 flags, BitVec.ofNat 8 link, 0, 0] ++ leBytes 8 stamp.toNat)

/-- Send a HELLO that asks for an echo, stamped at a zc offset the command does not state (R198), on one link. -/
def Dev.sendHello (d : Dev) (start : Bool) (dest : MsgDest) (link : Nat) : Dev :=
  let (n, d1) := d.draw
  d1.swSend dest (d.hello (9 + 2 * bit start) link (mkStamp d.clock.frame (Config.freeZc n).val))

/-- The links that have trained. -/
def Dev.linksUp (d : Dev) : List Nat := (List.range 16).filter (fun l => (d.link l).up)

/-- A HELLO to the broadcast group: each link that has trained carries one that names it (R197, R198, R218). DEDUCED (log entry 48). -/
def Dev.broadcastHello (d : Dev) (start : Bool) : Dev :=
  d.linksUp.foldl (fun (acc : Dev) l => acc.sendHello start (.broadcast l) l) d

/-- The entries of a peer whose checker state is lost are treated as retracted (R220). -/
def Dev.lostPeer (d : Dev) (peer : BitVec 16) : Dev :=
  let gone := d.hz.inbound.filter (fun i => decide (i.peer = peer))
  let d1 := { d with hz.inbound := d.hz.inbound.filter (fun i => decide (i.peer ≠ peer)) }
  (gone.map (fun i => i.ctx)).eraseDups.foldl (fun (acc : Dev) c =>
    let deps := (gone.filter (fun i => decide (i.ctx = c))).map (fun i => i.depend)
    match deps with
    | [] => acc
    | e :: rest => acc.retractIn c (rest.foldl (fun a b => if serLt b a then b else a) e) 2) d1

/-- A HELLO received over a link at a zc offset: answered where it asks for an echo, measured where it is one (R198, R217). -/
def Dev.helloIn (d : Dev) (l : Nat) (now : Nat) (m : InMsg) : Dev :=
  let flags := m.field 8 1
  let f (k : Nat) : Bool := decide (flags / 2 ^ k % 2 = 1)
  let home := m.field 9 1 % 16
  let stamp := BitVec.ofNat 64 (m.field 12 8)
  let d1 := if f 3 then d.swSend (.peer m.src home) (d.hello 5 home stamp) else d
  let rtt := (mkStamp d.clock.frame now).toNat - stamp.toNat
  let d2 := if f 2 then d1.modLink l (fun x => { x with rtt := min 0xFFFF rtt, measured := true }) else d1
  let others := d2.hz.noChecker.filter (fun p => decide (p ≠ m.src))
  let d3 := { d2 with hz.noChecker := if f 0 then others else others ++ [m.src] }
  if f 0 && !f 1 then d3 else d3.lostPeer m.src

/-- HELLO_RECEIVE (R198, R217, R220). -/
def execHelloReceive (link : Fin 16) (msg : List Byte) (now : Zc) (s : State) : Host.Outcome State Fault Refusal :=
  .next (s.onDev (fun d => d.receive 1 msg (fun d m => d.helloIn link.val now.val m)))

/-- PERIODIC_HELLO (R198), every 2^HELLO_EXP F. -/
def execPeriodicHello (s : State) : Host.Outcome State Fault Refusal :=
  let d := s.dev
  let exp := d.zf Reg.ZN_HZ_CTL 12 8
  if d.clamped || exp = 0 || decide (d.clock.frame < d.hz.helloAt + 2 ^ exp) then .next s
  else .next (s.onDev (fun d => ({ d with hz.helloAt := d.clock.frame }).broadcastHello false))

/-- LINK_TRAINED (R198, R217): no echo has been measured since, and a HELLO leaves on that link. -/
def execLinkTrained (link : Fin 16) (width : Fin 65) (s : State) : Host.Outcome State Fault Refusal :=
  .next (s.onDev (fun d =>
    let d1 := d.modLink link.val (fun _ => { rtt := 0, measured := false, width := width.val, up := true })
    if d.clamped then d1 else d1.sendHello false (.onLink link.val) link.val))

/-- LINK_DOWN (R218): the link carries nothing until it trains again. -/
def execLinkDown (link : Fin 16) (s : State) : Host.Outcome State Fault Refusal :=
  .next (s.onDev (fun d => d.modLink link.val (fun x => { x with up := false, width := 0 })))

/-- PEER_ID_VALID (R226): the port supplies this chip's peer ID. -/
def execPeerIdValid (id : BitVec 16) (s : State) : Host.Outcome State Fault Refusal :=
  .next (s.onDev (fun d => { d with hz.self := some id }))

/-! ## Expiry and RESUME (R210, R215) -/

/-- ENTRY_EXPIRE (R215): an entry whose deadline the frame number has reached; DEPEND and every later epoch is retracted, then its context
fails with PEER_TIMEOUT. DEDUCED (log entry 49). -/
def execEntryExpire (peer : BitVec 16) (ctx : CtxId) (incarn : BitVec 16) (epoch8 : BitVec 8) (s : State) :
    Host.Outcome State Fault Refusal :=
  let d := s.dev
  let hit (i : Inbound) : Bool := decide (i.peer = peer) && decide (i.ctx = ctx.val) && decide (i.incarn = incarn) &&
    decide (i.epoch8 = epoch8) && decide (i.deadline ≤ d.clock.frame)
  match d.hz.inbound.find? hit with
  | some i =>
    .next (s.onDev (fun d => ((({ d with hz.inbound := d.hz.inbound.filter (fun i => !hit i) }).bumpZ
      Reg.ZN_HZ_CNT_TIMEOUT).retractIn ctx.val i.depend 3).failIn ctx.val 2))
  | none => .next s

/-- RESUME of ZN_HZ_CTX_CMD (R210): the retraction hold ends, the control cores are released at the next tick, and the step that begins
then, or the first after the one in progress, opens a new epoch numbered LAST + 1; a retraction of the same frame sets RETRACT_PEND again
(R225). DEDUCED (log entry 50). -/
def Dev.resume (d : Dev) : Dev :=
  let c := d.zf Reg.ZN_CTX_SEL 9 0
  let x := d.ctx c
  if !x.hz.retractPend then d
  else d.modCtx c (fun x => { x with hz := { x.hz with
    retractPend := decide (x.hz.againAt = some d.clock.frame), firstNext := true, resumedAt := some d.clock.frame } })

/-- RESUME. -/
def execResume (p : Path) (s : State) : Host.Outcome State Fault Refusal :=
  .next (s.onDev (fun d => d.cmdZ p Reg.ZN_HZ_CTX_CMD 1 Dev.resume))

end Sys2Proof.Machine
end

