-- ==== Sys2Proof/Machine/FieldTests.lean ====
section
/-! DEFINITION. Field tests, spare remapping and on-demand requests (R242 to R255): when a test may run, its save, its validity,
its result and the restore; the remap of a core and TAKE. -/

namespace Sys2Proof.Machine

/-! ## The tests of a Bank -/

/-- The test on a position, if any. -/
def Dev.testOn (d : Dev) (b p : Nat) : Option Test := Tbl.get none (d.bank b).tests p

/-- The tests of a Bank with their positions. -/
def Bank.testList (k : Bank) : List (Nat × Test) := k.tests.filterMap (fun e => e.2.map (fun t => (e.1, t)))

/-- Put a test on a position, or take it off; the contexts held for tests follow (R245). -/
def Bank.setTest (k : Bank) (p : Nat) (t : Option Test) : Bank :=
  let tests := Tbl.set none k.tests p t
  { k with tests := tests, testHold := ((tests.filterMap (fun e => e.2.bind (fun t => t.hold)))).eraseDups }

/-- The limit of a tier, in frames (R242). -/
def tierLimit : Nat → Nat
  | 0 => 2048
  | 1 => 32768
  | _ => 2097152

/-- The blocks of the region that a tier saves (R242). -/
def stashBlocks (tier : Nat) : Nat := if tier = 2 then 1024 else 64

/-- The bytes that one save of a tier takes in each stash copy: the region with the sideband slots of its blocks (R247). -/
def stashBytes (tier : Nat) : Nat := stashBlocks tier * 4104

/-- The bytes that both stash regions have (R247, R442). -/
def Dev.stashSize (d : Dev) : Nat :=
  match d.cfg.regions[0]?, d.cfg.regions[1]? with
  | some a, some b => min a.size b.size
  | _, _ => 0

/-- The parts of the stash regions that saves hold: where and how many bytes. -/
def Dev.stashTaken (d : Dev) : List (Nat × Nat) :=
  (d.banks.flatMap (fun (e : Nat × Bank) => e.2.testList.map (fun (x : Nat × Test) => (x.2.at_, x.2.stash)))).filter (fun e => decide (0 < e.2))

/-- The lowest place of `n` bytes that is free in both regions. DESIGN CHOICE (log entry 80). -/
def stashPlace (size n : Nat) (taken : List (Nat × Nat)) : Option Nat :=
  ((0 :: taken.map (fun e => e.1 + e.2)).filter (fun p => decide (p + n ≤ size) && taken.all (fun e =>
    decide (p + n ≤ e.1) || decide (e.1 + e.2 ≤ p)))).min?

/-- Room in both stash regions for saves of these sizes, one after another (R244, R295). -/
def stashFits (size : Nat) : List Nat → List (Nat × Nat) → Bool
  | [], _ => true
  | n :: rest, taken =>
    match stashPlace size n taken with
    | some p => stashFits size rest ((p, n) :: taken)
    | none => false

/-- Room in both stash regions for a save (R244, R247). -/
def Dev.stashRoom (d : Dev) (n : Nat) : Bool := stashFits d.stashSize [n] d.stashTaken

/-- Start a test on a position: a mapped core is saved first, but for a startup test (R247, R249, R451). -/
def Dev.startTest (d : Dev) (b p tier : Nat) (shutdown startup : Bool) (hold : Option Nat) : Dev :=
  let u := coreUnit b p
  let mapped := (d.bank b).cc.logicalOf p
  let save := mapped.isSome && !startup
  let asked := (d.reqTier u).isSome && !shutdown && !startup
  let n := if save then stashBytes tier else 0
  let t : Test := { tier := tier, phase := if save then .saving else .running, since := d.clock.frame, startFrame := d.clock.frame,
                    voidReason := 0, voidFrame := 0, hold := hold, stash := n,
                    at_ := if save then (stashPlace d.stashSize n d.stashTaken).getD 0 else 0, crcs := [], onDemand := asked,
                    shutdown := shutdown, startup := startup, sum := 0, opens := [] }
  let d1 := d.modBank b (fun k => k.setTest p (some t))
  { d1 with
    health.request := d1.health.request.map (fun r =>
      if asked && !r.launched.contains u then { r with launched := r.launched ++ [u] } else r) }

/-! ## When a test may run (R244, R245, R250, R252) -/

/-- A remap request that names the position as the old one waits to be taken. -/
def Dev.copyWaits (d : Dev) (b p : Nat) : Bool := (d.bank b).cc.remaps.any (fun r => decide (r.oldPos = p))

/-- The core has the image of an installed package (R250, R262, R272). -/
def Dev.imageReady (d : Dev) (b p : Nat) : Bool := (d.wisp b p).pat.valid && !d.pat.installed.isEmpty

/-- What a launch needs of a core whatever its owner: no test on it, a valid image, a place under MAX_BANK, stash room where it
is mapped, and for a mapped core that is to be remapped its T2 waits for that (R251, R252). -/
def Dev.testReady (d : Dev) (b p tier : Nat) : Bool :=
  let k := d.bank b
  let mapped := k.cc.logicalOf p
  (d.testOn b p).isNone && d.imageReady b p && decide (k.testList.length < d.zf Reg.ZN_TST_CTL 3 0) &&
    !d.copyWaits b p &&
    (match mapped with
      | some n => d.stashRoom (stashBytes tier) && !(decide (tier = 2) && k.cc.remapDue.contains n)
      | none => true)

/-- How a permitted tick finds a core: unmapped, idle in context 0, or at its owner's step boundary, whose control core is then
held (R244, R245). -/
inductive Permit where
  | no
  | free
  | boundary (ctx : Nat)
  deriving DecidableEq, Repr

/-- The permit of a core at this tick. DEDUCED (log entry 82). -/
def Dev.permit (d : Dev) (b p : Nat) : Permit :=
  match (d.bank b).cc.logicalOf p with
  | none => .free
  | some n =>
    let o := ((d.bank b).cc.owner n).1
    if o = 0 && d.idle b p then .free else if d.atBoundary o then .boundary o else .no

/-- The other cores of a context in a Bank that a launch takes along: due, or due within 2^21 F (R245). -/
def Dev.launchGroup (d : Dev) (b c : Nat) : List (Nat × Nat) :=
  (d.coresOf c b).filterMap (fun n => match (d.bank b).cc.posOf n with
    | some p =>
      let u := coreUnit b p
      if d.isDue u then some (p, d.tierDue u) else (d.tierReached u (2 ^ 21)).map (fun t => (p, t))
    | none => none)

/-- Launch a group as far as MAX_BANK and the stash allow. -/
def Dev.launchAll (d : Dev) (b : Nat) (hold : Option Nat) (l : List (Nat × Nat)) : Dev :=
  l.foldl (fun (acc : Dev) e => if acc.testReady b e.1 e.2 then acc.startTest b e.1 e.2 false false hold else acc) d

/-- TEST_LAUNCH (R244): a due test is launched at a permitted tick, with the group of its context (R245). -/
def execTestLaunch (bank : BankId) (pos : Pos) (s : State) : Host.Outcome State Fault Refusal :=
  let d := s.dev
  let b := bank.val
  let u := coreUnit b pos.val
  let tier := d.tierDue u
  if d.clock.stopped || d.bankDown b || !d.start.ready || d.sdActive || !d.isDue u || !d.testReady b pos.val tier then .next s
  else match d.permit b pos.val with
    | .no => .next s
    | .free => .next { s with dev := d.startTest b pos.val tier false false none }
    | .boundary c =>
      .next (s.onDev (fun d => (d.startTest b pos.val tier false false (some c)).launchAll b (some c) (d.launchGroup b c)))

/-! ## Save (R247) -/

/-- The host address of a block of a core's tier-1 slice (R516). -/
def Dev.sliceAddr (d : Dev) (b p block : Nat) : Nat := d.cfg.t1Base + coreUnit b p * sliceBytes + 4096 * block

/-- The host address of a test's copy in stash region 0 (A) or 1 (B). -/
def Dev.stashBase (d : Dev) (copy : Nat) (t : Test) : Nat := ((d.cfg.regions[copy]?).map (fun r => r.base)).getD 0 + t.at_

/-- The block at an address with its sideband slot, as a save reads them. -/
def HostMem.blockBytes (m : HostMem) (a : Nat) : List Byte := m.read a 4096 ++ leBytes 8 (m.slot a).toNat

/-- The bytes of block `i` in a copy of `n` blocks: the blocks first, then their slots. DESIGN CHOICE (log entry 80). -/
def HostMem.copyBytes (m : HostMem) (c n i : Nat) : List Byte := m.read (c + 4096 * i) 4096 ++ m.read (c + 4096 * n + 8 * i) 8

/-- A block and its slot put into place `i` of a copy of `n` blocks. -/
def HostMem.stashBlock (m : HostMem) (a c n i : Nat) : HostMem :=
  (m.write (c + 4096 * i) (m.read a 4096)).write (c + 4096 * n + 8 * i) (leBytes 8 (m.slot a).toNat)

/-- Block `i` of a copy of `n` blocks put back at its address, with its slot. -/
def HostMem.unstashBlock (m : HostMem) (a c n i : Nat) : HostMem :=
  (m.write a (m.read (c + 4096 * i) 4096)).setSlot a (BitVec.ofNat 64 (leNat (m.read (c + 4096 * n + 8 * i) 8)))

/-- The save of a test's region, block by block, into both copies. -/
def Dev.saveRegion (d : Dev) (b p : Nat) (t : Test) (m : HostMem) : HostMem :=
  let n := stashBlocks t.tier
  (List.range n).foldl (fun (m : HostMem) i =>
    (m.stashBlock (d.sliceAddr b p i) (d.stashBase 0 t) n i).stashBlock (d.sliceAddr b p i) (d.stashBase 1 t) n i) m

/-- STASH_SAVE_DONE (R247): both copies are complete, with the CRC-32C of each block and its slot; the test starts at the next tick. -/
def execStashSaveDone (bank : BankId) (pos : Pos) (s : State) : Host.Outcome State Fault Refusal :=
  let b := bank.val
  let p := pos.val
  match s.dev.testOn b p with
  | some t =>
    if t.phase = .saving then
      let crcs := (List.range (stashBlocks t.tier)).map (fun i => crc32c (s.mem.blockBytes (s.dev.sliceAddr b p i)))
      .next { s with
        mem := s.dev.saveRegion b p t s.mem
        dev := s.dev.modBank b (fun k => k.setTest p (some { t with phase := .starting, since := s.dev.clock.frame, crcs := crcs })) }
    else .next s
  | none => .next s

/-! ## Validity (R250) -/

/-- The reason of an invalid frame found now: it stands unless an earlier frame, or an earlier row in the same frame, has one. -/
def Test.invalid (t : Test) (reason frame : Nat) : Test :=
  if reason = 0 then t
  else if t.voidReason = 0 then { t with voidReason := reason, voidFrame := frame }
  else if frame = t.voidFrame then { t with voidReason := min t.voidReason reason }
  else t

/-- The edges of a frame are within 2 % of the image's test point. -/
def edgesOk (edges khz zclk : Nat) : Bool :=
  let want := khz * 2048 * 100
  let tol := khz * 2048 * 2
  decide (want ≤ edges * zclk * 100 + tol) && decide (edges * zclk * 100 ≤ want + tol)

/-- The VOID reason of a completed frame of a test, by the rows of R250; ABORT is noted when the reset comes. DEDUCED (log entry 79). -/
def frameReason (clockOk supplyBad throttled missed : Bool) : Nat :=
  if !clockOk then 1 else if supplyBad then 2 else if throttled then 3 else if missed then 4 else 0

/-- The VOID reason that the frame in progress already shows: a missed tick means a stopped clock. -/
def Dev.reasonNow (d : Dev) (b p : Nat) : Nat :=
  let w := d.wisp b p
  if w.missed then 1 else if d.pins.supplyBad.contains b then 2 else if d.aon.thermTrip || 0 < w.level then 3 else 0

/-- The host reset of a core under test: ABORT. -/
def Dev.abortTest (d : Dev) (b p : Nat) : Dev :=
  match d.testOn b p with
  | some t =>
    if t.phase = .running then d.modBank b (fun k => k.setTest p (some (t.invalid 5 d.clock.frame))) else d
  | none => d

/-! ## Results (R234, R239, R255) -/

/-- The on-demand request ends (R255): the cores not launched by then count as NOT_RUN. -/
def Dev.endRequest (d : Dev) : Dev :=
  match d.health.request with
  | some r =>
    if r.running then
      ({ d with health.request := some { r with running := false, notRun := (r.units.filter (fun u => !r.launched.contains u)).length } }).setZf
        Reg.ZN_TST_REQ_STAT 2 0 2
    else d
  | none => d

/-- A core that the request launched has a result; the request ends when every core has one (a core with none reads 3). DEDUCED (log entry 83). -/
def Dev.requestResult (d : Dev) (u res : Nat) : Dev :=
  match d.health.request with
  | some r =>
    if !r.launched.contains u then d
    else
      let r1 := { r with results := Tbl.set 3 r.results u res }
      let d1 := { d with health.request := some r1 }
      if r.running && r.units.all (fun x => decide (Tbl.get 3 r1.results x < 2)) then d1.endRequest else d1
  | none => d

/-- The counter of a result: 0 PASS, 1 FAIL, 2 VOID. -/
def resultCounter : Nat → Nat
  | 0 => Reg.ZN_TST_CNT_PASS
  | 1 => Reg.ZN_TST_CNT_FAIL
  | _ => Reg.ZN_TST_CNT_VOID

/-- A test result: counted, recorded as TEST, applied to the core, and kept for the request, the start or the shutdown that asked. -/
def Dev.testResult (d : Dev) (b p : Nat) (t : Test) (res reason : Nat) : Dev :=
  let u := coreUnit b p
  let p1 := w32 (t.tier + 4 * res + 16 * reason + 256 * bit t.onDemand + 512 * bit t.shutdown)
  let d1 := (d.bumpZ (resultCounter res)).zEvent (if t.shutdown then 8 else 0) 0x41 0 (w32 u) p1 0 0
  let d2 := match res with
    | 0 => d1.hEvent u (.testPass t.tier)
    | 1 => d1.hEvent u (.testFail t.tier)
    | _ => d1.hEvent u .testVoid
  let d3 := if t.onDemand then d2.requestResult u res else d2
  let d4 := if t.startup then d3.bumpZ (match res with
    | 0 => Reg.ZN_START_TPASS
    | 1 => Reg.ZN_START_TFAIL
    | _ => Reg.ZN_START_TVOID) else d3
  if t.shutdown then { d4 with sd.tested := d4.sd.tested.filter (fun e => decide (e.1 ≠ u)) ++ [(u, res)] } else d4

/-- The core is released: its test is over, and a Wisp that a round excluded gets its late repair (R248, R278). -/
def Dev.releaseTest (d : Dev) (b p : Nat) : Dev :=
  match d.testOn b p with
  | none => d
  | some _ =>
    let d1 := d.modBank b (fun k => k.setTest p none)
    if (d.wisp b p).pat.excluded then { d1 with pat.lateQueue := d1.pat.lateQueue ++ [(b, p)] } else d1

/-- A running test ends with a result; a saved core is restored next (R248). -/
def Dev.endTest (d : Dev) (b p : Nat) (t : Test) (pass : Bool) : Dev :=
  let t1 := t.invalid (d.reasonNow b p) d.clock.frame
  let res := if t1.voidReason ≠ 0 then 2 else if pass then 0 else 1
  let d1 := d.testResult b p t1 res t1.voidReason
  if t.stash = 0 then d1.releaseTest b p
  else d1.modBank b (fun k => k.setTest p (some { t1 with phase := .restoring, since := d.clock.frame }))

/-- TEST_LIMIT (R242): a test still running at its tier's limit ends FAIL, or VOID where a frame was invalid (R250). -/
def execTestLimit (bank : BankId) (pos : Pos) (s : State) : Host.Outcome State Fault Refusal :=
  match s.dev.testOn bank.val pos.val with
  | some t =>
    if t.phase = .running && decide (t.startFrame + tierLimit t.tier ≤ s.dev.clock.frame) then
      .next (s.onDev (fun d => d.endTest bank.val pos.val t false))
    else .next s
  | none => .next s

/-! ## Restore (R248, R249) -/

/-- A copy that fails its CRC is charged to the tier-2 region that held it. -/
def Dev.chargeCopy (d : Dev) (addr : Nat) : Dev :=
  match d.regionOf addr with
  | some u => d.hEvent u (.charge rCW)
  | none => d

/-- A block lost: recorded, alerted, and its owner's open epochs retracted, or exposed below Gate (R249). DEDUCED (log entry 81). -/
def Dev.stashLost (d : Dev) (b p block unit : Nat) : Dev :=
  let a := d.sliceAddr b p block
  let c := d.ownerAt b p
  let d1 := (d.bumpZ Reg.ZN_TST_CNT_STASH_LOST).bankEvent b 269 0x42 c (w32 a) (w32 (a / 2 ^ 32)) (w32 p) 0 .journal
  let d2 := d1.eventNotice true b 269 0x42 c (w32 a) (w32 (a / 2 ^ 32)) (w32 p) 0
  let x := d2.ctx c
  if x.gate then
    match x.hz.liveEpochs with
    | e :: _ => d2.retractIn c e.num 1
    | [] => d2
  else d2.expose c 0 x.core.step x.core.step unit

/-- The copy that a block is restored from: A, or B where A fails its CRC; none where both fail. -/
def HostMem.copyFor (m : HostMem) (cA cB n i : Nat) (crc : Word) : Option Bool :=
  if crc = crc32c (m.copyBytes cA n i) then some false else if crc = crc32c (m.copyBytes cB n i) then some true else none

/-- One block restored (R248, R249); where both copies fail, copy B's bytes stay and the slot becomes zero. -/
def restoreBlock (b p : Nat) (t : Test) (s : State) (i : Nat) : State :=
  let d := s.dev
  let n := stashBlocks t.tier
  let a := d.sliceAddr b p i
  let cA := d.stashBase 0 t
  let cB := d.stashBase 1 t
  let charged := d.chargeCopy (cA + 4096 * i)
  match s.mem.copyFor cA cB n i (t.crcs.getD i 0) with
  | some false => { s with mem := s.mem.unstashBlock a cA n i }
  | some true => { s with mem := s.mem.unstashBlock a cB n i, dev := charged.bumpZ Reg.ZN_TST_CNT_COPYB }
  | none =>
    { s with
      mem := (s.mem.unstashBlock a cB n i).setSlot a 0
      dev := (charged.chargeCopy (cB + 4096 * i)).stashLost b p i ((d.regionOf (cA + 4096 * i)).getD 0x1FFFF) }

/-- Bits that upsets have flipped in the `n` bytes of host memory from an address, by offset. -/
def HostMem.upset (m : HostMem) (base n : Nat) (l : List (Nat × Byte)) : HostMem :=
  (l.filter (fun x => decide (x.1 < n))).foldl
    (fun (m : HostMem) x => m.write (base + x.1) ((m.read (base + x.1) 1).map (fun v => v ^^^ x.2))) m

/-- RESTORE_DONE (R248): the region comes back block by block, after any upsets of its two copies in host memory, and the core is released.
DESIGN CHOICE (log entry 165). -/
def execRestoreDone (bank : BankId) (pos : Pos) (upsetsA upsetsB : List (Nat × Byte)) (s : State) :
    Host.Outcome State Fault Refusal :=
  let b := bank.val
  let p := pos.val
  match s.dev.testOn b p with
  | some t =>
    if t.phase = .restoring then
      let n := stashBytes t.tier
      let mem := (s.mem.upset (s.dev.stashBase 0 t) n upsetsA).upset (s.dev.stashBase 1 t) n upsetsB
      let s1 := (List.range (stashBlocks t.tier)).foldl (restoreBlock b p t) { s with mem := mem }
      .next (s1.onDev (fun d => d.releaseTest b p))
    else .next s
  | none => .next s

/-! ## Spare remapping (R251 to R253, R297) -/

/-- The positions that serve no logical core. -/
def BankCc.unmapped (c : BankCc) : List Nat := (List.range 264).filter (fun p => (c.logicalOf p).isNone)

/-- Core and slice of a position are both in states that satisfy `f`. -/
def Dev.bothIn (d : Dev) (b p : Nat) (f : Health → Bool) : Bool :=
  f (d.healthOf (coreUnit b p)) && f (d.healthOf (sliceUnit (coreUnit b p)))

/-- The state makes a position eligible where no Clear one is left. -/
def Health.eligible : Health → Bool
  | .dawn => true
  | .clear => true
  | _ => false

/-- The spare a Bank chooses (R251). -/
def Dev.spareOf (d : Dev) (b : Nat) : Option Nat :=
  let free := (d.bank b).cc.unmapped
  match free.find? (fun p => d.bothIn b p (fun h => h == .clear)) with
  | some p => some p
  | none => free.find? (fun p => d.bothIn b p Health.eligible)

/-- The core remap entry of a logical core in the repair table: kept where its position differs from reset (R297). -/
def remapRow (rows : List RepairRow) (n pos : Nat) : List RepairRow :=
  let others := rows.filter (fun r => !(decide (r.kind = 2) && decide (r.frm = n)))
  if pos = n || 64 ≤ others.length then others
  else others ++ [{ kind := 2, fused := false, badFuse := false, pos := pos, array := 0, frm := n, dst := pos }]

/-- Map a logical core to a position, with a request to the control core where one is posted (R251, R295). DEDUCED (log entry 84). -/
def Dev.mapCore (d : Dev) (b n new : Nat) (post : Bool) : Dev :=
  let k := d.bank b
  let old := Tbl.getK (fun i => i) k.cc.map n
  let d1 := d.modBank b (fun k =>
    { k with
      cc.map := Tbl.setK (fun i => i) k.cc.map n new
      cc.vacant := k.cc.vacant.filter (fun x => decide (x ≠ n))
      cc.remapDue := k.cc.remapDue.filter (fun x => decide (x ≠ n))
      cc.remapReady := k.cc.remapReady.filter (fun x => decide (x ≠ n))
      cc.remaps := if post then k.cc.remaps ++ [{ logical := n, oldPos := old, newPos := new }] else k.cc.remaps
      repairs := remapRow k.repairs n new
      newRows := k.newRows ++ (remapRow k.repairs n new).filter (fun r => decide (r.kind = 2) && decide (r.frm = n)) })
  let d2 := (((d1.dropBase (coreUnit b old)).dropBase (coreUnit b new)).bumpZ Reg.ZN_UHT_CNT_REMAP).bankEvent b 271 0x44 0 (w32 n) (w32 old) (w32 new) 0 .journal
  (d2.jPush (d2.remapEntry b)).jPush (d2.repairEntry b)

/-- BK_RMP_STAT as it reads: CAPACITY and SPARES (R260). -/
def Dev.rmpStat (d : Dev) (b : Nat) : Word :=
  let c := (d.bank b).cc
  let spares := (c.unmapped.filter (fun p => d.bothIn b p Health.eligible)).length
  w32 (256 - c.vacant.length + 512 * min 15 spares)

/-- A logical core becomes vacant (R253): NOSPARE, the capacity notice and the map's journal entry. -/
def Dev.makeVacant (d : Dev) (b n : Nat) : Dev :=
  let d1 := d.modBank b (fun k =>
    { k with
      cc.vacant := k.cc.vacant ++ [n]
      cc.remapDue := k.cc.remapDue.filter (fun x => decide (x ≠ n))
      cc.remapReady := k.cc.remapReady.filter (fun x => decide (x ≠ n)) })
  let cap := 256 - (d1.bank b).cc.vacant.length
  ((d1.zEvent 0 0x43 0 (w32 b) (w32 cap) 0 0).notice 0x04 false [w32 b, d1.rmpStat b]).jPush (d1.remapEntry b)

/-- The position of a logical core stands in Eclipse, core or slice. -/
def Dev.inEclipse (d : Dev) (b n : Nat) : Bool :=
  match (d.bank b).cc.posOf n with
  | some p => d.healthOf (coreUnit b p) == .eclipse || d.healthOf (sliceUnit (coreUnit b p)) == .eclipse
  | none => true

/-- REMAP_APPLY (R251, R253): at the owner's boundary a logical core takes a spare, with a request to the control core but in a shutdown
(R295); without one an Eclipse core's number becomes
vacant, and an Overcast core works on. -/
def execRemapApply (bank : BankId) (logical : Logical) (s : State) : Host.Outcome State Fault Refusal :=
  let d := s.dev
  let b := bank.val
  let n := logical.val
  let k := d.bank b
  if d.clock.stopped || d.bankDown b || !k.cc.remapReady.contains n then .next s
  else match d.spareOf b with
    | some p =>
      if 8 ≤ k.cc.remaps.length then .next s else .next { s with dev := d.mapCore b n p (!d.sdActive) }
    | none =>
      if k.cc.vacant.contains n then
        .next (s.onDev (fun d => d.modBank b (fun k => { k with cc.remapReady := k.cc.remapReady.filter (fun x => decide (x ≠ n)) })))
      else if d.inEclipse b n then .next { s with dev := d.makeVacant b n }
      else .next (s.onDev (fun d => d.modBank b (fun k =>
        { k with cc.remapDue := k.cc.remapDue.filter (fun x => decide (x ≠ n))
                 cc.remapReady := k.cc.remapReady.filter (fun x => decide (x ≠ n)) })))

/-- TAKE of BK_CC_RMP_TAKE (R496): the head remap request is removed. -/
def execTake (p : Path) (bank : BankId) (s : State) : Host.Outcome State Fault Refusal :=
  .next (s.onDev (fun d => d.cmdB p bank.val Reg.BK_CC_RMP_TAKE 1 (fun d => d.modBank bank.val (fun k =>
    { k with cc.remaps := k.cc.remaps.drop 1 }))))

/-! ## On-demand requests (R254, R255) -/

/-- The core units of a context. -/
def Dev.coreUnitsOf (d : Dev) (c : Nat) : List Nat :=
  (d.allCores c).filterMap (fun x => ((d.bank x.1).cc.posOf x.2).map (fun p => coreUnit x.1 p))

/-- START of an on-demand request with a selection and a count: the state it completes with (R254). -/
def Dev.startRequest (d : Dev) (sel count : Word) : Dev × Nat :=
  let done (r : Nat) : Dev × Nat := (d.setZf Reg.ZN_TST_REQ_STAT 2 0 r, r)
  let tier := bitsOf sel 19 18
  let byCtx := bitOf sel 17
  let first := bitsOf sel 16 0
  let n := bitsOf count 16 0
  let units := if byCtx then d.coreUnitsOf (first % 1024) else (List.range n).map (fun i => first + i)
  if (d.health.request.map (fun r => r.running)).getD false then done 4
  else if tier = 3 then done 5
  else if (!byCtx && n = 0) || (byCtx && units.isEmpty) then done 3
  else if !byCtx && 50688 < first + n then done 5
  else
    let d1 := { d with health.request := some { units := units, tier := tier, start := d.health.graceClock, running := true, launched := [],
                                                 results := [], notRun := 0 } }
    ((units.foldl Dev.askCheck d1).setZf Reg.ZN_TST_REQ_STAT 2 0 1, 1)

/-- TEST_REQ_START: START of ZN_TST_REQ_CMD. -/
def execTestReqStart (p : Path) (s : State) : Host.Outcome State Fault Refusal :=
  .next (s.onDev (fun d => d.cmdZ p Reg.ZN_TST_REQ_CMD 1 (fun d =>
    (d.startRequest (d.zreg Reg.ZN_TST_REQ_SEL) (d.zreg Reg.ZN_TST_REQ_COUNT)).1)))

/-- TEST_REQ_CANCEL: CANCEL of ZN_TST_REQ_CMD; tests already launched complete. -/
def execTestReqCancel (p : Path) (s : State) : Host.Outcome State Fault Refusal :=
  .next (s.onDev (fun d => d.cmdZ p Reg.ZN_TST_REQ_CMD 2 Dev.endRequest))

/-- ON_DEMAND_EXPIRE (R255): GRACE frames after its start a request ends. -/
def execOnDemandExpire (s : State) : Host.Outcome State Fault Refusal :=
  let d := s.dev
  let due := (d.health.request.map (fun r => r.running && decide (r.start + d.zf Reg.ZN_TST_GRACE 24 0 ≤ d.health.graceClock))).getD false
  if due then .next { s with dev := d.endRequest } else .next s

end Sys2Proof.Machine
end

