-- ==== Sys2Proof/Machine/CheckWords.lean ====
section
/-! DEFINITION. Check words at a Wisp (R64 to R92, R161): latching a command, stores into carried blocks, closing a block and
folding its word into the signature shares, writing the word, and loads with their outcomes. -/

namespace Sys2Proof.Machine

/-! ## The latched command (R64, R65, R71, R161) -/

/-- The level that the Wisp treats a command at: of the context it names, Off where the tag differs from the core's owner and the
command is no replay (R161, R205). -/
def Dev.cmdLevel (d : Dev) (b p : Nat) (c : Cmd) : Nat :=
  if !c.replay && d.ownerAt b p ≠ c.ctx.val then 0
  else
    let x := d.ctx c.ctx.val
    match x.core.state with
    | .active => x.core.level
    | .failed => x.core.level
    | .closing => x.core.level
    | _ => 0

/-- A base that is not aligned, or a store that declares no format (R65, R71). -/
def uncarriable (c : Cmd) : Bool := decide (c.base.toNat % 4096 ≠ 0) || (c.isStore && decide (0xC ≤ c.fmt.toNat))

/-- The latched command carries check words for the core's stores or loads (R64). -/
def Dev.carries (d : Dev) (b p : Nat) (c : Cmd) : Bool := c.carry && !uncarriable c && decide (1 ≤ d.cmdLevel b p c)

/-- Count in a Wisp counter; Wisp counters are frozen in a global stop (R57). -/
def Dev.wsCount (d : Dev) (b p off n : Nat) : Dev :=
  if d.clock.stopped || n = 0 then d else d.modWisp b p (fun w => w.add off n)

/-- Units skipped or abandoned, in their counter and in the verification-skip metric of the frame (R80, R81, R360). -/
def Dev.cwSkip (d : Dev) (b p off units : Nat) : Dev :=
  if d.clock.stopped then d else d.modWisp b p (fun w => { (w.add off units) with skips := w.skips + units })

/-! ## Signature shares (R87, R89) -/

/-- The key of a share: context, handle, step, and for a replay its ticket. -/
def Share.keyed (h : Share) (c : Cmd) : Bool :=
  decide (h.ctx = c.ctx.val) && decide (h.handle = c.handle) && decide (h.step = c.step) && decide (h.replay = c.replay) &&
    (!c.replay || decide (h.ticket = c.ticket.toNat))

/-- Share registers in use. -/
def Wisp.sigRegs (w : Wisp) : Nat := (w.shares.filter (fun h => !h.invalid)).length

/-- A share register allocated for a command (R87). DEDUCED (log entry 69). -/
def newShare (c : Cmd) (epoch : Option Word) (sum : DWord) (invalid : Bool) : Share where
  ctx := c.ctx.val
  handle := c.handle
  step := c.step
  replay := c.replay
  ticket := c.ticket.toNat
  blocks := 1
  sum := sum
  invalid := invalid
  epoch := epoch.getD 0

/-- The shares of a Wisp after a block of a command closed with a word; answers whether no register was free. Notes of overflowed
keys of an earlier step are dropped. -/
def foldShare (l0 : List Share) (c : Cmd) (epoch : Option Word) (word : DWord) (index : Nat) : List Share × Bool :=
  let l := l0.filter (fun (h : Share) => !(h.invalid && decide (h.blocks = 0) && decide (h.ctx = c.ctx.val) && decide (h.step ≠ c.step)))
  let used := (l.filter (fun (h : Share) => !h.invalid)).length
  if l.any (fun (h : Share) => h.keyed c) then
    (l.map (fun (h : Share) =>
      if h.keyed c then { h with blocks := h.blocks + 1, sum := if h.invalid then h.sum else h.sum + sigTerm word index } else h),
     l.any (fun (h : Share) => h.keyed c && h.invalid) && decide (8 ≤ used))
  else if 8 ≤ used then (l ++ [newShare c epoch 0 true], true)
  else (l ++ [newShare c epoch (sigTerm word index) false], false)

/-- A closed block's term into the share of its key; a key without a register is recorded as SIG_OVERFLOW (R87). -/
def Dev.foldSig (d : Dev) (b p : Nat) (c : Cmd) (epoch : Option Word) (word : DWord) (index : Nat) : Dev :=
  let r := foldShare (d.wisp b p).shares c epoch word index
  let d1 := d.modWisp b p (fun w => { w with shares := r.1 })
  if r.2 then (d1.wsCount b p Reg.WS_CW_SIGOVF 1).wispEvent b p 0x17 c.ctx.val c.handle c.step 0 0 .nothing else d1

/-! ## Closing a block (R77, R78) -/

/-- The units of a block's valid region. -/
def OpenBlk.units (x : OpenBlk) : Nat := validBytes x.cmd.length.toNat x.index / 16

/-- The bytes of the valid region as the Wisp sees them: the units written in this opening, the others read back; the whole region
where the block is rewritten (R77, R79). -/
def OpenBlk.view (x : OpenBlk) (mem : HostMem) : List Byte :=
  (List.range x.units).flatMap (fun u =>
    match x.rewritten, Tbl.find x.written u with
    | false, some l => l
    | _, _ => mem.read (x.blockAddr + 16 * u) 16)

/-- The units read back at a close. -/
def OpenBlk.readBack (x : OpenBlk) : Nat := if x.rewritten then x.units else x.units - x.written.length

/-- The word of a closing block: PROV and PAR by the epoch it was stored in (R69, R72). -/
def OpenBlk.word (x : OpenBlk) (mem : HostMem) (gate : Bool) : DWord :=
  let prov := gate && x.epoch.isSome
  checkWord (crc32c (x.view mem)) (blockTag x.cmd.handle.toNat x.index) x.cmd.fmt.toNat prov
    (prov && decide ((x.epoch.getD 0).toNat % 2 = 1)) (16 * x.units)

/-- Close an open block: at Off no word is due; with GEN_EN 0 the close is suppressed and counted (R77, R87, R92). DEDUCED (log entry 68). -/
def Dev.closeBlk (d : Dev) (mem : HostMem) (b p : Nat) (x : OpenBlk) : Dev :=
  let d1 := d.modWisp b p (fun w => { w with opens := w.opens.filter (fun y => decide (y.blockAddr ≠ x.blockAddr)) })
  let level := d.cmdLevel b p x.cmd
  if level = 0 then d1
  else if !bitOf ((d.wisp b p).reg Reg.WS_CW_CTL) 0 then d1.wsCount b p Reg.WS_CW_UNALIGNED 1
  else
    let word := x.word mem (decide (3 ≤ level))
    let d2 := (d1.wsCount b p Reg.WS_CW_READBACK x.readBack).modWisp b p (fun w =>
      { w with closed := w.closed ++ [{ blockAddr := x.blockAddr, word := word }] })
    d2.foldSig b p x.cmd x.epoch word x.index

/-- Close every open block of a Wisp, the least recently written first. -/
def Dev.closeAll (d : Dev) (mem : HostMem) (b p : Nat) : Dev :=
  (d.wisp b p).opens.foldl (fun (acc : Dev) (x : OpenBlk) => acc.closeBlk mem b p x) d

/-- Write the word of the block that closed first into its slot (R78). -/
def writeClosed (s : State) (b p : Nat) : State :=
  match (s.dev.wisp b p).closed with
  | [] => s
  | x :: rest =>
    { s with
      mem := s.mem.setSlot x.blockAddr x.word
      dev := (s.dev.modWisp b p (fun w => { w with closed := rest })).wsCount b p Reg.WS_CW_GEN 1 }

/-- CHECK_WORD_WRITE (R78): after read-back, the Wisp writes the word of the block that closed first, through the store stream. -/
def execCheckWordWrite (bank : BankId) (pos : Pos) (s : State) : Host.Outcome State Fault Refusal :=
  if s.dev.clamped then .next s else .next (writeClosed s bank.val pos.val)

/-! ## Commands (R161, R81, R124, R332) -/

/-- The operator ID changes: its CRC checks are abandoned, its tile is finished, and the change is a beacon (R81, R124, R332). -/
def Dev.operatorEnd (d : Dev) (b p : Nat) (c : Cmd) : Dev :=
  let w := d.wisp b p
  let left := sumNat ((w.loads.filter (fun x => x.taken)).map (fun x => validBytes x.cmd.length.toNat x.index / 16))
  let tile : Tile := { ctx := c.ctx.val, layer := c.layer, oper := c.oper, step := c.step, tag := c.tile, epoch := w.cmdEpoch }
  let sampled := !c.replay && decide (d.ownerAt b p = c.ctx.val)
  let d1 := if left = 0 then d else d.cwSkip b p Reg.WS_CW_PARTIAL_BYTES left
  (d1.modWisp b p (fun w => { w with loads := [], beacons := w.beacons + 1, tiles := if sampled then w.tiles ++ [tile] else w.tiles })).modCtx (d.ownerAt b p)
    (fun x => { x with hang.beacon := true })

/-- A command's tag differs from the core's owner: it runs unchecked, counted and recorded (R161). DEDUCED (log entry 38). -/
def Dev.checkOwner (d : Dev) (b p : Nat) (c : Cmd) : Dev :=
  let o := d.ownerAt b p
  if c.replay || o = c.ctx.val then d
  else
    let d1 := if d.clock.stopped then d else d.modBank b (fun k => k.add Reg.BK_CTX_MISMATCH 1)
    d1.wispEvent b p 0x25 c.ctx.val (w32 c.ctx.val) (w32 o) 0 0 .nothing

/-- Latch a command: the one before ends, and its open blocks close (R77, R161). -/
def Dev.latch (d : Dev) (mem : HostMem) (b p : Nat) (c : Cmd) : Dev :=
  let d1 := d.closeAll mem b p
  let d2 := match (d.wisp b p).cmd with
    | some old => if old.oper = c.oper then d1 else d1.operatorEnd b p old
    | none => d1
  let x := d.ctx c.ctx.val
  let d3 := d2.modWisp b p (fun w => { w with cmd := some c, cmdEpoch := x.mark })
  let d4 := (d3.checkOwner b p c).modCtx c.ctx.val (fun x =>
    { x with core.step := if c.replay || d.ownerAt b p ≠ c.ctx.val then x.core.step else c.step })
  if c.carry && uncarriable c && decide (1 ≤ d.cmdLevel b p c) then d4.wsCount b p Reg.WS_CW_UNALIGNED 1 else d4

/-- WS_FENCE refuses every command to a core in Eclipse (R241, R509). DEDUCED (log entry 70). -/
def Dev.fenced (d : Dev) (b p : Nat) : Bool :=
  d.healthOf (coreUnit b p) == .eclipse || d.healthOf (sliceUnit (coreUnit b p)) == .eclipse

/-- The spare-remap entry that maps the position waits to be reloaded: commands to its logical core are refused (R465). -/
def Dev.reloading (d : Dev) (b p : Nat) : Bool :=
  (d.bank b).cc.remapBad.any (fun n => decide ((d.bank b).cc.posOf n = some p))

/-- The Wisp at a position acts: its Bank takes part and its core is not parked. -/
def Dev.wispUp (d : Dev) (b p : Nat) : Bool := !d.bankDown b && !d.clamped && !(d.wisp b p).parked

/-- The Wisp at a position checks its core's work: a fenced core's Wisp goes on with tick reception and test launch alone (R241). DEDUCED
(log entry 177). -/
def Dev.checking (d : Dev) (b p : Nat) : Bool := d.wispUp b p && !d.fenced b p

/-- COMMAND_TAP (R161). DEDUCED (log entry 67). -/
def execCommandTap (bank : BankId) (pos : Pos) (cmd : Cmd) (s : State) : Host.Outcome State Fault Refusal :=
  let d := s.dev
  if !d.wispUp bank.val pos.val || d.fenced bank.val pos.val || d.reloading bank.val pos.val then .next s
  else .next { s with dev := d.latch s.mem bank.val pos.val cmd }

/-! ## Stores (R76, R77) -/

/-- The block of a command's tensor that an address lies in, with its index, where it has valid bytes there. -/
def blockAt (c : Cmd) (addr : Nat) : Option (Nat × Nat) :=
  if addr < c.base.toNat then none
  else
    let i := (addr - c.base.toNat) / 4096
    let a := c.base.toNat + 4096 * i
    if addr < a + validBytes c.length.toNat i then some (a, i) else none

/-- The blocks of a command's tensor that an access of `n` bytes at an address touches. -/
def blocksOf (c : Cmd) (addr n : Nat) : List (Nat × Nat) :=
  ((List.range n).filterMap (fun i => blockAt c (addr + i))).eraseDups

/-- The whole units of a block that an access covers, with their data. -/
def unitsIn (blockAddr units addr : Nat) (data : List Byte) : List (Nat × List Byte) :=
  (List.range units).filterMap (fun u =>
    let lo := blockAddr + 16 * u
    if addr ≤ lo && decide (lo + 16 ≤ addr + data.length) then some (u, (data.drop (lo - addr)).take 16) else none)

/-- A block opened by its first store (R76). -/
def newOpen (c : Cmd) (epoch : Option Word) (a i : Nat) : OpenBlk where
  blockAddr := a
  index := i
  cmd := c
  epoch := epoch
  written := []
  rewritten := false

/-- The units of a store put into an open block; another shape, or a unit written twice, marks it rewritten (R76, R77). -/
def OpenBlk.store (x : OpenBlk) (addr : Nat) (data : List Byte) : OpenBlk :=
  let us := unitsIn x.blockAddr x.units addr data
  let shaped := decide (addr % 16 = 0) && decide (data.length % 16 = 0)
  let written : Tbl (List Byte) := us.foldl (fun (t : Tbl (List Byte)) (u : Nat × List Byte) => Tbl.put t u.1 u.2) x.written
  { x with
    written := written
    rewritten := x.rewritten || !shaped || us.any (fun u => (Tbl.find x.written u.1).isSome) }

/-- A store into one block of a carried tensor: a ninth block closes the least recently written; the block goes to the end of the
list, and closes when its valid region is written (R76, R77). A store of another shape that covers no whole unit opens its block as well.
DESIGN CHOICE (log entry 192). -/
def Dev.storeBlk (d : Dev) (mem : HostMem) (b p : Nat) (c : Cmd) (addr : Nat) (data : List Byte) (blk : Nat × Nat) : Dev :=
  let w := d.wisp b p
  let old := w.opens.find? (fun x => decide (x.blockAddr = blk.1))
  let d1 := match old, w.opens with
    | none, y :: _ => if 8 ≤ w.opens.length then d.closeBlk mem b p y else d
    | _, _ => d
  let epoch := w.cmdEpoch.orElse (fun _ => (d.ctx c.ctx.val).mark)
  let x := (old.getD (newOpen c epoch blk.1 blk.2)).store addr data
  let d2 := d1.modWisp b p (fun w => { w with opens := w.opens.filter (fun y => decide (y.blockAddr ≠ blk.1)) ++ [x] })
  if x.written.length = x.units then d2.closeBlk mem b p x else d2

/-! ## The stores of a test (R263) -/

/-- What the Wisp takes a test's stores as: a tensor of handle 0xFFFF_FF00 over the core's slice, of format 0 and with no epoch. DESIGN
CHOICE (log entry 186). -/
def Dev.testCmd (d : Dev) (b p : Nat) : Cmd :=
  { ctx := 0, layer := 0, oper := 0, step := 0, tile := ⟨0, 0, 0, 0, 0⟩, handle := 0xFFFFFF00, base := BitVec.ofNat 48 (d.sliceAddr b p 0),
    length := w32 sliceBytes, fmt := 0, carry := true, isStore := true, replay := false, ticket := 0 }

/-- A block of a test closes: its term is folded by R86, and no word is written. -/
def Test.close (t : Test) (mem : HostMem) (x : OpenBlk) : Test :=
  { t with opens := t.opens.filter (fun y => decide (y.blockAddr ≠ x.blockAddr)), sum := t.sum + sigTerm (x.word mem false) x.index }

/-- A test's store into one block, with the eight places of R76. -/
def Test.storeBlk (mem : HostMem) (c : Cmd) (addr : Nat) (data : List Byte) (t : Test) (blk : Nat × Nat) : Test :=
  let old := t.opens.find? (fun x => decide (x.blockAddr = blk.1))
  let t1 := match old, t.opens with
    | none, y :: _ => if 8 ≤ t.opens.length then t.close mem y else t
    | _, _ => t
  let x := (old.getD (newOpen c none blk.1 blk.2)).store addr data
  let t2 := { t1 with opens := t1.opens.filter (fun y => decide (y.blockAddr ≠ blk.1)) ++ [x] }
  if x.written.length = x.units then t2.close mem x else t2

/-- The sum of a test's stores at its end. -/
def Test.total (t : Test) (mem : HostMem) : DWord := (t.opens.foldl (fun (t : Test) (x : OpenBlk) => t.close mem x) t).sum

/-- A test runs on the core, so that its accesses are the test's. -/
def Dev.runs (d : Dev) (b p : Nat) : Option Test := (d.testOn b p).filter (fun t => decide (t.phase = .running))

/-- A running test takes a store of the core. -/
def Dev.testStore (d : Dev) (mem : HostMem) (b p addr : Nat) (data : List Byte) (t : Test) : Dev :=
  let c := d.testCmd b p
  if d.wispUp b p then d.modBank b (fun k => k.setTest p (some ((blocksOf c addr data.length).foldl (Test.storeBlk mem c addr data) t)))
  else d

/-- TEST_DONE (R263): when WS_TEST_DONE (R509) shows that the image has ended, the Wisp compares the sum of the test's stores with the
expected signature of the tier. -/
def execTestDone (bank : BankId) (pos : Pos) (ended : Bool) (s : State) : Host.Outcome State Fault Refusal :=
  match (s.dev.runs bank.val pos.val).filter (fun _ => ended) with
  | some t =>
    .next (s.onDev (fun d => d.endTest bank.val pos.val t
      (decide ((d.wisp bank.val pos.val).pat.sigs[t.tier]? = some (t.total s.mem)))))
  | none => .next s

/-! ## The core's stores -/

/-- A store of the core reaches memory, and the Wisp takes it into a running test's sum or into the open blocks of the latched command. -/
def Dev.storeTap (d : Dev) (mem : HostMem) (b p addr : Nat) (data : List Byte) : Dev :=
  match d.runs b p, (d.wisp b p).cmd with
  | some t, _ => d.testStore mem b p addr data t
  | none, some c =>
    if d.checking b p && c.isStore && d.carries b p c then
      (blocksOf c addr data.length).foldl (fun (acc : Dev) (blk : Nat × Nat) => acc.storeBlk mem b p c addr data blk) d
    else d
  | none, none => d

/-- CARRIED_STORE (R76): the core stores up to two 16-byte units. DESIGN CHOICE (log entry 23). DEDUCED (log entry 72). -/
def execCarriedStore (bank : BankId) (pos : Pos) (addr : Addr) (data : List Byte) (s : State) : Host.Outcome State Fault Refusal :=
  if 32 < data.length then .fault (.illFormed "CARRIED_STORE")
  else
    let mem := s.mem.write addr.toNat data
    .next { s with mem := mem, dev := s.dev.storeTap mem bank.val pos.val addr.toNat data }

/-! ## Loads (R80 to R85) -/

/-- The event and forwarding of a failing outcome (R82, R83, R84). The expected word takes what R84 does not give from the word read:
PROV, PAR and NOSENT, the CRC of an outcome other than CRC, and FMT where the load declares no format. DESIGN CHOICE (log entry 191). -/
def Dev.cwFail (d : Dev) (b p : Nat) (x : LoadBlk) (code : Nat) (crc : Word) : Dev :=
  let c := x.cmd
  let w := x.word
  let fmt := if 0xC ≤ c.fmt.toNat then wordFmt w else c.fmt.toNat
  let valid := validBytes c.length.toNat x.index
  let want : DWord := BitVec.ofNat 64 (crc.toNat * 2 ^ 32 + blockTag c.handle.toNat x.index * 2 ^ 16 + fmt * 2 ^ 12 +
    w.toNat / 1024 % 4 * 1024 + 256 * bit (wordNosent w) + lengthField valid)
  let counter := if code = 0x10 then Reg.WS_CW_MISSING else if code = 0x14 then Reg.WS_CW_FORMAT else Reg.WS_CW_FAIL
  let ev : Event := { code := code, ctx := c.ctx.val, nosent := wordNosent w, p0 := c.handle, p1 := w32 x.index, p2 := c.step,
                      p3 := w32 c.oper.toNat, detail := some (w, want) }
  let ticket := if c.replay then some c.ticket.toNat else none
  let fwd : Forward :=
    if cwCounts code then .cw code x.blockAddr c.ctx.val c.step x.epoch p c.handle (w32 x.index) ticket else .nothing
  (d.wsCount b p counter 1).present b p (some ((d.wisp b p).lastRx.getD d.clock.frame)) ev fwd

/-- The first of the tag, format and length checks that fails, by its event code (R82). DEDUCED (log entry 71). -/
def fieldOutcome (word : DWord) (c : Cmd) (index : Nat) : Option Nat :=
  if word = 0 then some 0x10
  else if wordMalformed word then some 0x11
  else if wordTag word ≠ blockTag c.handle.toNat index then some 0x12
  else if wordLength word ≠ lengthField (validBytes c.length.toNat index) then some 0x13
  else if c.fmt.toNat < 0xC && wordFmt word ≠ c.fmt.toNat then some 0x14
  else none

/-- A replay's load of a block ended PASS (R207). -/
def Dev.replayPassed (d : Dev) (c : Cmd) (index : Nat) : Dev :=
  if !c.replay then d
  else match d.byTicket c.ticket.toNat with
    | some (ctx, ep, q, r) =>
      d.modSuspect ctx ep q.id (fun q => q.modRun r (fun x => { x with passed := x.passed ++ [(c.handle, w32 index)] }))
    | none => d

/-- Change a block of the current operator. -/
def Dev.putLoad (d : Dev) (b p : Nat) (x : LoadBlk) : Dev :=
  d.modWisp b p (fun w => { w with loads := w.loads.filter (fun y => decide (y.blockAddr ≠ x.blockAddr)) ++ [x] })

/-- The first load of a block within an operator: skipped where verification is off; else the slot's checks, which a block for which the
CRC engine has no place has as well (R80, R82, R92). -/
def Dev.firstLoad (d : Dev) (mem : HostMem) (b p : Nat) (c : Cmd) (blk : Nat × Nat) : Dev :=
  let w := d.wisp b p
  let units := validBytes c.length.toNat blk.2 / 16
  let x : LoadBlk := { blockAddr := blk.1, index := blk.2, cmd := c, epoch := w.cmdEpoch, word := 0, loaded := [], taken := false }
  if !bitOf (w.reg Reg.WS_CW_CTL) 1 then (d.putLoad b p x).cwSkip b p Reg.WS_CW_SKIP_BYTES units
  else
    let y := { x with word := mem.slot blk.1 }
    let full := decide (2 ≤ (w.loads.filter (fun z => z.taken)).length)
    let d1 := if full then (d.putLoad b p y).cwSkip b p Reg.WS_CW_SKIP_BYTES units else d.putLoad b p y
    match fieldOutcome y.word c blk.2 with
    | some code => d1.cwFail b p y code (wordCrc y.word)
    | none => if full then d1 else d1.putLoad b p { y with taken := true }

/-- A block whose whole valid region has been loaded leaves the CRC engine with CRC or PASS (R81, R82). -/
def Dev.finishLoad (d : Dev) (b p : Nat) (x : LoadBlk) : Dev :=
  let y := { x with taken := false, loaded := [] }
  let crc := crc32c (x.loaded.flatMap (fun e => e.2))
  let d1 := d.putLoad b p y
  if crc = wordCrc x.word then (d1.wsCount b p Reg.WS_CW_PASS 1).replayPassed x.cmd x.index
  else d1.cwFail b p x 0x15 crc

/-- A load of one block of a carried tensor: the first opens it, and the units loaded pass through the engine. -/
def Dev.loadBlk (d : Dev) (mem : HostMem) (b p : Nat) (c : Cmd) (addr : Nat) (data : List Byte) (blk : Nat × Nat) : Dev :=
  let seen := (d.wisp b p).loads.any (fun x => decide (x.blockAddr = blk.1))
  let d1 := if seen then d else d.firstLoad mem b p c blk
  match (d1.wisp b p).loads.find? (fun x => decide (x.blockAddr = blk.1)) with
  | some x =>
    if !x.taken then d1
    else
      let units := validBytes c.length.toNat blk.2 / 16
      let us := unitsIn blk.1 units addr data
      let loaded : Tbl (List Byte) := us.foldl (fun (t : Tbl (List Byte)) (u : Nat × List Byte) => Tbl.put t u.1 u.2) x.loaded
      let y := { x with loaded := loaded }
      if y.loaded.length = units then d1.finishLoad b p y else d1.putLoad b p y
  | none => d1

/-- CARRIED_LOAD (R80): the core loads up to two 16-byte units; the data reach the core unchanged. A load of a block that is open in this
Wisp is not verified, and its units count as skipped (R85). DEDUCED (log entry 178). -/
def execCarriedLoad (bank : BankId) (pos : Pos) (addr : Addr) (data : List Byte) (s : State) : Host.Outcome State Fault Refusal :=
  if 32 < data.length then .fault (.illFormed "CARRIED_LOAD")
  else
    let d := s.dev
    let b := bank.val
    let p := pos.val
    match (d.wisp b p).cmd with
    | some c =>
      if d.checking b p && (d.runs b p).isNone && d.carries b p c then
        .next (s.onDev (fun d => (blocksOf c addr.toNat data.length).foldl
          (fun (acc : Dev) (blk : Nat × Nat) =>
            if (acc.wisp b p).opens.any (fun y => decide (y.blockAddr = blk.1)) then
              acc.cwSkip b p Reg.WS_CW_SKIP_BYTES (unitsIn blk.1 256 addr.toNat data).length
            else if c.isStore then acc
            else acc.loadBlk s.mem b p c addr.toNat data blk) d))
      else .next s
    | none => .next s

/-! ## The end of a replay (R205) -/

/-- DONE (R205): the replay's commands have ended, so its open blocks close (R77); the Bank captures the replay core's shares and forwards
them. After REPLAY_WAIT it is late (R348). -/
def Dev.ccDone (d0 : Dev) (mem : HostMem) (b : Nat) (v : Word) : Dev :=
  d0.ccAnswer b v (fun d' r =>
    let pos := ((d'.bank b).cc.posOf r.core).getD 0
    let d := d'.closeAll mem b pos
    let mine (h : Share) : Bool := h.replay && decide (h.ticket = r.ticket) && decide (h.ctx = r.ctx) && decide (h.step = r.step)
    let shares := (d.wisp b pos).shares.filter mine
    let d1 := d.modWisp b pos (fun w => { w with shares := w.shares.filter (fun h => !mine h) })
    match d1.byTicket r.ticket with
    | some (c, ep, q, run) =>
      let d2 := (d1.bumpZ Reg.ZN_HZ_CNT_REPLAYS).modSuspect c ep q.id (fun q =>
        q.modRun run (fun x => { x with done := true, shares := mergeShares shares }))
      if d2.captured c q.step then
        d2.afterReplay c ep (q.modRun run (fun x => { x with done := true, shares := mergeShares shares })) run
      else d2
    | none =>
      let x := d1.ctx r.ctx
      let d2 := match d1.hz.orphans.find? (fun o => (o.suspect.run o.run).any (fun y => decide (y.ticket = r.ticket))) with
        | some o => d1.endOrphan o (mergeShares shares)
        | none => d1
      if x.core.state = .failed && x.core.failReason = 5 then d2.recordLate 1 r.ctx 0 (w32 r.ticket) r.step (w32 b)
      else d2.bumpZ Reg.ZN_HZ_CNT_REPLAYS)

/-- CC_ANSWER_DONE. -/
def execCcAnswerDone (p : Path) (bank : BankId) (ticket : BitVec 16) (s : State) : Host.Outcome State Fault Refusal :=
  let v := w32 (1 + 65536 * ticket.toNat)
  .next (s.onDev (fun d => d.cmdB p bank.val Reg.BK_CC_ANSWER v (fun d => d.ccDone s.mem bank.val v)))

end Sys2Proof.Machine
end

