-- ==== Sys2Proof/Machine/Stop.lean ====
section
/-! DEFINITION. The global stop and the launched actions (R52, R53, R57 to R61, R88), and the capture ring that a stop and a hang
write (R341). -/

namespace Sys2Proof.Machine

/-! ## The capture ring (R341) -/

/-- The bytes at the end of the CAPTURE region that hold wait-for graphs (R443). -/
def graphBytes : Nat := 16 * 2 ^ 20

/-- The CAPTURE region (R443). -/
def Dev.capRegion (d : Dev) : Region := d.cfg.regions.getD 5 { base := 0, size := 0 }

/-- The bytes of the capture ring. -/
def Dev.capSize (d : Dev) : Nat := d.capRegion.size - graphBytes

/-- Drop the oldest records that a ring of `size` bytes has overwritten up to position `stop`; answers how many. -/
def dropOld (size stop : Nat) : List (Nat × Nat) → List (Nat × Nat) × Nat
  | [] => ([], 0)
  | r :: rest =>
    if size < stop - r.1 then
      let (l, n) := dropOld size stop rest
      (l, n + 1)
    else (r :: rest, 0)

/-- Write bytes into the capture ring, wrapping at its end. -/
def writeRing (m : HostMem) (base size at_ : Nat) (l : List Byte) : HostMem :=
  if size = 0 then m
  else { m with bytes := (l.zipIdx).foldl (fun (t : Tbl Byte) (x : Byte × Nat) =>
    Tbl.set 0 t ((base + (at_ + x.2) % size) % 2 ^ 48) x.1) m.bytes }

/-- What triggered a capture: kind 1 a stop, 2 a hang, 3 collateral; the incident; and the frame of the tick (R341). -/
structure CapTrigger where
  kind : Nat
  incident : Nat
  frame : Nat
  blamed : Nat
  ctx : Nat
  deriving DecidableEq, Repr

/-- The bytes of a capture record (R341). -/
def Dev.capBytes (d : Dev) (t : CapTrigger) (b : Nat) (r : CapRead) : List Byte :=
  let body := r.bytes.take d.cfg.capBytes
  let p := (r.pos.map (fun p => p.val)).getD 0x1FF
  let w := (r.pos.map (fun p => d.wisp b p.val)).getD Wisp.init
  let ctx := match r.pos with
    | some p => d.ownerAt b p.val
    | none => t.ctx
  let blamed := r.pos.isSome && decide (t.kind ≠ 1) && decide (coreUnit b p = t.blamed)
  let oper := (w.cmd.map (fun c => c.oper.toNat)).getD 0
  let step := (w.cmd.map (fun c => c.step.toNat)).getD 0
  leBytes 4 0x50414330 ++
    [BitVec.ofNat 8 t.kind, BitVec.ofNat 8 (bit r.truncated + 2 * bit r.pos.isNone + 4 * bit blamed), BitVec.ofNat 8 b, 0] ++
    leBytes 2 p ++ leBytes 2 ctx ++ leBytes 4 t.incident ++ leBytes 8 (mkStamp t.frame 0).toNat ++ leBytes 2 r.start.toNat ++
    leBytes 2 r.stop.toNat ++ leBytes 4 w.wait.toNat ++ leBytes 2 oper ++ [0, 0] ++ leBytes 4 step ++ leBytes 4 body.length ++
    leBytes 4 (crc32c body).toNat ++ List.replicate 16 0 ++ body

/-- Write one capture record; records overwritten are counted lost (R341). -/
def capWrite (s : State) (t : CapTrigger) (b : Nat) (r : CapRead) : State :=
  let d := s.dev
  let l := d.capBytes t b r
  let at_ := match d.hang.ringUsed.getLast? with
    | some e => e.1 + e.2
    | none => 0
  let (kept, lost) := dropOld d.capSize (at_ + l.length) d.hang.ringUsed
  let d1 := ({ d with hang.ringUsed := kept ++ [(at_, l.length)] }).addZ Reg.ZN_HANG_CNT_CAPLOST lost
  { s with mem := writeRing s.mem d.capRegion.base d.capSize at_ l, dev := d1 }

/-! ## Launched actions (R52, R53) -/

/-- The place of an action in the order of R53. -/
def actionOrder : Nat → Nat
  | 2 => 0
  | 3 => 1
  | 4 => 2
  | _ => 3

/-- The launched action of a code whose turn it is at this tick (R53). -/
def Dev.launched (d : Dev) (code : Nat) : Option Launch :=
  if d.clock.now.any (fun e => decide (actionOrder e.action < actionOrder code)) then none
  else d.clock.now.find? (fun e => decide (e.action = code))

/-- The action has been taken. -/
def Dev.taken (d : Dev) (code : Nat) : Dev :=
  { d with clock.now := d.clock.now.filter (fun e => decide (e.action ≠ code)) }

/-- The completion status NULL of a launched action (R53, R62). -/
def Dev.launchNull (d : Dev) : Dev := d.setZf Reg.ZN_LAUNCH_STAT 3 0 4

/-- GSTOP (R57, R59, R60): the checking state freezes, STOP_LOST clears and every Bank starts its capture; NULL in a stop. -/
def execGstop (s : State) : Host.Outcome State Fault Refusal :=
  match s.dev.launched 1 with
  | none => .next s
  | some _ =>
    .next (s.onDev (fun d =>
      let d1 := d.taken 1
      if d.clock.stopped then d1.launchNull
      else
        let banks := (List.range 192).filter (fun b => !d1.bankDown b)
        let d2 := { d1 with clock.stopped := true, clock.stopFrame := d1.clock.frame, clock.capturing := banks }
        (d2.setZ Reg.ZN_STOP_LOST 0).setZf Reg.ZN_STOP_STAT 9 2 0))

/-- A Bank has read its cores as R60 has it: positions 0 to 263 one after another, each in at most 96 zc and core p no later than
(p + 1) × 96 zc after the stop tick. -/
def stopReads (reads : List CapRead) : Bool :=
  decide (reads.map (fun r => r.pos.map (fun p => p.val)) = (List.range 264).map some) &&
    (reads.foldl (fun (acc : Bool × Nat × Nat) (r : CapRead) =>
      (acc.1 && decide (acc.2.1 ≤ r.start.toNat) && decide (r.start.toNat ≤ r.stop.toNat) &&
        decide (r.stop.toNat ≤ r.start.toNat + 96) && decide (r.stop.toNat ≤ 96 * (acc.2.2 + 1)), r.stop.toNat, acc.2.2 + 1))
      (true, 0, 0)).1

/-- STOP_CAPTURE_DONE (R60): a Bank has read its 264 cores and written one capture record each; with other reads it has not finished.
DESIGN CHOICE (log entry 109). -/
def execStopCaptureDone (bank : BankId) (reads : List CapRead) (s : State) : Host.Outcome State Fault Refusal :=
  let d := s.dev
  if !d.clock.stopped || !d.clock.capturing.contains bank.val || !stopReads reads then .next s
  else
    let t : CapTrigger := { kind := 1, incident := 0, frame := d.clock.stopFrame, blamed := 0, ctx := 0 }
    let s1 := reads.foldl (fun (acc : State) (r : CapRead) => capWrite acc t bank.val r) s
    .next (s1.onDev (fun d =>
      { (d.setZf Reg.ZN_STOP_STAT 9 2 (d.zf Reg.ZN_STOP_STAT 9 2 + 1)) with
        clock.capturing := d.clock.capturing.filter (fun b => decide (b ≠ bank.val)) }))

/-- A context command given during a stop, applied at its end (R175). -/
def Dev.stopCommand (d : Dev) (k : Nat × Nat × Word) : Dev :=
  match k.1 with
  | 0 => d.createNow k.2.1 k.2.2
  | 1 => d.setLevelNow k.2.1 k.2.2
  | _ => d.teardownNow k.2.1

/-- A retraction or failure that waited for the end of a stop (R225). DEDUCED (log entry 31). -/
def Dev.stopDefer (d : Dev) : HzDefer → Dev
  | .retract c e reason => d.retract c e reason
  | .fail c reason => d.failCtx c reason

/-- The frames of a stop count toward no resolution limit: a step under resolution is older by none of them. -/
def Suspect.shift (n : Nat) (q : Suspect) : Suspect := { q with since := q.since + n }

/-- The steps under resolution of every context after a stop of `n` frames. -/
def Dev.shiftSuspects (d : Dev) (n : Nat) : Dev :=
  { d with ctxs := Tbl.mapAll Ctx.init (fun _ x =>
      { x with hz.epochs := x.hz.epochs.map (fun e => { e with suspects := e.suspects.map (Suspect.shift n) }) }) d.ctxs }

/-- The end of a stop (R58, R61, R175, R225): the frozen state restarts from the cut, and what waited for this is applied in
order. -/
def Dev.resumeStop (d : Dev) : Dev :=
  let f := d.clock.frame
  let cmds := d.clock.stopCmds
  let health := d.clock.stopHealth
  let defers := d.hz.stopQueue
  let d1 := { d with clock.stopped := false, clock.stopCmds := [], clock.stopHealth := [], hz.stopQueue := [] }
  let d2 := ((d1.setZ Reg.ZN_LAUNCH_FRAME_LO (w32 f)).setZ Reg.ZN_LAUNCH_FRAME_HI (w32 (f / 2 ^ 32 % 2 ^ 21))).shiftSuspects
    (f - d.clock.stopFrame)
  let d3 := cmds.foldl Dev.stopCommand d2
  let d4 := health.foldl (fun (acc : Dev) (e : Nat × HEvent) => acc.hEvent e.1 e.2) d3
  defers.foldl Dev.stopDefer d4

/-- The 32 bytes of a share log entry (R202). -/
def LogEntry.bytes (e : LogEntry) : List Byte :=
  leBytes 2 (e.share.ctx % 1024 + 1024 * bit e.share.replay + 2048 * bit e.share.invalid) ++ leBytes 2 (e.pos % 512) ++
    [BitVec.ofNat 8 e.bank, 0, 0, 0] ++ leBytes 4 e.share.step.toNat ++ leBytes 4 e.share.handle.toNat ++
    leBytes 4 e.share.blocks ++ leBytes 4 e.share.epoch.toNat ++ leBytes 8 e.share.sum.toNat

/-- The shares captured at a SIGCAP are appended to the share log, a ring in host memory (R202). DESIGN CHOICE (log entry 163). -/
def Dev.logShares (d : Dev) (c : Nat) (m : HostMem) : HostMem :=
  match d.cfg.regions[2]? with
  | some r =>
    writeRing m r.base (r.size / 32 * 32) (32 * d.hz.logAt) ((d.sharesToLog c).flatMap LogEntry.bytes)
  | none => m

/-- SIGCAP (R52, R88): the Wisps of the context's cores capture their shares. DEDUCED (log entry 28). -/
def execSigcap (s : State) : Host.Outcome State Fault Refusal :=
  match s.dev.launched 3 with
  | none => .next s
  | some e =>
    let d := s.dev.taken 3
    .next { s with dev := d.sigcapNow e.ctx, mem := d.logShares e.ctx s.mem }

/-! ## Missed ticks (R47 to R50) -/

/-- An estimate of a Wisp from its activity counts, saturating at 255 (R309). -/
def estimate (static : Nat) (weights acts : List Nat) : Nat :=
  min 255 (static + sumNat ((weights.zip acts).map (fun x => x.1 * x.2)) / 65536)

/-- The estimates of a Wisp from the activity counts of a frame (R309). -/
def Dev.measure (d : Dev) (acts : List Nat) (w : Wisp) : Wisp :=
  { w with estL := estimate d.cfg.thermal.staticL d.cfg.thermal.wL acts
           estM := estimate d.cfg.thermal.staticM d.cfg.thermal.wM acts }

/-- The set of per-frame samples of a frame whose tick the Wisp received (R360). DEDUCED (log entry 32). -/
def Wisp.frameSet (w : Wisp) (droop : BitVec 8) (level frame : Nat) : Wisp :=
  ((((w.sampleNat 0 droop.toNat frame).sampleNat 1 (w.estL + w.estM) frame).sampleNat 5 w.drops frame).sampleNat 6 w.skips
    frame).sampleNat 7 level frame

/-- A clock that restarts brings the set of the last frame whose tick the Wisp received, into a record that neither a stop nor a fence
freezes and no supply loss has emptied (R360, R57, R241); the estimates delivered last stand (R310). -/
def Dev.lastSet (d : Dev) (b p : Nat) (x : LastFrame) : Dev :=
  let w := d.wisp b p
  match w.lastRx with
  | some f =>
    if d.clock.stopped || d.fenced b p || w.rejoined || w.supplyLost then d
    else d.modWisp b p (fun w =>
      { (d.measure x.acts w).frameSet x.droop (if d.aon.thermTrip then 15 else w.level) f with
        estL := w.estL, estM := w.estM, droop := x.droop.toNat, drops := 0, skips := 0 })
  | none => d

/-- A Wisp rejoins the frame: with `mid` its clock restarted after the tick had passed. The GAP record is its first event; the
supply flag goes with it, though no tick was missed, and asks for an image check (R48, R49, R17, R275). -/
def Dev.rejoin (d : Dev) (b p : Nat) (mid : Bool) : Dev :=
  let w := d.wisp b p
  let f := d.clock.frame
  let last := w.lastRx.getD (f - 1)
  let count := f - last - 1
  let first := last + 1
  let d1 := d.modWisp b p (fun w => { w with lastRx := some f, missed := false, rejoined := mid, supplyLost := false })
  if count = 0 && !mid && !w.supplyLost then d1
  else
    let p1 := w32 (first / 2 ^ 32 % 2 ^ 21 + 2 ^ 30 * bit mid + 2 ^ 31 * bit w.supplyLost)
    let d2 := if w.supplyLost then d1.askCheck (coreUnit b p) else d1
    d2.present b p none (mkEvent 0x01 0 (w32 first) p1 (w32 count) (w32 (count / 2 ^ 32 % 2 ^ 21))) .nothing

/-- CORE_CLOCK_RESTART (R48, R360): a Wisp that missed ticks synchronises this frame's tick after all, or its clock restarts mid-frame. -/
def execCoreClockRestart (bank : BankId) (pos : Pos) (restart : ClockRestart) (s : State) : Host.Outcome State Fault Refusal :=
  let w := s.dev.wisp bank.val pos.val
  if !w.missed || w.parked || s.dev.bankDown bank.val then .next s
  else .next (s.onDev (fun d => (d.lastSet bank.val pos.val restart.last).rejoin bank.val pos.val restart.midFrame))

end Sys2Proof.Machine
end

