-- ==== Sys2Proof/Machine/Debug.lean ====
section
/-! DEFINITION. Debug and profiling (R383 to R407): counter streams and their samples, the sync-event trace, breakpoints, tensor
dumps, the wait-for graph, and the counter mailbox of a Wisp. -/

namespace Sys2Proof.Machine

/-! ## The debug region -/

/-- The DEBUG region (R443). -/
def Dev.dbgRegion (d : Dev) : Region := d.cfg.regions.getD 6 { base := 0, size := 0 }

/-- Two spans of 4 KiB units share a unit. -/
def spansMeet (a b : Nat × Nat) : Bool := decide (a.1 < b.1 + b.2) && decide (b.1 < a.1 + a.2) && decide (0 < a.2) && decide (0 < b.2)

/-- The ring span of a stream. -/
def Dev.streamSpan (d : Dev) (s : Nat) : Nat × Nat :=
  (d.zf (Reg.ZN_CTR_S_AREA + 0x20 * s) 23 0, 192 * d.zf (Reg.ZN_CTR_S_SIZE + 0x20 * s) 15 0)

/-- The ring span of the trace. -/
def Dev.traceSpan (d : Dev) : Nat × Nat := (d.zf Reg.ZN_TRC_AREA 23 0, 192 * d.zf Reg.ZN_TRC_SIZE 15 0)

/-- A stream is enabled. -/
def Dev.streamOn (d : Dev) (s : Nat) : Bool := bitOf (d.zreg (Reg.ZN_CTR_S_CFG + 0x20 * s)) 0

/-- A dump entry. -/
def Dev.dump (d : Dev) (e : Nat) : Dump := Tbl.get Dump.init d.dbg.dumps e

/-- Change a dump entry. -/
def Dev.modDump (d : Dev) (e : Nat) (f : Dump → Dump) : Dev :=
  { d with dbg.dumps := Tbl.modify Dump.init d.dbg.dumps e f }

/-- A dump entry is ARMED, MATCHED or copying. -/
def Dump.busy (x : Dump) : Bool := decide (1 ≤ x.state) && decide (x.state ≤ 3)

/-- The spans in use in the debug region, but for those of stream `s`, dump entry `e` and, with `t`, the trace. -/
def Dev.spansInUse (d : Dev) (s e : Nat) (t : Bool) : List (Nat × Nat) :=
  ((List.range 8).filter (fun i => decide (i ≠ s) && d.streamOn i)).map d.streamSpan ++
    ((List.range 4).filter (fun i => decide (i ≠ e) && (d.dump i).busy)).map (fun i => ((d.dump i).area, (d.dump i).limit)) ++
    (if bitOf (d.zreg Reg.ZN_TRC_CTL) 0 && !t then [d.traceSpan] else []) ++ [(d.cfg.baseOff, d.cfg.baseSize)]

/-- A span lies in the debug region and meets no other. -/
def Dev.spanOk (d : Dev) (x : Nat × Nat) (others : List (Nat × Nat)) : Bool :=
  decide (x.2 = 0) || (decide ((x.1 + x.2) * 4096 ≤ d.dbgRegion.size) && !others.any (spansMeet x))

/-- An enabling write of a stream is taken: its rings are in place (R388); the first sample after it refreshes the base (R391). -/
def Dev.enableStream (d : Dev) (s : Nat) : Option Dev :=
  if d.spanOk (d.streamSpan s) (d.spansInUse s 4 false) then
    some { d with
      dbg.base := d.dbg.base.filter (fun (e : Nat × Option (Tbl (BitVec 48))) => decide (e.1 / 50688 ≠ s))
      dbg.snaps := d.dbg.snaps.map (fun (e : Nat × List CoreSnap) =>
        if e.1 / 192 = s then (e.1, e.2.map (fun x => { x with keep := false })) else e) }
  else none

/-- An enabling write of the trace is taken. -/
def Dev.enableTrace (d : Dev) : Bool := d.spanOk d.traceSpan (d.spansInUse 8 4 true)

/-! ## Counter streams (R388 to R392) -/

/-- The cores of a Bank that a stream samples: every mapped one, or those its context owns (R388). -/
def Dev.sampleCores (d : Dev) (s b : Nat) : List (Nat × Nat) :=
  (List.range 256).filterMap (fun n => match (d.bank b).cc.posOf n with
    | some p =>
      if s = 0 || decide (((d.bank b).cc.owner n).1 = d.zf (Reg.ZN_CTR_S_CTX + 0x20 * s) 9 0) then some (n, p) else none
    | none => none)

/-- The Banks that owe a sample of a stream: not isolated, and for a filtered stream with a core of its context (R390). -/
def Dev.sampleBanks (d : Dev) (s : Nat) : List Nat :=
  (List.range 192).filter (fun b => !d.bankDown b &&
    (decide (s = 0) || (d.bank b).owns (d.zf (Reg.ZN_CTR_S_CTX + 0x20 * s) 9 0)))

/-- What the sampler of a Bank copies for a stream at a tick (R52, R390, R391). -/
def Dev.snapCores (d : Dev) (s b : Nat) : List CoreSnap :=
  (d.sampleCores s b).map (fun c =>
    let w := d.wisp b c.2
    { logical := c.1, pos := c.2, owner := ((d.bank b).cc.owner c.1).1, gap := w.missed, counters := w.counters,
      old := if s = 0 then none else Tbl.get none d.dbg.base (50688 * s + coreUnit b c.2), keep := true })

/-- A sample not written: one SKIPPED of the Bank's next header and of the stream (R392). DESIGN CHOICE (log entry 164). -/
def Dev.skipSample (d : Dev) (s b : Nat) : Dev :=
  (d.bumpZ (Reg.ZN_CTR_S_SKIPPED + 0x20 * s)).modBank b (fun k =>
    { k with dbg.skippedRun := Tbl.set 0 k.dbg.skippedRun s (Tbl.get 0 k.dbg.skippedRun s + 1) })

/-- A sample tick of a stream: every Bank copies its cores' counters and owes a sample of this frame; one still owed from before is skipped (R389, R392). -/
def Dev.markDue (d : Dev) (s : Nat) (launched : Bool) : Dev :=
  if !d.streamOn s || d.zf (Reg.ZN_CTR_S_SIZE + 0x20 * s) 15 0 = 0 then d
  else
    let now := 2 * (d.clock.frame + 1)
    let fresh := !d.dbg.due.any (fun (e : Nat × Nat) => decide (e.1 / 192 = s) && decide (e.2 / 2 = d.clock.frame + 1))
    let d1 := if fresh then d.bumpZ (Reg.ZN_CTR_S_SAMPLES + 0x20 * s) else d
    (d1.sampleBanks s).foldl (fun (acc : Dev) b =>
      let k := 192 * s + b
      let old := Tbl.get 0 acc.dbg.due k
      let acc1 := if old ≠ 0 && old / 2 ≠ d.clock.frame + 1 then acc.skipSample s b else acc
      { acc1 with
        dbg.due := Tbl.set 0 acc1.dbg.due k (now + bit launched)
        dbg.snaps := Tbl.set [] acc1.dbg.snaps k (acc1.snapCores s b) }) d1

/-- The periodic sample ticks (R389). -/
def Dev.periodicSamples (d : Dev) : Dev :=
  (List.range 8).foldl (fun (acc : Dev) s =>
    if acc.clock.frame % 2 ^ acc.zf (Reg.ZN_CTR_S_CFG + 0x20 * s) 5 1 = 0 then acc.markDue s false else acc) d

/-- CTRSNAP (R52, R389): every enabled stream samples at this tick, LAUNCHED. -/
def execCtrsnap (s : State) : Host.Outcome State Fault Refusal :=
  match s.dev.launched 4 with
  | none => .next s
  | some _ =>
    .next (s.onDev (fun d =>
      let d1 := d.taken 4
      if d1.clock.stopped then d1
      else (List.range 8).foldl (fun (acc : Dev) k => acc.markDue k true) d1))

/-- The record of a core in a sample (R390, R391), and whether it joins. -/
def sampleRecord (s : Nat) (x : CoreSnap) : List Byte :=
  let join := decide (s ≠ 0) && x.old.isNone
  let count (i : Nat) : BitVec 48 :=
    let v := Tbl.get 0 x.counters i
    if s = 0 then v
    else match x.old with
      | some t => v - Tbl.get 0 t i
      | none => 0
  [BitVec.ofNat 8 x.logical, BitVec.ofNat 8 (bit join + 2 * bit x.gap)] ++ leBytes 2 x.pos ++ leBytes 2 x.owner ++
    List.replicate 10 0 ++ (List.range 32).flatMap (fun i => leBytes 6 (count i).toNat)

/-- The bytes of a Bank's sample of the tick of a frame (R390). -/
def Dev.sampleBytes (d : Dev) (s b frame : Nat) (launched : Bool) (cores : List CoreSnap) : List Byte :=
  leBytes 4 0x53525443 ++
    [BitVec.ofNat 8 s, BitVec.ofNat 8 (d.zf (Reg.ZN_CTR_S_CFG + 0x20 * s) 5 1), BitVec.ofNat 8 b, BitVec.ofNat 8 (bit launched)] ++
    leBytes 8 (mkStamp frame 0).toNat ++ leBytes 2 cores.length ++
    leBytes 2 (if s = 0 then 0 else d.zf (Reg.ZN_CTR_S_CTX + 0x20 * s) 9 0) ++ leBytes 4 (Tbl.get 0 (d.bank b).dbg.skippedRun s) ++
    List.replicate 40 0 ++ cores.flatMap (sampleRecord s)

/-- The used units of a ring of `size` units. -/
def ringUse (size rd wr : Nat) : Nat := if size = 0 then 0 else (wr + size - rd % size) % size

/-- COUNTER_SAMPLE (R389, R392): the sampler of a Bank writes the sample that it owes, whole or not at all. DEDUCED (log entry 110). -/
def execCounterSample (stream : Fin 8) (bank : BankId) (s : State) : Host.Outcome State Fault Refusal :=
  let d := s.dev
  let k := stream.val
  let b := bank.val
  let due := Tbl.get 0 d.dbg.due (192 * k + b)
  if due = 0 || d.bankDown b then .next s
  else
    let d0 := { d with dbg.due := Tbl.erase d.dbg.due (192 * k + b), dbg.snaps := Tbl.erase d.dbg.snaps (192 * k + b) }
    let cores := Tbl.get [] d.dbg.snaps (192 * k + b)
    let bytes := d.sampleBytes k b (due / 2 - 1) (decide (due % 2 = 1)) cores
    let size := d.zf (Reg.ZN_CTR_S_SIZE + 0x20 * k) 15 0 * 256
    let dbg := (d.bank b).dbg
    let wr := Tbl.get 0 dbg.ctrWr k
    let n := bytes.length / 16
    if size ≤ ringUse size (Tbl.get 0 dbg.ctrRd k) wr + n then .next { s with dev := d0.skipSample k b }
    else
      let base := d.dbgRegion.base + ((d.streamSpan k).1 + b * (size / 256)) * 4096
      let bases := if k = 0 then d0.dbg.base
        else (cores.filter (fun c => c.keep)).foldl (fun (t : Tbl (Option (Tbl (BitVec 48)))) (c : CoreSnap) =>
          Tbl.put t (50688 * k + coreUnit b c.pos) (some c.counters)) d0.dbg.base
      let d1 := ({ d0 with dbg.base := bases }).modBank b (fun q =>
        { q with dbg.ctrWr := Tbl.set 0 q.dbg.ctrWr k ((wr + n) % size), dbg.skippedRun := Tbl.erase q.dbg.skippedRun k })
      .next { s with mem := writeRing s.mem base (size * 16) (wr * 16) bytes, dev := d1 }

/-- READ of WS_CTR_CMD: the counter selected, into the path's mailbox (R407). -/
def Dev.counterRead (d : Dev) (p : Path) (b q : Nat) : Dev :=
  let w := d.wisp b q
  let v := (Tbl.get 0 w.counters (bitsOf (w.reg Reg.WS_CTR_SEL) 4 0)).toNat
  d.modPath p (fun c => { c with counter := Tbl.set Mailbox.init c.counter (coreUnit b q) (Mailbox.of (leWords 2 v)) })

/-- COUNTER_READ. -/
def execCounterRead (p : Path) (bank : BankId) (pos : Pos) (s : State) : Host.Outcome State Fault Refusal :=
  .next (s.onDev (fun d => d.cmdW p bank.val pos.val Reg.WS_CTR_CMD 1 (fun d => d.counterRead p bank.val pos.val)))

/-! ## The sync-event trace (R393, R394) -/

/-- DUR of a wait of `n` core clocks (R393). -/
def waitDur (n : Nat) : Nat :=
  if 2 ^ 36 ≤ n then 0x3FF
  else
    let e := if n < 32 then 0 else log2 n - 4
    e * 32 + n / 2 ^ e

/-- A trace event (R393). -/
def traceEvent (ts : DWord) (wait pos type ctx dur : Nat) : List Byte :=
  leBytes 8 ts.toNat ++ leBytes 4 wait ++ leBytes 4 (pos + 512 * type + 4096 * ctx + 2 ^ 22 * dur)

/-- The trace writes: it is enabled with a ring, and the alarm level is below Lock (R385, R404). -/
def Dev.tracing (d : Dev) : Bool :=
  bitOf (d.zreg Reg.ZN_TRC_CTL) 0 && decide (0 < d.zf Reg.ZN_TRC_SIZE 15 0) && !d.locked

/-- Free units of a Bank's trace ring beyond what is staged, up to the stager's room. -/
def Dev.traceRoom (d : Dev) (b : Nat) : Nat :=
  let g := (d.bank b).dbg
  let size := d.zf Reg.ZN_TRC_SIZE 15 0 * 256
  min (1024 - g.staged.length) (size - 1 - ringUse size g.trcRd g.trcWr - g.staged.length)

/-- Take a trace event into the stager; one without room is lost, and a LOSS event goes before the next that has it (R394). -/
def Dev.traceTake (d : Dev) (b : Nat) (ev : List Byte) (stamp : DWord) : Dev :=
  let g := (d.bank b).dbg
  let need := if g.traceLost = 0 then 1 else 2
  if d.traceRoom b < need then
    (d.bumpZ Reg.ZN_TRC_CNT_LOST).modBank b (fun k => { k with
      dbg.traceLost := k.dbg.traceLost + 1
      dbg.traceFirst := if k.dbg.traceLost = 0 then stamp.toNat else k.dbg.traceFirst })
  else
    let loss := if g.traceLost = 0 then []
      else [traceEvent (BitVec.ofNat 64 g.traceFirst) g.traceLost 0x1FF 2 0 0]
    d.modBank b (fun k => { k with dbg.staged := k.dbg.staged ++ loss ++ [ev], dbg.traceLost := 0 })

/-- SYNC_WAIT_END (R393): a wait of a core ends and, where it is traced, its event is accepted. -/
def execSyncWaitEnd (bank : BankId) (pos : Pos) (clocks target : Word) (zc : Zc) (s : State) : Host.Outcome State Fault Refusal :=
  let d := s.dev
  let b := bank.val
  let owner := d.ownerAt b pos.val
  let ctl := d.zreg Reg.ZN_TRC_CTL
  let mine := !bitOf ctl 1 || decide (owner = bitsOf ctl 11 2)
  if !d.tracing || !d.checking b pos.val || !mine || decide (clocks.toNat < d.zf Reg.ZN_TRC_MIN 23 0) then .next s
  else
    let ts := mkStamp d.clock.frame zc.val
    .next { s with dev := d.traceTake b (traceEvent ts target.toNat pos.val 1 owner (waitDur clocks.toNat)) ts }

/-- Room has returned to the stager: a LOSS event goes before any other (R394). -/
def Dev.traceLoss (d : Dev) (b : Nat) : Dev :=
  let g := (d.bank b).dbg
  if g.traceLost = 0 || d.traceRoom b = 0 || !d.tracing || d.bankDown b then d
  else d.modBank b (fun k => { k with
    dbg.staged := k.dbg.staged ++ [traceEvent (BitVec.ofNat 64 g.traceFirst) g.traceLost 0x1FF 2 0 0], dbg.traceLost := 0 })

/-- The stager of a Bank written to its trace ring, a LOSS event that now has room with it (R393, R394). -/
def drainTrace (s0 : State) (b : Nat) : State :=
  let s := s0.onDev (fun d => d.traceLoss b)
  let d := s.dev
  let g := (d.bank b).dbg
  let size := d.zf Reg.ZN_TRC_SIZE 15 0 * 256
  if g.staged.isEmpty || size = 0 || d.bankDown b then s
  else
    let base := d.dbgRegion.base + (d.traceSpan.1 + b * (size / 256)) * 4096
    let n := g.staged.length
    { s with
      mem := writeRing s.mem base (size * 16) (g.trcWr * 16) g.staged.flatten
      dev := (d.addZ Reg.ZN_TRC_CNT_EVENTS n).modBank b (fun k =>
        { k with dbg.staged := [], dbg.trcWr := (k.dbg.trcWr + n) % size }) }

/-! ## Breakpoints (R395 to R397) -/

/-- An enabled entry matches a command (R395). -/
def Dev.brkMatch (d : Dev) (n : Nat) (t : CmdTag) : Bool :=
  let o := 0x10 * n
  let cfg := d.zreg (Reg.ZN_BRK_CFG + o)
  bitOf cfg 0 && decide (d.zf (Reg.ZN_BRK_MATCH0 + o) 9 0 = t.ctx.val) &&
    (bitOf cfg 1 || decide (d.zf (Reg.ZN_BRK_MATCH0 + o) 31 16 = t.layer.toNat)) &&
    (bitOf cfg 2 || decide (d.zf (Reg.ZN_BRK_MATCH1 + o) 15 0 = t.oper.toNat)) &&
    (bitOf cfg 3 || decide (d.zreg (Reg.ZN_BRK_STEP + o) = t.step))

/-- The first SKIP matches pass; the next is a hit, which clears EN with ONESHOT (R395). Answers the part and whether it hit. -/
def Dev.brkOffer (d : Dev) (b n : Nat) (t : CmdTag) : Dev × Bool :=
  let passed := Tbl.get 0 d.dbg.passes n
  if !d.brkMatch n t then (d, false)
  else if passed < d.zf (Reg.ZN_BRK_MATCH1 + 0x10 * n) 31 16 then
    ({ d with dbg.passes := Tbl.set 0 d.dbg.passes n (passed + 1) }, false)
  else
    let cfg := d.zreg (Reg.ZN_BRK_CFG + 0x10 * n)
    let d1 := if bitOf cfg 5 then d.setZf (Reg.ZN_BRK_CFG + 0x10 * n) 0 0 0 else d
    ({ d1 with dbg.hits := d1.dbg.hits ++
        [{ entry := n, since := d.clock.frame, ctx := t.ctx.val, isGlobal := bitOf cfg 4, bank := b, releasing := false }] }, true)

/-- A hit or a dump stops the control core of a Bank: a hit of its own, a hit of an earlier frame or a dump that halts a context it
commands (R396, R399). -/
def Dev.dbgStops (d : Dev) (b : Nat) : Bool :=
  d.dbg.hits.any (fun h => decide (h.bank = b)) ||
    d.dbg.hits.any (fun h => decide (h.since < d.clock.frame) && (h.isGlobal || (d.bank b).owns h.ctx)) ||
    d.dbg.dumps.any (fun e => e.2.halting && (d.bank b).owns e.2.ctx)

/-- The control core of a Bank issues no command (R496). -/
def Dev.issueHeld (d : Dev) (b : Nat) : Bool := d.globalHold || d.dbgStops b

/-- A command may not issue: its control core is held, its context is, a remap request for its logical core is queued, or one withheld
`before` it goes first (R251, R496). A replay is not a command of its context's own step. DEDUCED (log entry 113). -/
def Dev.cmdHeld (d : Dev) (b : Nat) (t : CmdTag) (before : List CmdTag) : Bool :=
  d.issueHeld b ||
    (!t.replay && (List.range 11).any (fun n => decide (n ≠ 8) && d.holdOn b t.ctx.val n)) ||
    (d.bank b).cc.remaps.any (fun r => decide (r.logical = t.logical.val)) ||
    before.any (fun x => decide (x.logical = t.logical) || (decide (x.ctx = t.ctx) && x.replay == t.replay))

/-- A command is refused: its core is fenced, or its spare-remap entry waits to be reloaded (R241, R465). -/
def Dev.cmdRefused (d : Dev) (b : Nat) (t : CmdTag) : Bool :=
  (d.bank b).cc.remapBad.contains t.logical.val || (match (d.bank b).cc.posOf t.logical.val with
    | some p => d.fenced b p
    | none => false)

/-- A command that stores the tensor of an armed dump entry: its extent is noted (R398). DEDUCED (log entry 111). -/
def Dump.note (x : Dump) (b : Nat) (t : CmdTag) : Dump :=
  let ext : Extent := { bank := b, base := t.base.toNat, length := t.length.toNat, fmt := t.fmt.toNat, carry := t.carry }
  let hit := (decide (x.state = 1) || decide (x.state = 2)) && !x.halting && t.isStore && decide (x.ctx = t.ctx.val) &&
    decide (x.layer = t.layer.toNat) && decide (x.oper = t.oper.toNat) && decide (x.step = t.step) && decide (x.handle = t.handle)
  if !hit then x
  else if x.extents.any (fun e => decide (e.base = ext.base) && decide (e.length = ext.length) && decide (e.fmt = ext.fmt) &&
      decide (e.carry = ext.carry)) then { x with state := 2 }
  else if 64 ≤ x.extents.length then { x with state := 2, truncated := true }
  else { x with state := 2, extents := x.extents ++ [ext] }

/-- A command issues: dump entries see it (R398). -/
def Dev.issue (d : Dev) (b : Nat) (t : CmdTag) : Dev :=
  { d with dbg.dumps := Tbl.mapAll Dump.init (fun _ x => x.note b t) d.dbg.dumps }

/-- Withhold a command (R396). -/
def Dev.withhold (d : Dev) (b : Nat) (t : CmdTag) (hit : Bool) : Dev :=
  d.modBank b (fun k => { k with dbg.withheld := k.dbg.withheld ++ [{ tag := t, hit := hit }] })

/-- A command that nothing holds meets the breakpoints: a hit withholds it, else it issues (R395, R396). -/
def Dev.meetBrks (d : Dev) (b : Nat) (t : CmdTag) : Dev :=
  let r := (List.range 8).foldl (fun (acc : Dev × Bool) n =>
    let x := acc.1.brkOffer b n t
    (x.1, acc.2 || x.2)) (d, false)
  if r.2 then r.1.withhold b t true else r.1.issue b t

/-- COMMAND_OFFER (R395): the control core offers a command; the Bank withholds it where it may not issue or a breakpoint hits. -/
def execCommandOffer (bank : BankId) (tag : CmdTag) (s : State) : Host.Outcome State Fault Refusal :=
  let d := s.dev
  let b := bank.val
  if d.bankDown b || d.cmdRefused b tag then .next s
  else if d.cmdHeld b tag ((d.bank b).dbg.withheld.map (fun x => x.tag)) then .next { s with dev := d.withhold b tag false }
  else .next { s with dev := d.meetBrks b tag }

/-- A hit holds a context. -/
def BrkHit.holds (h : BrkHit) (c : Nat) : Bool := h.isGlobal || decide (h.ctx = c)

/-- Some hit that Zenith has taken, or some dump, halts the context. -/
def Dev.halting (d : Dev) (c : Nat) : Bool :=
  d.dbg.hits.any (fun h => decide (h.since < d.clock.frame) && h.holds c) ||
    d.dbg.dumps.any (fun e => e.2.halting && decide (e.2.ctx = c))

/-- At a tick: the contexts that are halted by a hit or a dump start to drain, and those released run (R396, R397). -/
def Dev.drainContexts (d : Dev) : Dev :=
  { d with ctxs := Tbl.mapAll Ctx.init (fun c x =>
      if d.halting c && decide (x.core.state ≠ .free) then (if x.dbgState = 0 then { x with dbgState := 1 } else x)
      else { x with dbgState := 0 }) d.ctxs }

/-- Every core of a context is idle. -/
def Dev.allIdle (d : Dev) (c : Nat) : Bool :=
  (d.allCores c).all (fun x => match (d.bank x.1).cc.posOf x.2 with
    | some p => d.idle x.1 p
    | none => true)

/-- CONTEXT_HALTED (R396, R399): every core of a draining context is idle; a dump that halts it starts its copy. -/
def execContextHalted (ctx : CtxId) (s : State) : Host.Outcome State Fault Refusal :=
  let d := s.dev
  let c := ctx.val
  if (d.ctx c).dbgState ≠ 1 || !d.allIdle c then .next s
  else .next (s.onDev (fun d =>
    let d1 := d.modCtx c (fun x => { x with dbgState := 2 })
    { d1 with dbg.dumps := Tbl.mapAll Dump.init (fun _ (x : Dump) =>
        if x.halting && x.state = 2 && x.ctx = c then { x with state := 3, startFrame := d.clock.frame } else x) d1.dbg.dumps }))

/-- CONTINUE of ZN_BRK_CMD: every hit that holds the context is released at the next tick (R397). -/
def Dev.continueCtx (d : Dev) (c : Nat) : Dev :=
  { d with dbg.hits := d.dbg.hits.map (fun h => if h.holds c then { h with releasing := true } else h) }

/-- CONTINUE. -/
def execContinueHit (p : Path) (ctx : CtxId) (s : State) : Host.Outcome State Fault Refusal :=
  .next (s.onDev (fun d => d.cmdZ p Reg.ZN_BRK_CMD (w32 (1 + 65536 * ctx.val)) (fun d => d.continueCtx ctx.val)))

/-- CONTINUE_ALL of ZN_BRK_CMD (R397). -/
def Dev.continueEvery (d : Dev) : Dev := { d with dbg.hits := d.dbg.hits.map (fun h => { h with releasing := true }) }

/-- CONTINUE_ALL. -/
def execContinueAll (p : Path) (s : State) : Host.Outcome State Fault Refusal :=
  .next (s.onDev (fun d => d.cmdZ p Reg.ZN_BRK_CMD 2 Dev.continueEvery))

/-- What a Bank withheld, offered again in order: a command that was hit issues, a later one meets the breakpoints first (R61, R397,
R496). -/
def Dev.reissue (d : Dev) (b : Nat) : Dev :=
  let clear := d.modBank b (fun k => { k with dbg.withheld := [] })
  (d.bank b).dbg.withheld.foldl (fun (acc : Dev) x =>
    if acc.cmdHeld b x.tag ((acc.bank b).dbg.withheld.map (fun x => x.tag)) then acc.withhold b x.tag x.hit
    else if acc.cmdRefused b x.tag then acc
    else if x.hit then acc.issue b x.tag else acc.meetBrks b x.tag) clear

/-- Outside a stop, or at Lock: hits that are released, and dumps that are done, let go; an entry released counts its SKIP anew; a
Bank that may issue again issues what it withheld (R397, R399, R403). -/
def Dev.releaseHalts (d : Dev) : Dev :=
  let done := (d.dbg.hits.filter (fun h => h.releasing)).map (fun h => h.entry)
  let d1 := { d with
    dbg.hits := d.dbg.hits.filter (fun h => !h.releasing)
    dbg.passes := d.dbg.passes.filter (fun (e : Nat × Nat) => !done.contains e.1)
    dbg.dumps := Tbl.mapAll Dump.init (fun _ (x : Dump) =>
      if x.releasing then { x with halting := false, releasing := false } else x) d.dbg.dumps }
  ((d1.banks.filter (fun e => !e.2.dbg.withheld.isEmpty)).map Prod.fst).foldl Dev.reissue d1

/-- At Lock or higher debug is closed at the next tick: entries disarmed, halts released (R385), also in a stop. -/
def Dev.closeDebug (d : Dev) : Dev :=
  let d1 := (List.range 8).foldl (fun (acc : Dev) n => acc.setZf (Reg.ZN_BRK_CFG + 0x10 * n) 0 0 0) d
  let d2 := d1.continueEvery
  ({ d2 with dbg.dumps := Tbl.mapAll Dump.init (fun _ (x : Dump) =>
      if x.state = 1 || x.state = 2 then { x with state := 0, releasing := x.halting } else x) d2.dbg.dumps }).releaseHalts

/-! ## Tensor dumps (R398 to R401) -/

/-- The result of ARM or CANCEL in ZN_DMP_RES. -/
def Dev.dumpResult (d : Dev) (r : Nat) : Dev := d.setZf Reg.ZN_DMP_RES 2 0 r

/-- ARM of a dump entry (R398, R404, R405). -/
def Dev.dumpArm (d : Dev) (e : Nat) : Dev :=
  let o := 0x20 * e
  let span := (d.zf (Reg.ZN_DMP_AREA + o) 23 0, d.zf (Reg.ZN_DMP_LIMIT + o) 23 0)
  if d.locked then d.dumpResult 4
  else if (d.dump e).busy then d.dumpResult 3
  else if span.2 = 0 then d.dumpResult 2
  else if !d.spanOk span (d.spansInUse 8 e false) then (d.dumpResult 6).bumpZ Reg.ZN_DBG_CNT_REJECT
  else
    let x : Dump := { Dump.init with
      state := 1, ctx := d.zf (Reg.ZN_DMP_CTX + o) 9 0, layer := d.zf (Reg.ZN_DMP_TAG + o) 15 0, oper := d.zf (Reg.ZN_DMP_TAG + o) 31 16,
      handle := d.zreg (Reg.ZN_DMP_HANDLE + o), step := d.zreg (Reg.ZN_DMP_STEP + o), area := span.1, limit := span.2 }
    (d.modDump e (fun _ => x)).dumpResult 1

/-- DUMP_ARM: ARM of ZN_DMP_CMD. -/
def execDumpArm (p : Path) (entry : Fin 4) (s : State) : Host.Outcome State Fault Refusal :=
  .next (s.onDev (fun d => d.cmdZ p Reg.ZN_DMP_CMD (w32 (1 + 256 * entry.val)) (fun d => d.dumpArm entry.val)))

/-- CANCEL of a dump entry: without effect on one that is idle, done or missed; during a copy it ends it, and the context is
released (R405). -/
def Dev.dumpCancel (d : Dev) (e : Nat) : Dev :=
  if (d.dump e).busy then (d.modDump e (fun x => { x with state := 0, releasing := x.halting })).dumpResult 5 else d.dumpResult 2

/-- DUMP_CANCEL: CANCEL of ZN_DMP_CMD. -/
def execDumpCancel (p : Path) (entry : Fin 4) (s : State) : Host.Outcome State Fault Refusal :=
  .next (s.onDev (fun d => d.cmdZ p Reg.ZN_DMP_CMD (w32 (2 + 256 * entry.val)) (fun d => d.dumpCancel entry.val)))

/-- An extent's blocks are carried (R64, R65, R71). -/
def Extent.carried (e : Extent) : Bool := e.carry && decide (e.base % 4096 = 0) && decide (e.fmt < 0xC)

/-- The bytes that an extent's record takes (R400). -/
def Extent.bytes (e : Extent) : Nat := 64 + ceilDiv e.length 16 * 16 + (if e.carried then 8 * blockCount e.length else 0)

/-- The places of the extents that fit, each with its number and its offset in the area, and whether one was left out: the Bank
isolated, or no room under LIMIT (R400, R403). -/
def Dev.placeExtents (d : Dev) (limit : Nat) : Nat → Nat → List Extent → List (Nat × Nat × Extent) × Bool
  | _, _, [] => ([], false)
  | n, off, e :: rest =>
    if (d.bank e.bank).isolated || decide (limit * 4096 < off + e.bytes) then
      let (l, _) := d.placeExtents limit (n + 1) off rest
      (l, true)
    else
      let (l, t) := d.placeExtents limit (n + 1) (off + ceilDiv e.bytes 64 * 64) rest
      ((n, off, e) :: l, t)

/-- What verifying a carried extent finds: blocks failing, blocks without a word, and the addresses of failures that are charged
(R26, R399). -/
def Extent.verify (e : Extent) (mem : HostMem) (handle : Nat) : Nat × Nat × List Nat :=
  if !e.carried then (0, 0, [])
  else
    (List.range (blockCount e.length)).foldl (fun (acc : Nat × Nat × List Nat) i =>
      let a := e.base + 4096 * i
      let word := mem.slot a
      if word = 0 then (acc.1, acc.2.1 + 1, acc.2.2)
      else match examine word handle i (mem.read a 4096) with
        | .clean => acc
        | .wrongTag => (acc.1 + 1, acc.2.1, acc.2.2)
        | .failed _ _ => (acc.1 + 1, acc.2.1, acc.2.2 ++ [a])) (0, 0, [])

/-- The record of an extent (R400). -/
def Dump.record (x : Dump) (mem : HostMem) (entry n : Nat) (last : Bool) (e : Extent) : List Byte :=
  let data := mem.read e.base (ceilDiv e.length 16 * 16)
  let (fail, missing, _) := e.verify mem x.handle.toNat
  let words := if e.carried then (List.range (blockCount e.length)).flatMap (fun i => leBytes 8 (mem.slot (e.base + 4096 * i)).toNat)
    else []
  leBytes 4 0x504D5544 ++
    [BitVec.ofNat 8 entry, BitVec.ofNat 8 (bit e.carried + 2 * bit x.truncated + 4 * bit last), BitVec.ofNat 8 e.bank,
     BitVec.ofNat 8 (e.fmt % 16)] ++
    leBytes 2 x.ctx ++ leBytes 2 x.layer ++ leBytes 2 x.oper ++ leBytes 2 n ++ leBytes 4 x.handle.toNat ++ leBytes 4 x.step.toNat ++
    leBytes 8 e.base ++ leBytes 4 e.length ++ leBytes 2 (min 0xFFFF fail) ++ leBytes 2 (min 0xFFFF missing) ++
    leBytes 8 (mkStamp x.startFrame 0).toNat ++ leBytes 4 (crc32c data).toNat ++ List.replicate 12 0 ++ data ++ words

/-- DUMP_COPY_DONE (R399): every copy of an entry has ended; failing blocks are charged, and the context is released at the next
tick. -/
def execDumpCopyDone (entry : Fin 4) (s : State) : Host.Outcome State Fault Refusal :=
  let d := s.dev
  let x0 := d.dump entry.val
  if x0.state ≠ 3 then .next s
  else
    let (places, cut) := d.placeExtents x0.limit 0 0 x0.extents
    let x := { x0 with truncated := x0.truncated || cut }
    let base := d.dbgRegion.base + x.area * 4096
    let lastNo := (places.getLast?.map (fun (y : Nat × Nat × Extent) => y.1)).getD 0
    let mem := places.foldl (fun (m : HostMem) (y : Nat × Nat × Extent) =>
      m.write (base + y.2.1) (x.record s.mem entry.val y.1 (decide (y.1 = lastNo)) y.2.2)) s.mem
    let found := places.map (fun (y : Nat × Nat × Extent) => y.2.2.verify s.mem x.handle.toNat)
    let fails := sumNat (found.map (fun (f : Nat × Nat × List Nat) => f.1))
    let units := sumNat (places.map (fun (y : Nat × Nat × Extent) => ceilDiv y.2.2.bytes 16))
    let d1 := (found.flatMap (fun (f : Nat × Nat × List Nat) => f.2.2)).foldl (fun (acc : Dev) a =>
      match acc.holderOf a with
      | some u => acc.hEvent u (.charge rCW)
      | none => acc) d
    .next { s with mem := mem, dev := d1.modDump entry.val (fun _ =>
      { x with state := 4, releasing := true, cwFail := min 0xFFFF fails, units := units }) }

/-! ## The wait-for graph (R402) -/

/-- The wait targets of a context's cores, as they are now. -/
def Dev.waitsNow (d : Dev) (c : Nat) : List (Nat × Word) := (d.coreUnitsOf c).map (fun u => (u, (d.wisp (u / 264) (u % 264)).wait))

/-- GRAPH of ZN_WFG_CMD, of the wait targets of the context in ZN_CTX_SEL; NULL unless it is ACTIVE or FAILED (R402). DEDUCED (log entry 112). -/
def Dev.startGraph (d : Dev) : Dev :=
  let c := d.zf Reg.ZN_CTX_SEL 9 0
  let st := (d.ctx c).core.state
  if st = .active || st = .failed then { d with dbg.wfg := 1, dbg.wfgIncident := 0, dbg.wfgWaits := d.waitsNow c }
  else { d with dbg.wfg := 3 }

/-- GRAPH. -/
def execGraph (p : Path) (s : State) : Host.Outcome State Fault Refusal :=
  .next (s.onDev (fun d => d.cmdZ p Reg.ZN_WFG_CMD 1 Dev.startGraph))

/-- A node of a graph: a core unit, or the wait-target word of another object. -/
abbrev GraphNode := Nat × Bool

/-- The node that a wait target names (R335). -/
def Dev.waitNode (d : Dev) (w : Word) : Option GraphNode :=
  if bitsOf w 3 0 = 0 then none
  else if bitsOf w 3 0 = 1 then
    match (d.bank (bitsOf w 11 4)).cc.posOf (bitsOf w 27 12) with
    | some p => some (coreUnit (bitsOf w 11 4) p, true)
    | none => some (w.toNat, false)
  else some (w.toNat, false)

/-- Waits as waiter and awaited. -/
def Dev.waits (d : Dev) (l : List (Nat × Word)) : List (GraphNode × GraphNode) :=
  l.filterMap (fun e => (d.waitNode e.2).map (fun t => ((e.1, true), t)))

/-- The node reached from `v` by `n` waits. -/
def follow (edges : List (GraphNode × GraphNode)) : Nat → GraphNode → Option GraphNode
  | 0, v => some v
  | n + 1, v => match edges.find? (fun e => e.1 == v) with
    | some e => follow edges n e.2
    | none => none

/-- The bytes of the graph of an incident, or of GRAPH's 0, over wait targets as read (R402): CYCLE where a chain of waits never ends, COMPLETE since the area holds every node. -/
def Dev.graphOf (d : Dev) (l : List (Nat × Word)) (incident : Nat) : List Byte :=
  let edges := d.waits l
  let nodes := (edges.flatMap (fun e => [e.1, e.2])).eraseDups
  let idx (v : GraphNode) : Nat := (nodes.findIdx? (fun x => x == v)).getD 0
  let cycle := nodes.any (fun v => (follow edges nodes.length v).isSome)
  leBytes 4 0x48465747 ++ leBytes 4 incident ++ leBytes 4 nodes.length ++ leBytes 4 edges.length ++
    leBytes 4 (bit cycle + 2) ++ List.replicate 12 0 ++
    nodes.flatMap (fun v => leBytes 4 v.1 ++ leBytes 4 (bit v.2)) ++
    edges.flatMap (fun e => leBytes 2 (idx e.1) ++ leBytes 2 (idx e.2)) ++ List.replicate 12 0

/-- GRAPH_DONE (R402): the steward has written the graph that is building, at the start of the graph area. -/
def execGraphDone (s : State) : Host.Outcome State Fault Refusal :=
  let d := s.dev
  if d.dbg.wfg ≠ 1 then .next s
  else
    let off := d.capSize
    .next { s with mem := s.mem.write (d.capRegion.base + off) (d.graphOf d.dbg.wfgWaits d.dbg.wfgIncident)
                   dev := { d with dbg.wfg := 2, dbg.graphAt := off / 4096 } }

end Sys2Proof.Machine
end

