-- ==== Sys2Proof/Machine/Hangs.lean ====
section
/-! DEFINITION. Hangs, recovery and the escalation ladder (R331 to R359): blame, capture, the recovery of a context, suppression
and collateral, resets and isolation of an Anvil and a Bank, the watchdog, and the chip reset request. -/

namespace Sys2Proof.Machine

/-! ## Chip reset requests (R355, R403) -/

/-- The switch port is handed RETRACT with reason 3 for every open epoch of a context (R355). -/
def Dev.retractNow (d : Dev) (c : Nat) : Dev :=
  let es := (d.ctx c).hz.epochs
  match es, es.getLast? with
  | e :: _, some z =>
    let d1 := d.modCtx c (fun x => { x with
      hz := { x.hz with epochs := x.hz.epochs.map (fun e => { e with fate := .retracting, suspects := [] }), opened := false } })
    ({ d1 with hz.tokens := d1.hz.tokens.filter (fun t => decide (t.1 ≠ c)) }).tokenOut c (.retract e.num z.num 3)
  | _, _ => d

/-- The switch port is handed EXPOSE for a context below Gate with transfers in its current step (R355). -/
def Dev.exposeNow (d : Dev) (c : Nat) : Dev :=
  let x := d.ctx c
  if x.core.state = .active && x.core.level < 3 && x.hz.issued == some x.core.step then
    (d.expose c 0 x.core.step x.core.step 0x1FFFF).emitExpose c
  else d

/-- Debug ends at a chip reset request: halts, dumps, streams and the trace (R403). -/
def Dev.endDebug (d : Dev) : Dev :=
  let d1 := (List.range 8).foldl (fun (acc : Dev) k => acc.setZf (Reg.ZN_CTR_S_CFG + 0x20 * k) 0 0 0) d
  let d2 := d1.setZf Reg.ZN_TRC_CTL 0 0 0
  { d2 with
    dbg.hits := []
    dbg.due := []
    dbg.snaps := []
    dbg.dumps := Tbl.mapAll Dump.init (fun _ (x : Dump) =>
      { x with state := if x.busy then 0 else x.state, halting := false, releasing := false }) d2.dbg.dumps }

/-- CHIP_RST_REQ_N is asserted with a cause; a cause that arises while it is asserted changes nothing (R355). DEDUCED (log entry 119). -/
def Dev.chipReset (d : Dev) (cause : Nat) : Dev :=
  if d.hang.chipReset then d
  else
    let d1 := { d with
      hang.chipReset := true
      prot.patrolBusy := false
      prot.scrub := none
      aon.rstCause := cause
      aon.rstCount := min 0xFFF (d.aon.rstCount + 1)
      aon.rstFrame := BitVec.ofNat 16 d.clock.frame }
    let ids := d1.ctxs.map Prod.fst
    let d2 := ids.foldl Dev.retractNow d1
    let d3 := ids.foldl Dev.exposeNow d2
    ((d3.zEvent 3 0x69 0 (w32 cause) 0 0 0).eventNotice true 0xFF 3 0x69 0 (w32 cause) 0 0 0).endDebug

/-! ## Blame (R335, R336) -/

/-- The busy cores of a context, by unit index; the cores of an isolated Bank are left out (R332, R334). -/
def Dev.busyCores (d : Dev) (c : Nat) : List Nat :=
  (d.wisps.filter (fun e =>
    let b := e.1 / 264
    e.2.busy && !(d.bank b).isolated && (match (d.bank b).cc.logicalOf (e.1 % 264) with
      | some n => decide (((d.bank b).cc.owner n).1 = c)
      | none => false))).map Prod.fst

/-- The wait target of a core. -/
def Dev.waitOf (d : Dev) (u : Nat) : Word := (d.wisp (u / 264) (u % 264)).wait

/-- The core unit that a wait target of kind 1 names. -/
def Dev.waitCore (d : Dev) (w : Word) : Option Nat :=
  if bitsOf w 3 0 = 1 then ((d.bank (bitsOf w 11 4)).cc.posOf (bitsOf w 27 12)).map (fun p => coreUnit (bitsOf w 11 4) p)
  else none

/-- The owner of the core that a wait target of kind 1 names. -/
def Dev.waitOwner (d : Dev) (w : Word) : Nat := ((d.bank (bitsOf w 11 4)).cc.owner (bitsOf w 27 12)).1

/-- A blame: its kind (1 NOPROGRESS, 2 CONTROL, 3 EXTERNAL, 4 RESOURCE, 5 DEADLOCK), the blamed core, its wait target and the
faulting context. -/
structure Blame where
  kind : Nat
  unit : Nat
  wait : Word
  fault : Nat
  deriving DecidableEq, Repr

/-- The blame of a hung context by the first rule that finds a core (R336). DEDUCED (log entry 116). -/
def Dev.blame (d : Dev) (c : Nat) : Blame :=
  let cores := d.busyCores c
  let kind (u : Nat) : Nat := bitsOf (d.waitOf u) 3 0
  let mk (k u : Nat) : Blame := { kind := k, unit := u, wait := d.waitOf u, fault := c }
  match cores.find? (fun u => decide (kind u = 0)) with
  | some u => mk 1 u
  | none =>
    match cores.find? (fun u => decide (kind u = 5) && decide (bitsOf (d.waitOf u) 11 4 = u / 264)) with
    | some u => mk 2 u
    | none =>
      match cores.find? (fun u => (d.waitCore (d.waitOf u)).isSome && decide (d.waitOwner (d.waitOf u) ≠ c)) with
      | some u =>
        let t := (d.waitCore (d.waitOf u)).getD u
        { kind := 3, unit := t, wait := d.waitOf t, fault := d.waitOwner (d.waitOf u) }
      | none =>
        match cores.find? (fun u => decide (kind u = 3) || decide (kind u = 4)) with
        | some u => mk 4 u
        | none => mk 5 (cores.headD 0)

/-! ## Incidents (R337 to R339, R345) -/

/-- The contexts that own a core of a Bank. -/
def Dev.ownersIn (d : Dev) (b : Nat) : List Nat :=
  ((List.range 256).map (fun n => ((d.bank b).cc.owner n).1)).eraseDups

/-- The contexts one of whose cores waits inside a recovery set, or on a sync object of one of its clusters (R345). -/
def Dev.waitersOn (d : Dev) (cores : List (Nat × Nat)) (control : Option Nat) (banks : List Nat) : List Nat :=
  let inside (w : Word) : Bool :=
    (match d.waitCore w with
      | some u => cores.contains (u / 264, u % 264)
      | none => false) ||
    (decide (bitsOf w 3 0 = 2) && banks.contains (bitsOf w 11 4)) ||
    (decide (bitsOf w 3 0 = 5) && control == some (bitsOf w 11 4))
  ((d.wisps.filter (fun e => inside e.2.wait && ((d.bank (e.1 / 264)).cc.logicalOf (e.1 % 264)).isSome)).map
    (fun e => d.ownerAt (e.1 / 264) (e.1 % 264))).eraseDups

/-- A context takes part in an incident whose windows have not all ended, as a member or as a neighbour (R346, R357). -/
def Dev.inIncident (d : Dev) (c : Nat) : Bool :=
  d.hang.incidents.any (fun i => i.members.contains c || (!i.ended && i.neighbours.contains c))

/-- A suppression window covers the context (R333, R345). -/
def Dev.suppressed (d : Dev) (c : Nat) : Bool := d.hang.incidents.any (fun i => !i.ended && i.neighbours.contains c)

/-- The neighbours of a recovery set at the tick of detection (R345). -/
def Dev.neighboursOf (d : Dev) (members : List Nat) (cores : List (Nat × Nat)) (control : Option Nat) : List Nat :=
  let banks := (cores.map Prod.fst).eraseDups
  ((banks.flatMap d.ownersIn ++ d.waitersOn cores control banks).eraseDups).filter (fun c =>
    decide ((d.ctx c).core.state = .active) && !members.contains c && !d.inIncident c)

/-- A HANG record: counted, kept as the last incident, journaled and sent with ALERT, and its graph asked of the steward, from the wait
targets of the busy cores as they are now (R336, R337, R402). -/
def Dev.hangRecord (d : Dev) (c number : Nat) (bl : Blame) (collateral : Bool) : Dev :=
  let p0 := w32 (c + 1024 * bl.kind + 8192 * bit collateral)
  let p1 := w32 (bl.unit + 2 ^ 17 * bl.fault)
  let d1 := d.bumpZ (if collateral then Reg.ZN_HANG_CNT_COLLATERAL else Reg.ZN_HANG_CNT_HUNG)
  let d2 := (((d1.setZ Reg.ZN_HANG_LAST p0).setZ Reg.ZN_HANG_LAST_UNIT p1).setZ Reg.ZN_HANG_LAST_WAIT bl.wait).setZ
    Reg.ZN_HANG_LAST_INC (w32 number)
  let d3 := (d2.zEvent 3 0x60 c p0 p1 bl.wait (w32 number)).recNotice 0x02 3 0x60 c p0 p1 bl.wait (w32 number)
  let d4 := d3.modCtx c (fun x => { x with hang.incident := some number, hang.recovered := false })
  { d4 with dbg.wfg := 1, dbg.wfgIncident := number, dbg.wfgWaits := (d.busyCores c).map (fun u => (u, d.waitOf u)) }

/-- Change an incident. -/
def Dev.modIncident (d : Dev) (number ctx : Nat) (f : Incident → Incident) : Dev :=
  { d with hang.incidents := d.hang.incidents.map (fun i => if i.number = number && i.ctx = ctx then f i else i) }

/-- Recovery starts, or waits for RECOVER (R338 step 5), the capture having ended in frame `at_`; the request is made at the next tick. -/
def Dev.afterCapture (d : Dev) (number ctx at_ : Nat) : Dev :=
  let d1 := d.modIncident number ctx (fun i =>
    if i.asked || bitOf (d.zreg Reg.ZN_HANG_CTL) 0 then
      { i with phase := .queued, queuedAt := at_, ticket := (d.hang.tickets + 1) % 65536, banksLeft := [] }
    else { i with phase := .awaitingCommand, banksLeft := [] })
  if d1.hang.incidents.any (fun i => i.number = number && i.ctx = ctx && i.phase == .queued) then
    { d1 with hang.tickets := d1.hang.tickets + 1 }
  else d1

/-- Open an incident, or a further part of one, for a context: its recovery set, its window and its capture (R338 to R340). DEDUCED (log entry 115). -/
def Dev.openIncident (d : Dev) (c number : Nat) (members : List Nat) (bl : Blame) (collateral : Bool) : Dev :=
  let control := if bl.kind = 2 then some (bl.unit / 264) else none
  let cores := match control with
    | some b => (List.range 264).map (fun p => (b, p))
    | none => (d.busyCores c).map (fun u => (u / 264, u % 264))
  let banks := ((cores.map Prod.fst).eraseDups).filter (fun b => !d.bankDown b)
  let x : Incident :=
    { number := number, ctx := c, members := members, cores := cores, control := control, blamed := bl.unit,
      collateral := collateral, phase := .capturing, detectedAt := d.clock.frame, requestAt := none,
      queuedAt := d.clock.frame, ticket := 0, windowEnd := none,
      neighbours := d.neighboursOf members cores control, banksLeft := banks, asked := false, ended := false }
  let d1 := { d with hang.incidents := d.hang.incidents ++ [x] }
  if d.zf Reg.ZN_HANG_CTL 10 5 = 0 || banks.isEmpty then d1.afterCapture number c d.clock.frame else d1

/-- The contexts that a CONTROL blame takes along: every other ACTIVE one that owns a core of the blamed cluster (R339). -/
def Dev.alsoFailed (d : Dev) (c : Nat) (bl : Blame) : List Nat :=
  if bl.kind = 2 then
    (d.ownersIn (bl.unit / 264)).filter (fun x => decide (x ≠ c) && decide ((d.ctx x).core.state = .active))
  else []

/-- What a hang does (R338): the context fails, HANG is recorded, the window opens and capture starts; with a CONTROL blame the
other contexts of the cluster go the same way, marked collateral. -/
def Dev.hang_ (d : Dev) (c number : Nat) (collateral : Bool) : Dev :=
  let bl := d.blame c
  let also := d.alsoFailed c bl
  let d1 := ((d.failIn c 4).hangRecord c number bl collateral).setDue bl.unit 1
  let d2 := also.foldl (fun (acc : Dev) x => (acc.failIn x 4).hangRecord x number { bl with fault := c } true) d1
  d2.openIncident c number (c :: also) bl collateral

/-- HANG_DETECT (R333, R336 to R339): a context whose quiet count has reached HANG_FRAMES. -/
def execHangDetect (ctx : CtxId) (s : State) : Host.Outcome State Fault Refusal :=
  let d := s.dev
  let x := d.ctx ctx.val
  let limit := d.zf Reg.ZN_HANG_FRAMES 24 0
  if d.clock.stopped || limit = 0 || x.core.state ≠ .active || x.hang.quiet < limit then .next s
  else .next (s.onDev (fun d =>
    let number := (d.hang.count + 1) % 2 ^ 32
    ({ d with hang.count := number }).hang_ ctx.val number false))

/-! ## Capture and recovery (R340 to R344) -/

/-- The reads that a Bank makes for its part of a recovery set: its cores in position order, then the cluster (R340). -/
def Incident.readsOf (i : Incident) (b : Nat) : List (Option Nat) :=
  ((List.range 264).filter (fun p => i.cores.contains (b, p))).map some ++ [none]

/-- Reads that follow one another in time: a core in at most 96 zc, the cluster in at most 512 (R340). -/
def readsInTime : Nat → List CapRead → Bool
  | _, [] => true
  | from_, r :: l =>
    decide (from_ ≤ r.start.toNat) && decide (r.start.toNat ≤ r.stop.toNat) &&
      decide (r.stop.toNat ≤ r.start.toNat + (if r.pos.isSome then 96 else 512)) && readsInTime r.stop.toNat l

/-- What a Bank's reads are when its capture ends: all of them, or, `late` with CAP_LIMIT frames passed, those it came to, the last one
perhaps truncated (R340). -/
def Incident.readsEnd (i : Incident) (b : Nat) (late : Bool) (reads : List CapRead) : Bool :=
  let want := i.readsOf b
  let got := reads.map (fun r => r.pos.map (fun p => p.val))
  readsInTime 0 reads && (if late then got.isPrefixOf want else got == want) &&
    (if late then reads.dropLast else reads).all (fun r => !r.truncated)

/-- The capture of a part of an incident has ended in frame `at_`; the records of a Bank isolated meanwhile are not written, and counted
(R357). -/
def Dev.endCapture (d : Dev) (i : Incident) (at_ : Nat) : Dev :=
  let gone := i.banksLeft.filter (fun b => (d.bank b).isolated)
  (d.addZ Reg.ZN_HANG_CNT_CAPLOST (sumNat (gone.map (fun b => (i.readsOf b).length)))).afterCapture i.number i.ctx at_

/-- CAP_LIMIT frames of a capture have passed. -/
def Dev.captureLate (d : Dev) (i : Incident) (frame : Nat) : Bool := decide (i.detectedAt + d.zf Reg.ZN_HANG_CTL 10 5 ≤ frame)

/-- CAPTURE_END (R340, R357): the capture of the part of an incident that was detected first has ended, with one record per core and one for
the cluster from each of its Banks; with fewer reads it ends only once CAP_LIMIT frames have passed. DEDUCED (log entry 117). -/
def execCaptureEnd (incident : Word) (reads : List (BankId × CapRead)) (s : State) : Host.Outcome State Fault Refusal :=
  let d := s.dev
  match d.hang.incidents.find? (fun i => decide (i.number = incident.toNat) && decide (i.phase = .capturing)) with
  | none => .next s
  | some i =>
    let t : CapTrigger := { kind := if i.collateral then 3 else 2, incident := i.number, frame := i.detectedAt, blamed := i.blamed,
                            ctx := i.ctx }
    let banks := i.banksLeft.filter (fun b => !(d.bank b).isolated)
    let mine := reads.filter (fun r => banks.contains r.1.val)
    let ended := banks.all (fun b =>
      i.readsEnd b (d.captureLate i d.clock.frame) ((mine.filter (fun r => decide (r.1.val = b))).map Prod.snd))
    if !ended then .next s
    else
      .next ((mine.foldl (fun (acc : State) r => capWrite acc t r.1.val r.2) s).onDev (fun d => d.endCapture i d.clock.frame))

/-- At a tick: captures that CAP_LIMIT has ended in the frame before, whose reads no Bank has brought (R340). -/
def Dev.endCaptures (d : Dev) : Dev :=
  (d.hang.incidents.filter (fun i => decide (i.phase = .capturing) && d.captureLate i (d.clock.frame - 1))).foldl
    (fun (acc : Dev) i => acc.endCapture i (d.clock.frame - 1)) d

/-- At a tick: reset requests of captured incidents, in detection order, up to MAX_RECOV at once (R342, R344). -/
def Dev.requestResets (d : Dev) : Dev :=
  let ready := d.hang.incidents.filter (fun i => decide (i.phase = .queued) && decide (i.queuedAt < d.clock.frame))
  let running := (d.hang.incidents.filter (fun i => decide (i.phase = .requested))).length
  (ready.take (d.zf Reg.ZN_HANG_CTL 4 1 - running)).foldl (fun (acc : Dev) i =>
    let acc1 := acc.modIncident i.number i.ctx (fun i => { i with phase := .requested, requestAt := some d.clock.frame })
    ({ acc1 with hang.resetRequests := acc1.hang.resetRequests ++ [(i.ticket, i.cores, i.control)] }).zEvent 3 0x62 i.ctx
      (w32 i.number) (w32 i.ticket) 0 0) d

/-- The result of a command of ZN_RECOV_CMD. -/
def Dev.recovResult (d : Dev) (r : Nat) : Dev := d.setZf Reg.ZN_RECOV_STAT 2 0 r

/-- A command of ZN_RECOV_CMD: LOCKED from the host path at Lock (R358). -/
def Dev.recovCmd (d : Dev) (p : Path) (f : Dev → Dev) : Dev := if pathHost p && d.locked then d.recovResult 5 else f d

/-- RECOVER of ZN_RECOV_CMD (R338, R358), for the latest incident of the context. -/
def Dev.recover (d : Dev) : Dev :=
  let c := d.zf Reg.ZN_CTX_SEL 9 0
  let x := d.ctx c
  let res (d : Dev) (r : Nat) : Dev := d.recovResult r
  if x.core.state ≠ .failed || x.core.failReason ≠ 4 || x.hang.recovered then res d 2
  else match d.hang.incidents.reverse.find? (fun i => i.members.contains c) with
    | none => res d 2
    | some i =>
      match i.phase with
      | .awaitingCommand => res ((d.modIncident i.number i.ctx (fun i => { i with asked := true })).afterCapture i.number i.ctx d.clock.frame) 1
      | .capturing =>
        if i.asked || bitOf (d.zreg Reg.ZN_HANG_CTL) 0 then res d 3
        else res (d.modIncident i.number i.ctx (fun i => { i with asked := true })) 1
      | .queued => res d 3
      | .requested => res d 3
      | .recovered => res d 2
      | .timedOut => res d 2

/-- RECOVER. -/
def execRecover (p : Path) (s : State) : Host.Outcome State Fault Refusal :=
  .next (s.onDev (fun d => d.cmdZ p Reg.ZN_RECOV_CMD 1 (fun d => d.recovCmd p Dev.recover)))

/-- The reset request of a ticket is answered or given up. -/
def Dev.dropRequest (d : Dev) (ticket : Nat) : Dev :=
  { d with hang.resetRequests := d.hang.resetRequests.filter (fun r => decide (r.1 ≠ ticket)) }

/-- The part of an incident with a ticket that has been given out. -/
def Dev.byRecovery (d : Dev) (ticket : Nat) : Option Incident :=
  d.hang.incidents.find? (fun i => decide (i.ticket = ticket) && (match i.phase with
    | .queued => true
    | .requested => true
    | .timedOut => true
    | _ => false))

/-- The recovery of an incident is done (R342 step 3): the Wisps of the reset cores discard their pending candidates, and the
window runs SUPP_EXTRA frames more. -/
def Dev.recovered (d : Dev) (i : Incident) : Dev :=
  let f := d.clock.frame
  let d1 := i.cores.foldl (fun (acc : Dev) x => acc.discard x.1 x.2 (fun _ => true)) d
  let d2 := i.members.foldl (fun (acc : Dev) c =>
    acc.modCtx c (fun x => { x with hang.quiet := 0, hang.recovered := true })) d1
  let d3 := d2.modIncident i.number i.ctx (fun i =>
    { i with phase := .recovered, windowEnd := some (f + d.zf Reg.ZN_SUPP_EXTRA 24 0) })
  (((d3.dropRequest i.ticket).bumpZ Reg.ZN_HANG_CNT_RECOVERED).zEvent 3 0x63 i.ctx (w32 i.number)
    (w32 (f - i.requestAt.getD f)) 0 0)

/-- RC_DONE (R342, R348, R357): the host has recovered the cores of a ticket; LATE after RECOV_TIMEOUT or a chip reset request. -/
def execRcDone (ticket : BitVec 16) (s : State) : Host.Outcome State Fault Refusal :=
  match s.dev.byRecovery ticket.toNat with
  | none => .next s
  | some i =>
    if i.phase = .timedOut || s.dev.hang.chipReset then
      .next (s.onDev (fun d => (d.dropRequest i.ticket).recordLate 3 i.ctx 0x63 (w32 i.number)
        (w32 (d.clock.frame - i.requestAt.getD d.clock.frame)) 0))
    else if i.phase = .requested then .next { s with dev := s.dev.recovered i }
    else .next s

/-- The last frame of a recovery's limit: counted from the tick at which the request was due (R343, R344). DEDUCED (log entry 118). -/
def Dev.recovDeadline (d : Dev) (i : Incident) : Nat := i.queuedAt + 1 + d.zf Reg.ZN_RECOV_LIMIT 24 0

/-- A recovery has failed (R343): RECOV_TIMEOUT, and a chip reset is requested; the window runs SUPP_EXTRA frames past the limit
(R345). -/
def Dev.recovTimeout (d : Dev) (i : Incident) : Dev :=
  let d1 := d.modIncident i.number i.ctx (fun i =>
    { i with phase := .timedOut, windowEnd := some (d.recovDeadline i + d.zf Reg.ZN_SUPP_EXTRA 24 0) })
  (((d1.dropRequest i.ticket).bumpZ Reg.ZN_HANG_CNT_RECOV_TO).zEvent 3 0x64 i.ctx (w32 i.number) (w32 i.ticket) 0 0).chipReset 5

/-- RC_FAIL (R343, R357): the host could not recover the cores of a ticket; LATE after a chip reset request. -/
def execRcFail (ticket : BitVec 16) (s : State) : Host.Outcome State Fault Refusal :=
  match s.dev.byRecovery ticket.toNat with
  | none => .next s
  | some i =>
    if i.phase ≠ .requested then .next s
    else if s.dev.hang.chipReset then
      .next (s.onDev (fun d => (d.dropRequest i.ticket).recordLate 3 i.ctx 0x64 (w32 i.number) (w32 i.ticket) 0))
    else .next { s with dev := s.dev.recovTimeout i }

/-- RECOV_LIMIT_EXPIRE (R343, R344): a recovery, waiting or requested, has run into RECOV_LIMIT. -/
def execRecovLimitExpire (ticket : BitVec 16) (s : State) : Host.Outcome State Fault Refusal :=
  match s.dev.byRecovery ticket.toNat with
  | none => .next s
  | some i =>
    if i.phase ≠ .timedOut && decide (s.dev.recovDeadline i ≤ s.dev.clock.frame) then
      .next { s with dev := s.dev.recovTimeout i }
    else .next s

/-! ## Suppression and collateral (R345, R346) -/

/-- A neighbour at the end of its window: collateral where it is busy and has had no beacon since the reset request; else it counts
from 0. -/
def Dev.windowNeighbour (d : Dev) (i : Incident) (c : Nat) : Dev :=
  let x := d.ctx c
  let since := i.requestAt.getD (i.queuedAt + 1)
  if x.core.state = .active && x.hang.busy && x.hang.beaconAt < since then d.hang_ c i.number true
  else d.modCtx c (fun x => { x with hang.quiet := 0 })

/-- The records of an incident whose windows have all ended are dropped; a recovery that timed out stays, for a late answer. -/
def Dev.closeIncident (d : Dev) (number : Nat) : Dev :=
  let open_ := d.hang.incidents.any (fun i => decide (i.number = number) && !i.ended)
  if open_ then d
  else { d with hang.incidents := d.hang.incidents.filter (fun i => decide (i.number ≠ number) || decide (i.phase = .timedOut)) }

/-- SUPPRESSION_END (R346): a window of an incident has run out. -/
def execSuppressionEnd (incident : Word) (s : State) : Host.Outcome State Fault Refusal :=
  let d := s.dev
  match d.hang.incidents.find? (fun i => decide (i.number = incident.toNat) && !i.ended && (match i.windowEnd with
    | some f => decide (f ≤ d.clock.frame)
    | none => false)) with
  | none => .next s
  | some i =>
    .next (s.onDev (fun d => (i.neighbours.foldl (fun (acc : Dev) c => acc.windowNeighbour i c)
      (d.modIncident i.number i.ctx (fun i => { i with ended := true }))).closeIncident i.number))

/-! ## The escalation ladder: Anvils (R349, R350, R353) -/

/-- ANV_RESET of ZN_RECOV_CMD (R349, R358). -/
def Dev.cmdAnvReset (d : Dev) (b : Nat) : Dev :=
  if 191 < b || (d.bank b).isolated || (d.bank b).anv.isolated then d.recovResult 4
  else if (d.bank b).anv.resetAt.isSome || (d.bank b).resetAt.isSome then d.recovResult 3
  else (d.startAnvilReset b 3 none).recovResult 1

/-- ANV_RESET. -/
def execAnvReset (p : Path) (bank : BitVec 8) (s : State) : Host.Outcome State Fault Refusal :=
  .next (s.onDev (fun d => d.cmdZ p Reg.ZN_RECOV_CMD (w32 (2 + 256 * bank.toNat)) (fun d => d.recovCmd p (fun d => d.cmdAnvReset bank.toNat))))

/-- ANVIL_NO_PROGRESS (R349): a frame in which 16 or more slots held a runnable descriptor and completed no work unit. DEDUCED (log entry 120). -/
def execAnvilNoProgress (bank : BankId) (s : State) : Host.Outcome State Fault Refusal :=
  let d := s.dev
  let b := bank.val
  if d.clock.stopped || d.bankDown b || (d.bank b).anv.isolated || (d.bank b).anv.resetAt.isSome then .next s
  else .next { s with dev := d.startAnvilReset b 1 none }

/-- An Anvil reset that failed (R350, R353): the Anvil is isolated; one that was isolated stays so and the SET is discarded. -/
def Dev.anvilResetFailed (d : Dev) (b : Nat) : Dev :=
  if (d.bank b).anv.isolated then
    d.modBank b (fun k => { k with anv.resetAt := none, anv.setTo := none, anv.resetPassed := false })
  else d.isolateAnvil b

/-- ANVIL_RESET_DONE (R349, R350, R348): the reset has run the known products. A pass returns the Anvil to service at the next tick;
a completion after isolation is LATE. -/
def execAnvilResetDone (bank : BankId) (pass : Bool) (s : State) : Host.Outcome State Fault Refusal :=
  let d := s.dev
  let b := bank.val
  let a := (d.bank b).anv
  match a.resetAt with
  | none => if a.isolated && pass then .next { s with dev := d.recordLate 3 0 0x65 (w32 a.resetCause) 0 0 } else .next s
  | some _ =>
    if pass then .next (s.onDev (fun d => d.modBank b (fun k => { k with anv.resetPassed := true })))
    else .next { s with dev := d.anvilResetFailed b }

/-- ANV_RST_LIMIT_EXPIRE (R350, R348): an Anvil reset that has not finished within ANV_RST_LIMIT frames; one whose pass came first has. -/
def execAnvRstLimitExpire (bank : BankId) (s : State) : Host.Outcome State Fault Refusal :=
  let d := s.dev
  match (d.bank bank.val).anv.resetAt with
  | none => .next s
  | some f =>
    if !(d.bank bank.val).anv.resetPassed && decide (f + d.zf Reg.ZN_ANV_RST_LIMIT 19 0 ≤ d.clock.frame) then .next { s with dev := d.anvilResetFailed bank.val } else .next s

/-- The ISOLATION record of a unit that returns: first and last isolated frame (R353). -/
def Dev.isolationRecord (d : Dev) (b since what : Nat) : Dev :=
  d.bankEvent b 0x1FF 0x05 0 (w32 since) (w32 (d.clock.frame - 1)) (w32 what) 0 .journal

/-- At a tick: an Anvil whose reset has passed returns to service; one that a SET took out of isolation takes the state set
(R349, R353). -/
def Dev.anvilBack (d : Dev) (b : Nat) : Dev :=
  let a := (d.bank b).anv
  if a.resetAt.isSome && a.resetPassed then
    let d1 := d.modBank b (fun k =>
      { k with anv := { k.anv with resetAt := none, resetPassed := false, setTo := none, isolated := false }, pairLostAt := none })
    if a.isolated then
      let d2 := (d1.modBank (partner b) (fun k => { k with pairLostAt := none })).isolationRecord b a.isolatedAt 1
      match a.setTo with
      | some (st, reason) => d2.hEvent (anvilUnit b) (.set st reason)
      | none => d2
    else d1
  else d

/-! ## The escalation ladder: Banks (R351 to R353) -/

/-- BANK_RESET of ZN_RECOV_CMD (R351, R357, R358). -/
def Dev.cmdBankReset (d : Dev) (b : Nat) : Dev :=
  if 191 < b || (d.bank b).isolated then d.recovResult 4
  else if (d.bank b).resetAt.isSome then d.recovResult 3
  else (d.startBankReset b 2 none).recovResult 1

/-- BANK_RESET. -/
def execBankReset (p : Path) (bank : BitVec 8) (s : State) : Host.Outcome State Fault Refusal :=
  .next (s.onDev (fun d => d.cmdZ p Reg.ZN_RECOV_CMD (w32 (4 + 256 * bank.toNat)) (fun d => d.recovCmd p (fun d => d.cmdBankReset bank.toNat))))

/-- BANK_SUMMARY_MISSING (R351): a Bank has returned no tick summary for 16 ticks in a row. -/
def execBankSummaryMissing (bank : BankId) (s : State) : Host.Outcome State Fault Refusal :=
  let d := s.dev
  let k := d.bank bank.val
  if k.missing < 16 || d.bankDown bank.val then .next s
  else .next { s with dev := d.startBankReset bank.val 1 none }

/-- A Bank is back (R351, R353): one that a SET took out of isolation takes the state set, its cores are watched again, its Wisps
start without a GAP, and late repair of their images follows. DEDUCED (log entry 121). -/
def Dev.bankBack (d : Dev) (b : Nat) : Dev :=
  let k := d.bank b
  let d1 := d.modBank b (fun k => { k with resetAt := none, setTo := none, isolated := false, missing := 0 })
  if k.isolated then
    let d2 := { d1 with
      wisps := Tbl.mapAll Wisp.init (fun u w => if u / 264 = b then { w with lastRx := none, missed := false } else w) d1.wisps
      pat.lateQueue := d1.pat.lateQueue ++ (List.range 264).map (fun p => (b, p)) }
    let d3 := ((List.range 264).foldl (fun (acc : Dev) p => acc.hEvent (coreUnit b p) .watched) d2).isolationRecord b k.isolatedAt 2
    match k.setTo with
    | some (st, reason) => d3.hEvent (bankUnit b) (.set st reason)
    | none => d3
  else d1

/-- BANK_RESET_END (R351, R348): the first tick at which the Bank returns a tick summary; after isolation it is LATE. -/
def execBankResetEnd (bank : BankId) (s : State) : Host.Outcome State Fault Refusal :=
  let d := s.dev
  let b := bank.val
  let k := d.bank b
  match k.resetAt with
  | none => if k.isolated then .next { s with dev := d.recordLate 3 0 0x67 (w32 b) (w32 k.resetCause) 0 } else .next s
  | some f => if f < d.clock.frame && k.missing = 0 then .next { s with dev := d.bankBack b } else .next s

/-- BANK_RST_LIMIT_EXPIRE (R352, R353): a Bank reset that has not ended within BANK_RST_LIMIT frames isolates the Bank; one of an
isolated Bank leaves it so, and the SET is discarded. -/
def execBankRstLimitExpire (bank : BankId) (s : State) : Host.Outcome State Fault Refusal :=
  let d := s.dev
  let b := bank.val
  match (d.bank b).resetAt with
  | none => .next s
  | some f =>
    if d.clock.frame < f + d.zf Reg.ZN_BANK_RST_LIMIT 19 0 then .next s
    else if (d.bank b).isolated then
      .next (s.onDev (fun d => d.modBank b (fun k => { k with resetAt := none, setTo := none, anv.resetAt := none })))
    else .next { s with dev := d.isolateBank b }

/-! ## The watchdog (R354) -/

/-- KICK of ZN_WDOG_KICK, which only the steward can write. -/
def execKick (p : Path) (s : State) : Host.Outcome State Fault Refusal :=
  .next (s.onDev (fun d => d.cmdZ p Reg.ZN_WDOG_KICK 1 (fun d => { d with hang.wdog := 0 })))

/-- WATCHDOG_EXPIRE: the count has reached WDOG; a shutdown in progress ends (R303). -/
def execWatchdogExpire (s : State) : Host.Outcome State Fault Refusal :=
  let d := s.dev
  if d.hang.wdog < d.zf Reg.ZN_WDOG 23 0 then .next s else .next { s with dev := (d.chipReset 1).sdAbort 3 }

end Sys2Proof.Machine
end

