-- ==== Sys2Proof/Machine/Thermal.lean ====
section
/-! DEFINITION. The thermal model and the throttle (R306 to R330): tiles and nodes, the update step, the diode correction, limits
and levels, and the emergencies. -/

namespace Sys2Proof.Machine

/-! ## Tiles and nodes (R306, R307) -/

/-- The tiles of the grid. -/
def tiles : Nat := 3072

/-- The row of a tile. -/
def tileRow (t : Nat) : Nat := 4 * (t / 16 / 16) + t % 16 / 4

/-- The column of a tile. -/
def tileCol (t : Nat) : Nat := 4 * (t / 16 % 16) + t % 4

/-- The tile at a row and a column. -/
def tileAt (row col : Nat) : Nat := 16 * (row / 4 * 16 + col / 4) + row % 4 * 4 + col % 4

/-- The lateral neighbours of a tile. -/
def lateral (t : Nat) : List Nat :=
  let r := tileRow t
  let c := tileCol t
  (if 0 < r then [tileAt (r - 1) c] else []) ++ (if r < 47 then [tileAt (r + 1) c] else []) ++
    (if 0 < c then [tileAt r (c - 1)] else []) ++ (if c < 63 then [tileAt r (c + 1)] else [])

/-- A node that no update has touched. -/
def Node.init : Node where
  temp := 0
  prior := 0
  mins := [0, 0, 0, 0]
  absOver := false
  riseOver := false
  k := 0

/-- A node. -/
def Dev.node (d : Dev) (n : Nat) : Node := Tbl.get Node.init d.thm.nodes n

/-- The positions of a tile: those that its logical cores are mapped to. -/
def Dev.tileCores (d : Dev) (t : Nat) : List Nat :=
  (List.range 16).filterMap (fun i => (d.bank (t / 16)).cc.posOf (16 * (t % 16) + i))

/-- The tile of a position; none where it serves no logical core. -/
def Dev.tileOf (d : Dev) (b p : Nat) : Option Nat := ((d.bank b).cc.logicalOf p).map (fun n => 16 * b + n / 16)

/-- The throttle level in force at a Wisp; THERMTRIP_N sets every Wisp to 15 (R326). -/
def Dev.wispLevel (d : Dev) (b p : Nat) : Nat := if d.aon.thermTrip then 15 else (d.wisp b p).level

/-! ## Limits and diodes (R315, R317, R318) -/

/-- A degree, in the units of TEMP. -/
def degree : Int := 65536

/-- LIMIT_LOGIC; the default in diode-only mode (R327). -/
def Dev.limitLogic (d : Dev) : Int := degree * Int.ofNat (if d.thm.started then d.zf Reg.ZN_THM_LIMITS 7 0 else 105)

/-- LIMIT_MEM; the default in diode-only mode. -/
def Dev.limitMem (d : Dev) : Int := degree * Int.ofNat (if d.thm.started then d.zf Reg.ZN_THM_LIMITS 15 8 else 95)

/-- The limit of a node; spreader nodes have none. -/
def Dev.limitOf (d : Dev) (n : Nat) : Option Int :=
  if n < tiles then some d.limitLogic else if n < 2 * tiles then some d.limitMem else none

/-- A diode that has given no reading. -/
def Diode.init : Diode where
  reading := 0
  valid := false
  frame := 0
  prior := 0
  priorFrame := 0
  suspect := false

/-- A diode. -/
def Dev.diode (d : Dev) (i : Nat) : Diode := Tbl.get Diode.init d.thm.diodes i

/-- The reading of a diode is valid: its flag is set and it is no older than 1,024 F (R315). -/
def Dev.diodeOk (d : Dev) (i : Nat) : Bool := (d.diode i).valid && decide (d.clock.frame ≤ (d.diode i).frame + 1024)

/-- A reading in the units of TEMP. -/
def Diode.temp (x : Diode) : Int := 1024 * x.reading

/-- The margin of a diode's reading. -/
def Dev.diodeMargin (d : Dev) (i : Nat) : Int := (if i < 64 then d.limitLogic else d.limitMem) - (d.diode i).temp

/-- The valid diodes. -/
def Dev.validDiodes (d : Dev) : List Nat := (List.range 80).filter d.diodeOk

/-- A reading that arrives: the one before it is kept where both are valid, and a stack past its limit is recorded (R315, R317). -/
def Dev.takeReading (d : Dev) (x : DiodeIn) : Dev :=
  let i := x.diode.val
  let old := d.diode i
  let r := x.reading.toInt
  let new : Diode := { reading := r, valid := x.valid, frame := d.clock.frame,
                       prior := if old.valid && x.valid then old.reading else r,
                       priorFrame := if old.valid && x.valid then old.frame else d.clock.frame, suspect := old.suspect }
  let d1 := { d with thm.diodes := Tbl.set Diode.init d.thm.diodes i new }
  if 64 ≤ i && x.valid && decide (d1.diodeMargin i < 0) then
    d1.zEvent 2 0x52 0 (w32 (i - 64)) (BitVec.ofInt 32 r) 0 0
  else d1

/-! ## Estimates (R309, R310) -/

/-- The sums that a tile drives the model with in a frame, in 0.5 mW: TILE_PMAX without estimates. -/
def Dev.tileSum (d : Dev) (t : Nat) : Nat × Nat :=
  if d.bankDown (t / 16) then (2 * d.cfg.thermal.pmaxL, 2 * d.cfg.thermal.pmaxM)
  else (d.tileCores t).foldl (fun (acc : Nat × Nat) p =>
    let w := d.wisp (t / 16) p
    (acc.1 + w.estL, acc.2 + w.estM)) (0, 0)

/-- The sums of the frame before last join those since the last update, and those of the last frame are taken. DEDUCED (log entry 128). -/
def Dev.takeEstimates (d : Dev) : Dev :=
  let add (x y : Nat × Nat) : Nat × Nat := (x.1 + y.1, x.2 + y.2)
  let acc := (List.range tiles).foldl (fun (t : Tbl (Nat × Nat)) i =>
    Tbl.set (0, 0) t i (add (Tbl.get (0, 0) t i) (Tbl.get (0, 0) d.thm.lastEst i))) d.thm.acc
  let last := (List.range tiles).foldl (fun (t : Tbl (Nat × Nat)) i => Tbl.set (0, 0) t i (d.tileSum i)) []
  let none_ := 16 * ((List.range 192).filter d.bankDown).length
  ({ d with thm.acc := acc, thm.lastEst := last }).addZ Reg.ZN_THM_CNT_NOEST none_

/-! ## The step (R312, R316) -/

/-- Division rounding up. -/
def ceilInt (a : Int) (b : Nat) : Int := -((-a) / Int.ofNat b)

/-- The difference of a diode's reading from the model (R316). DEDUCED (log entry 123). -/
def Dev.diodeError (d : Dev) (i : Nat) : Int := (d.diode i).temp - (d.node (d.cfg.thermal.diodeTile.getD i 0)).temp

/-- The limit of a diode's disagreement. -/
def Dev.corrMax (d : Dev) : Int := degree * Int.ofNat (d.zf Reg.ZN_THM_CTL 9 5)

/-- The correction of a diode that reads `e` above the model (R316). -/
def Dev.correction (d : Dev) (e : Int) : Int :=
  if d.corrMax < e then e else if e < -d.corrMax then 0 else ceilInt (e * Int.ofNat (d.zf Reg.ZN_THM_CTL 4 0)) 16

/-- The correction update of this frame: one of every 1,024. -/
def Dev.corrects (d : Dev) : Bool := decide (d.clock.frame % 1024 = 0)

/-- The temperature a node takes into the step: corrected where its tile's diode is valid. -/
def Dev.corrected (d : Dev) (n : Nat) : Int :=
  let i := d.cfg.thermal.tileDiode.getD (n % tiles) 0
  (d.node n).temp + (if d.corrects && d.diodeOk i then d.correction (d.diodeError i) else 0)

/-- The events and the SUSPECT marks of a correction update. -/
def Dev.judgeDiodes (d : Dev) : Dev :=
  if !d.corrects then d
  else ((List.range 64).filter d.diodeOk).foldl (fun (acc : Dev) i =>
    let e := d.diodeError i
    let t := (d.node (d.cfg.thermal.diodeTile.getD i 0)).temp
    let mark (s : Bool) (a : Dev) : Dev :=
      { a with thm.diodes := Tbl.modify Diode.init a.thm.diodes i (fun x => { x with suspect := s }) }
    let note (a : Dev) : Dev :=
      (a.bumpZ Reg.ZN_THM_CNT_DISAGREE).zEvent 2 0x51 0 (w32 i) (BitVec.ofInt 32 (d.diode i).reading) (BitVec.ofInt 32 t) 0
    if d.corrMax < e then note acc
    else if e < -d.corrMax then mark true (note acc)
    else mark false acc) d

/-- The lateral conductance of a layer. -/
def ThermalCfg.gLat (c : ThermalCfg) (layer : Nat) : Nat := if layer = 0 then c.gLatL else if layer = 1 then c.gLatM else c.gLatS

/-- The vertical neighbours of a node with their conductance. -/
def ThermalCfg.vertical (c : ThermalCfg) (n : Nat) : List (Nat × Nat) :=
  if n < tiles then [(n + tiles, c.gLM)]
  else if n < 2 * tiles then [(n - tiles, c.gLM), (n + tiles, c.gMS)]
  else [(n - tiles, c.gMS)]

/-- ZCLK as the model takes it: 1.6 GHz until the first measurement (R312). -/
def Dev.modelKhz (d : Dev) : Nat := if d.clock.zclkKhz = 0 then 1600000 else d.clock.zclkKhz

/-- The increment of a node over `k` frames, rounded upward (R312): the heating by the mean of the tile's sums and the exchange with
its neighbours and the ambient. DEDUCED (log entry 125). -/
def Dev.increment (d : Dev) (temp : Nat → Int) (k n : Nat) : Int :=
  let c := d.cfg.thermal
  let layer := n / tiles
  let sums := Tbl.get (0, 0) d.thm.acc (n % tiles)
  let heat := if layer = 0 then c.aL * sums.1 else if layer = 1 then c.aM * sums.2 else 0
  let side := ((lateral (n % tiles)).map (fun t =>
    Int.ofNat (c.gLat layer) * (temp (layer * tiles + t) - temp n))).foldl (· + ·) 0
  let vert := ((c.vertical n).map (fun x => Int.ofNat x.2 * (temp x.1 - temp n))).foldl (· + ·) 0
  let amb := if layer = 2 then
      Int.ofNat c.gAmb * (1024 * ((d.zreg Reg.ZN_THM_AMB).setWidth 16).toInt - temp n)
    else 0
  ceilInt (1600000 * (Int.ofNat (128 * heat) + Int.ofNat k * (side + vert + amb))) (d.modelKhz * 2 ^ 24)

/-- The rate-of-rise rule is active (R319). -/
def Dev.riseActive (d : Dev) : Bool :=
  let e := d.zf Reg.ZN_THM_RISE 12 8
  d.thm.started && decide (e ≠ 0) && decide (d.thm.modelStart + 2 ^ e ≤ d.clock.frame)

/-- The sub-window minima of a node after an update to `t` (R319). -/
def Dev.newMins (d : Dev) (x : Node) (t : Int) : List Int :=
  let e := d.zf Reg.ZN_THM_RISE 12 8
  if e = 0 then x.mins
  else
    let w := 2 ^ (e - 2)
    let slot := d.clock.frame / w % 4
    let t64 := t / 1024
    let fresh := decide (d.clock.frame / w ≠ d.thm.updateAt / w)
    x.mins.set slot (if fresh then t64 else min (x.mins.getD slot t64) t64)

/-- A node after the update (R308, R318, R319). DEDUCED (log entry 124). -/
def Dev.stepNode (d : Dev) (temp : Nat → Int) (k n : Nat) : Node :=
  let x := d.node n
  let t := temp n + d.increment temp k n
  let mins := d.newMins x t
  let low := mins.foldl min (mins.headD 0)
  let limited := decide (n < 2 * tiles)
  let absOver := match d.limitOf n with
    | some l => if l < t then true else if t ≤ l - degree then false else x.absOver
    | none => false
  { temp := t
    prior := x.temp
    mins := mins
    absOver := absOver
    riseOver := limited && d.riseActive && decide (4096 * Int.ofNat (d.zf Reg.ZN_THM_RISE 7 0) < t - 1024 * low)
    k := d.thm.cadence }

/-- The units that a node's excursion names: the cores of its tile, or their tier-1 slices (R320). -/
def Dev.nodeUnits (d : Dev) (n : Nat) : List Nat :=
  let t := n % tiles
  (d.tileCores t).map (fun p => if n < tiles then coreUnit (t / 16) p else sliceUnit (coreUnit (t / 16) p))

/-- Excursions that begin with this update: recorded now, observed at the next tick (R320, R42). -/
def Dev.excursions (d : Dev) (before : Dev) : Dev :=
  (List.range (2 * tiles)).foldl (fun (acc : Dev) n =>
    let a := (d.node n).absOver && !(before.node n).absOver
    let r := (d.node n).riseOver && !(before.node n).riseOver
    if a || r then
      let p1 := w32 (bit a + 2 * bit r)
      let p2 := BitVec.ofInt 32 (d.node n).temp
      let acc1 := { acc with thm.obs := acc.thm.obs ++ d.nodeUnits n }
      ((acc1.bumpZ Reg.ZN_THM_CNT_EXCURSION).zEvent 2 0x50 0 (w32 n) p1 p2 0).notice 0x05 false
        (d.noteRec 2 0x50 0 (w32 n) p1 p2 0).words
    else acc) d

/-! ## Levels and the interval (R314, R321) -/

/-- The margin of a logic or memory node. -/
def Dev.nodeMargin (d : Dev) (n : Nat) : Int := (if n < tiles then d.limitLogic else d.limitMem) - (d.node n).temp

/-- The smaller of a margin and the others. -/
def minMargin (first : Int) (l : List Int) : Int := l.foldl min first

/-- The margin that decides a tile's level. -/
def Dev.tileMargin (d : Dev) (t : Nat) : Int :=
  let s := 64 + d.cfg.thermal.clusterStack.getD (t / 16) 0
  minMargin (d.nodeMargin t) (d.nodeMargin (t + tiles) :: (if d.diodeOk s then [d.diodeMargin s] else []))

/-- The level of a tile after an update. -/
def Dev.newLevel (d : Dev) (t : Nat) : Nat :=
  let start := d.zf Reg.ZN_THM_MARGIN 4 0 * 65536
  let raw := (max 0 (min 15 (ceilInt (16 * (Int.ofNat start - d.tileMargin t)) start))).toNat
  let raw1 := if (d.node t).riseOver || (d.node (t + tiles)).riseOver then max 8 raw else raw
  let old := Tbl.get 0 d.thm.levels t
  if old ≤ raw1 then raw1 else old - 1

/-- The smallest margin over every logic and memory node and every valid diode. -/
def Dev.smallestMargin (d : Dev) : Int :=
  let ds := d.validDiodes.map d.diodeMargin
  let ns := if d.thm.started then (List.range (2 * tiles)).map d.nodeMargin else []
  match ns ++ ds with
  | [] => 128 * degree
  | m :: rest => minMargin m rest

/-- The cadence that a smallest margin asks for (R314). -/
def cadenceOf (m : Int) : Nat := if m < 3 * degree then 2 else if m < 8 * degree then 1 else 0

/-- The frames of a cadence. -/
def Dev.interval (d : Dev) (cadence : Nat) : Nat :=
  match cadence with
  | 2 => 1
  | 1 => 4
  | _ => if d.clock.zclkKhz = 0 || 1600000 ≤ d.clock.zclkKhz then 64 else 32

/-- The interval is set after an update: the next tick that is a multiple of it (R314). -/
def Dev.setInterval (d : Dev) : Dev :=
  let c := cadenceOf d.smallestMargin
  let i := d.interval c
  { d with thm.cadence := c, thm.updateAt := d.clock.frame, thm.nextAt := (d.clock.frame / i + 1) * i }

/-! ## Emergencies (R323 to R326) -/

/-- A projected time to a limit, as a ratio of frames; a zero denominator is unbounded. -/
structure Proj where
  source : Nat
  num : Nat
  den : Nat
  deriving DecidableEq, Repr

/-- The time that a margin lasts at a rise of `rise` over `k` frames (R323). -/
def mkProj (source : Nat) (margin rise : Int) (k : Nat) : Proj :=
  if margin ≤ 0 then { source := source, num := 0, den := 1 }
  else if 0 < rise then { source := source, num := margin.toNat * k, den := rise.toNat }
  else { source := source, num := 1, den := 0 }

/-- The earlier of two projections, the first where they are equal. -/
def Proj.earlier (a b : Proj) : Proj := if b.num * a.den < a.num * b.den then b else a

/-- The projections of every node and diode that declares an emergency (R323). -/
def Dev.emergencies (d : Dev) (k : Nat) : List Proj :=
  let emerg := 16384 * Int.ofNat (d.zf Reg.ZN_THM_MARGIN 10 5)
  let nodes := if d.thm.started then
      (List.range (2 * tiles)).filterMap (fun n =>
        let m := d.nodeMargin n
        if m ≤ 0 || (m ≤ emerg && Tbl.get 0 d.thm.newLevels (n % tiles) = 15) then
          some (mkProj n m ((d.node n).temp - (d.node n).prior) k)
        else none)
    else []
  let diodes := d.validDiodes.filterMap (fun i =>
    let m := d.diodeMargin i
    let x := d.diode i
    if m ≤ emerg || m ≤ 0 then some (mkProj (0x8000 + i) m (1024 * (x.reading - x.prior)) (x.frame - x.priorFrame)) else none)
  nodes ++ diodes

/-- t_proj as an event carries it, saturating. -/
def Proj.word (p : Proj) : Word := if p.den = 0 then 0xFFFFFFFF else w32 (min 0xFFFFFFFF (p.num / p.den))

/-- What the emergencies of an update decide (R324, R325), for the next tick. DEDUCED (log entry 126). -/
def Dev.decideEmergency (d : Dev) (k : Nat) : Dev :=
  match d.emergencies k with
  | [] => { d with thm.emerg := none }
  | p :: rest =>
    let first := rest.foldl Proj.earlier p
    let stop := d.zf Reg.ZN_THM_STOP 24 0
    let out := (first.source, first.word)
    let d1 := { d with thm.emerg := some out }
    if d.thm.stopReq then
      if first.num = 0 then { d1 with thm.pendTrip := some out } else d1
    else if stop ≠ 0 && stop * first.den < first.num then { d1 with thm.pendStop := some out }
    else { d1 with thm.pendTrip := some out }

/-! ## The update -/

/-- The node with the smallest margin (R329). -/
def Dev.setHot (d : Dev) : Dev :=
  let n := (List.range (2 * tiles)).foldl (fun b n => if d.nodeMargin n < d.nodeMargin b then n else b) 0
  { d with thm.hot := n, thm.hotMargin := d.nodeMargin n / 1024 }

/-- One update of the model (R312 to R324). -/
def Dev.updateModel (d : Dev) : Dev :=
  let k := d.clock.frame - d.thm.updateAt
  let temps := (List.range (3 * tiles)).map d.corrected
  let temp (n : Nat) : Int := temps.getD n 0
  let judged := d.judgeDiodes
  let nodes := (List.range (3 * tiles)).foldl (fun (t : Tbl Node) n => Tbl.set Node.init t n (d.stepNode temp k n)) []
  let d1 := { judged with thm.nodes := nodes, thm.acc := [] }
  let d2 := (d1.excursions d).bumpZ Reg.ZN_THM_CNT_UPDATES
  let levels := (List.range tiles).foldl (fun (t : Tbl Nat) i => Tbl.set 0 t i (d2.newLevel i)) []
  let d3 := { d2 with thm.newLevels := levels, thm.pending := true }
  ((d3.decideEmergency k).setHot).setInterval

/-- THERMAL_UPDATE (R312, R314, R327): the update of an update tick; before the model starts, emergencies are decided from the diodes
alone. A trip stops no update. -/
def execThermalUpdate (s : State) : Host.Outcome State Fault Refusal :=
  let d := s.dev
  if d.thm.started then
    if d.clock.frame < d.thm.nextAt || d.clock.frame ≤ d.thm.updateAt then .next s else .next { s with dev := d.updateModel }
  else .next (s.onDev (fun d => { d.decideEmergency 1 with thm.updateAt := d.clock.frame }))

/-- STOP_FRAMES_EXPIRE (R325): an update STOP_FRAMES after the request still declares an emergency. -/
def execStopFramesExpire (s : State) : Host.Outcome State Fault Refusal :=
  let d := s.dev
  let due := d.thm.stopAt + d.zf Reg.ZN_THM_STOP 24 0
  match d.thm.emerg with
  | none => .next s
  | some x =>
    if d.thm.stopReq && !d.aon.thermTrip && decide (due ≤ d.thm.updateAt) then
      .next (s.onDev (fun d => { d with thm.pendTrip := some x }))
    else .next s

/-! ## What a tick applies (R42, R325, R326, R327) -/

/-- THM_STOP_REQ or THERMTRIP_N is asserted: recorded, with a THERMAL notice; a shutdown in progress ends (R303, R325). -/
def Dev.thermalAlert (d : Dev) (code : Nat) (x : Nat × Word) : Dev :=
  ((d.zEvent 2 code 0 (w32 x.1) x.2 0 0).recNotice 0x05 2 code 0 (w32 x.1) x.2 0 0).sdAbort 5

/-- At a tick: the results of the last update apply. DEDUCED (log entry 127). -/
def Dev.thermalTick (d : Dev) : Dev :=
  let d1 := if d.thm.pending then { d with thm.levels := d.thm.newLevels } else d
  let d2 := d1.thm.obs.foldl (fun (acc : Dev) u => acc.hEvent u (.observe rTHERMAL)) { d1 with thm.obs := [] }
  let d3 := match d2.thm.pendTrip with
    | some x =>
      if d2.aon.thermTrip then d2
      else ({ d2 with aon.thermTrip := true, thm.pendTrip := none, thm.pendStop := none }).thermalAlert 0x54 x
    | none => d2
  let d4 := match d3.thm.pendStop with
    | some x => ({ d3 with thm.stopReq := true, thm.stopAt := d.clock.frame, thm.pendStop := none }).thermalAlert 0x53 x
    | none => d3
  if d4.aon.thermTrip || d4.thm.levels.any (fun e => decide (0 < e.2)) then d4.bumpZ Reg.ZN_THM_CNT_THR_FRAMES else d4

/-- The model starts, at the tick at which the Banks are released (R327). -/
def Dev.startModel (d : Dev) : Dev :=
  let node (n : Nat) : Node :=
    let i := d.cfg.thermal.tileDiode.getD (n % tiles) 0
    let t := if d.diodeOk i then (d.diode i).temp else 1024 * ((d.zreg Reg.ZN_THM_AMB).setWidth 16).toInt
    { Node.init with temp := t, prior := t, mins := List.replicate 4 (t / 1024) }
  let nodes := (List.range (3 * tiles)).foldl (fun (t : Tbl Node) n => Tbl.set Node.init t n (node n)) []
  ({ d with thm.nodes := nodes, thm.started := true, thm.modelStart := d.clock.frame, thm.acc := [], thm.lastEst := [],
            thm.levels := [], thm.newLevels := [] }).setInterval

end Sys2Proof.Machine
end

