-- ==== Sys2Proof/Machine/Patterns.lean ====
section
/-! DEFINITION. Pattern packages (R261 to R282): the format and its checks, installing, broadcast rounds with their repair, late
repair and retry rounds, and the choice of a package at start. -/

namespace Sys2Proof.Machine

/-! ## The package format (R264 to R267) -/

/-- A little-endian field of bytes. -/
def fieldAt (l : List Byte) (at_ n : Nat) : Nat := leNat ((l.drop at_).take n)

/-- The bytes from `at_` on, `n` of them, are all there and zero. -/
def zeroAt (l : List Byte) (at_ n : Nat) : Bool := (l.drop at_).take n == List.replicate n (0 : Byte)

/-- IMAGE_COUNT of a package. -/
def pkgImages (l : List Byte) : Nat := fieldAt l 6 1

/-- KEY_SLOT of a package. -/
def pkgKeySlot (l : List Byte) : Nat := fieldAt l 7 1

/-- VERSION of a package. -/
def pkgVersion (l : List Byte) : Nat := fieldAt l 8 8

/-- PACKETS of a package. -/
def pkgPackets (l : List Byte) : Nat := fieldAt l 20 4

/-- TOTAL_LEN of a package with `n` payload packets (R264). -/
def pkgLen (n : Nat) : Nat := 4096 + 256 * n + 96

/-- An image table entry (R265). -/
structure ImageEntry where
  packets : Nat
  first : Nat
  crc : Word
  khz : Nat
  entries : List Nat
  sigs : List DWord
  deriving DecidableEq, Repr

/-- Image entry `n` of a package. -/
def pkgEntry (l : List Byte) (n : Nat) : ImageEntry :=
  let e := (l.drop (64 + 64 * n)).take 64
  { packets := fieldAt e 2 2
    first := fieldAt e 4 4
    crc := w32 (fieldAt e 8 4)
    khz := fieldAt e 12 4
    entries := [fieldAt e 16 4, fieldAt e 20 4, fieldAt e 24 4]
    sigs := [BitVec.ofNat 64 (fieldAt e 32 8), BitVec.ofNat 64 (fieldAt e 40 8), BitVec.ofNat 64 (fieldAt e 48 8)] }

/-- The bytes of `n` payload packets from `first` on. -/
def pkgPayload (l : List Byte) (first n : Nat) : List Byte := (l.drop (4096 + 256 * first)).take (256 * n)

/-- Image entry `n` meets R265 and R267, with `before` the packets of the images before it. -/
def entryOk (l : List Byte) (n before : Nat) : Bool :=
  let e := (l.drop (64 + 64 * n)).take 64
  let x := pkgEntry l n
  decide (fieldAt e 0 1 = n) && zeroAt e 1 1 && decide (1 ≤ x.packets) && decide (x.packets ≤ 1024) && decide (x.first = before) &&
    decide (x.khz ≠ 0) && x.entries.all (fun a => decide (a % 4 = 0) && decide (a < 256 * x.packets)) && zeroAt e 28 4 &&
    zeroAt e 56 8 && decide (crc32c (pkgPayload l x.first x.packets) = x.crc)

/-- The packets of the first `n` images. -/
def pkgBefore (l : List Byte) (n : Nat) : Nat := sumNat ((List.range n).map (fun i => (pkgEntry l i).packets))

/-- Row 3 of R269: the whole format holds. -/
def pkgFormatOk (l : List Byte) : Bool :=
  let n := pkgImages l
  let pk := pkgPackets l
  decide (l.length = pkgLen pk) && decide (1 ≤ pk) && decide (pk ≤ 32768) && decide (fieldAt l 0 4 = 0x4B50444F) &&
    decide (fieldAt l 4 2 = 1) && decide (1 ≤ n) && decide (n ≤ 32) && decide (pkgKeySlot l ≤ 3) && zeroAt l 24 40 &&
    zeroAt l (64 + 64 * n) (4032 - 64 * n) && (List.range n).all (fun i => entryOk l i (pkgBefore l i)) &&
    decide (pkgBefore l n = pk)

/-- Row 4 of R269: the package is for this product. -/
def pkgTargetOk (l : List Byte) : Bool := decide (fieldAt l 16 4 = 0x4F44C192)

/-- The digest that a package's signature covers. -/
def pkgDigest (l : List Byte) : BitVec 384 := Crypto.digest (l.take (l.length - 96))

/-- Row 5 of R269: the signature is valid under the key of KEY_SLOT (R266, R444). -/
def Dev.pkgSigOk (d : Dev) (l : List Byte) : Bool :=
  match d.cfg.keys[pkgKeySlot l]? with
  | some (true, key) =>
    Crypto.ecdsaVerify key (pkgDigest l) (BitVec.ofNat 768 (Crypto.beNat (l.drop (l.length - 96))))
  | _ => false

/-- The result of a staged package, by the rows of R269 after the first two; 1 where every row passes. DEDUCED (log entry 86). -/
def Dev.pkgResult (d : Dev) (l : List Byte) : Nat :=
  if 64 ≤ l.length && pkgImages l = 0 then 2
  else if !pkgFormatOk l then 4
  else if !pkgTargetOk l then 5
  else if !d.pkgSigOk l then 6
  else if pkgVersion l < d.aon.floor.toNat || pkgVersion l < d.pat.version.toNat then 7
  else if d.pat.installed ≠ [] && pkgVersion l = d.pat.version.toNat then
    (if pkgDigest l = d.pat.digest then 2 else 8)
  else 1

/-- RESULT of ZN_PAT_STAT. -/
def Dev.patResult (d : Dev) (r : Nat) : Dev := d.setZf Reg.ZN_PAT_STAT 3 0 r

/-! ## Rounds (R276, R277, R279) -/

/-- A test is in progress on the core, its save and restore included: the Wisp is excluded (R276). -/
def Dev.excludes (d : Dev) (u : Nat) : Bool := d.testing u

/-- A Wisp programmed from the image of its core: new round tag, bitmap and VALID cleared (R262, R276 step 1). -/
def Dev.programWisp (d : Dev) (u : Nat) (w : Wisp) : Wisp :=
  let n := pkgImages d.pat.installed
  let e := pkgEntry d.pat.installed (u % max 1 n)
  { w with pat := { w.pat with
      first := e.first
      count := e.packets
      round := d.pat.round
      crc := e.crc
      bitmap := []
      valid := false
      excluded := false
      checking := false
      unpowered := false
      programmed := true
      version := d.pat.version
      khz := e.khz
      entries := e.entries
      sigs := e.sigs } }

/-- The packets of a Wisp's image, by SEQ. -/
def Wisp.allPackets (w : Wisp) : List Nat := (List.range w.pat.count).map (fun i => w.pat.first + i)

/-- The packets that a Bank sends a Wisp again: those missing, or all where its check has not ended or it cannot be read (R276). -/
def Wisp.missingPackets (w : Wisp) : List Nat :=
  if w.missed || w.pat.count ≤ w.pat.bitmap.length then w.allPackets
  else w.allPackets.filter (fun n => !w.pat.bitmap.contains (n - w.pat.first))

/-! ## The data channel (R273, R276, R280) -/

/-- A packet of 67 words: SEQ, ROUND and KIND, TARGET, 256 bytes of payload, CRC (R273). -/
def packetWords (seq round kind target : Nat) (payload : List Byte) : List Word :=
  let body := [w32 (seq % 2 ^ 24 + round % 16 * 2 ^ 24 + kind * 2 ^ 28), w32 target] ++
    (List.range 64).map (fun i => w32 (leNat ((payload.drop (4 * i)).take 4)))
  body ++ [crcWords body]

/-- The packet of an item: DATA and REPAIR carry their payload packet, END zeros and the number of DATA packets. -/
def Dev.itemWords (d : Dev) : ChannelItem → List Word
  | .data seq => packetWords seq.toNat d.pat.round 1 0x1FF (pkgPayload d.pat.installed seq.toNat 1)
  | .finish => packetWords (pkgPackets d.pat.installed) d.pat.round 3 0x1FF []
  | .repair target seq => packetWords seq.toNat d.pat.round 2 target.val (pkgPayload d.pat.installed seq.toNat 1)

/-- The channel words of a frame: a line's 2,048 words without the header's 8 (R39, R273). -/
def frameWords : Nat := 2040

/-- The words of a broadcast: every DATA packet, then END. -/
def Dev.streamWords (d : Dev) : Nat := 67 * (pkgPackets d.pat.installed + 1)

/-- Packet `n` of the broadcast ends in this frame. -/
def Dev.arrives (d : Dev) (n : Nat) : Bool :=
  decide (d.pat.phase = 2) && decide (d.pat.wordsAt < 67 * (n + 1)) && decide (67 * (n + 1) ≤ d.pat.words)

/-- The item reaches the Wisps of the Bank in this frame. -/
def Dev.itemNow (d : Dev) (b : Nat) : ChannelItem → Bool
  | .data seq => decide (seq.toNat < pkgPackets d.pat.installed) && d.arrives seq.toNat
  | .finish => d.arrives (pkgPackets d.pat.installed)
  | .repair target seq => (d.bank b).patArrive.contains (target.val, seq.toNat)

/-- The broadcast takes the channel in this frame, its setup included. -/
def Dev.streaming (d : Dev) : Bool := decide (d.pat.phase = 2) && (decide (d.pat.setup ≠ 0) || decide (d.pat.wordsAt < d.streamWords))

/-- Zenith's sending at a tick: two frames of setup, then a frame's words of the broadcast (R276). -/
def Dev.sendData (d : Dev) : Dev :=
  if d.pat.phase ≠ 2 then d
  else if 1 < d.pat.setup then { d with pat.setup := d.pat.setup - 1 }
  else { d with pat.setup := 0, pat.wordsAt := d.pat.words, pat.words := min d.streamWords (d.pat.words + frameWords) }

/-- A Bank's sending at a tick, once the broadcast leaves it the channel: a frame's words of its REPAIR packets; with none it waits (R276). -/
def Bank.sendRepair (k : Bank) (streaming : Bool) : Bank :=
  let total := k.patWord + frameWords
  let n := min (total / 67) k.patOut.length
  if streaming then { k with patArrive := [], patTail := 0 }
  else if k.patOut.isEmpty then { k with patArrive := [], patTail := k.patTail + 1 }
  else { k with patArrive := k.patOut.take n, patOut := k.patOut.drop n, patTail := 0,
                patWord := if n = k.patOut.length then 0 else total - 67 * n }

/-- The Banks that send, or wait for a tail. -/
def Dev.sendingBanks (d : Dev) : List Nat :=
  (List.range 192).filter (fun b => !d.bankDown b && (d.pat.banksLeft.contains b || d.pat.lateRun.any (fun x => decide (x.1.1 = b)) ||
    !(d.bank b).patOut.isEmpty))

/-- The data channel at a tick outside a stop. -/
def Dev.channelTick (d : Dev) : Dev :=
  let d1 := d.sendData
  d1.sendingBanks.foldl (fun (acc : Dev) b =>
    let acc1 := acc.modBank b (fun k => k.sendRepair d1.streaming)
    acc1.addZ Reg.ZN_PAT_CNT_REPAIR (acc1.bank b).patArrive.length) d1

/-- The data channel at a tick of a stop: idle words; a packet that the stop cuts is lost, and sending resumes with the next (R280). DESIGN
CHOICE (log entry 188). -/
def Dev.channelPause (d : Dev) : Dev :=
  let at_ := (d.pat.words + 66) / 67 * 67
  { d with
    pat.wordsAt := at_
    pat.words := at_
    banks := Tbl.mapAll Bank.init (fun _ (k : Bank) =>
      { k with patArrive := [], patOut := if k.patWord = 0 then k.patOut else k.patOut.drop 1, patWord := 0 }) d.banks }

/-- A Wisp counts as valid at the end of a tail. DEDUCED (log entry 88). -/
def Wisp.validNow (w : Wisp) : Bool := w.pat.valid && !w.missed

/-- A late repair of the Wisp is in progress. -/
def Dev.inLate (d : Dev) (b p : Nat) : Bool := d.pat.lateRun.any (fun x => decide (x.1 = (b, p)))

/-- PATTERN_MISSING: the observation, once, and the cause in force until VALID is set (R277). -/
def Dev.patternMissing (d : Dev) (u : Nat) : Dev :=
  if (d.uht u).patMissing then d
  else d.hEvent u .patMissing

/-- The Wisps of a Bank that a round still serves: those not valid, not excluded and not in a late repair of their own. In a retry
round these are the affected ones. -/
def Dev.needRepair (d : Dev) (b : Nat) : List Nat :=
  (List.range 264).filter (fun p =>
    let w := d.wisp b p
    !w.validNow && !w.pat.excluded && !d.inLate b p && (decide (d.pat.phase ≠ 3) || (d.uht (coreUnit b p)).patMissing))

/-- The REPAIR packets that a Bank sends in a repair round, by position and then by SEQ; in a retry round the whole images (R276, R279). -/
def Dev.repairPackets (d : Dev) (b : Nat) : List (Nat × Nat) :=
  (d.needRepair b).flatMap (fun p =>
    (if d.pat.phase = 3 then (d.wisp b p).allPackets else (d.wisp b p).missingPackets).map (fun n => (p, n)))

/-- A repair round of a Bank starts. -/
def Dev.startRepair (d : Dev) (b : Nat) : Dev :=
  let out := d.repairPackets b
  d.modBank b (fun k => { k with patRepair := k.patRepair + 1, patOut := k.patOut ++ out, patTail := 0 })

/-- A Bank sends one Wisp its whole image (R278). -/
def Dev.sendImage (d : Dev) (b p : Nat) : Dev :=
  let out := (d.wisp b p).allPackets.map (fun n => (p, n))
  d.modBank b (fun k => { k with patOut := k.patOut ++ out, patTail := 0 })

/-- A Bank has finished the round; the round ends with the last. -/
def Dev.bankFinished (d : Dev) (b : Nat) : Dev :=
  let left := d.pat.banksLeft.filter (fun x => decide (x ≠ b))
  let d1 := d.modBank b (fun k => { k with patRepair := 0 })
  { d1 with pat.banksLeft := left, pat.phase := if left.isEmpty then 0 else d1.pat.phase }

/-- A broadcast round starts with its setup (R276 step 1): every Wisp of a Bank that takes part is programmed, but for the excluded
ones, which keep what they hold. -/
def Dev.startRound (d : Dev) : Dev :=
  let banks := (List.range 192).filter (fun b => !d.bankDown b)
  let d1 := { d with pat.phase := if banks.isEmpty then 0 else 2, pat.round := (d.pat.round + 1) % 16, pat.banksLeft := banks,
                     pat.setup := 2, pat.wordsAt := 0, pat.words := 0, pat.lateRun := []
                     pat.lateQueue := d.pat.lateQueue.filter (fun x => d.excludes (coreUnit x.1 x.2)) }
  let wisps := banks.foldl (fun (t : Tbl Wisp) b => Tbl.updRange Wisp.init (fun u w =>
    if d.excludes u then { w with pat.excluded := true } else d1.programWisp u w) 264 (264 * b) t) d1.wisps
  (({ d1 with wisps := wisps }).modBanks (fun _ k => { k with patRepair := 0, patOut := [], patWord := 0, patArrive := [], patTail := 0 })).bumpZ
    Reg.ZN_PAT_CNT_ROUNDS

/-- The cores with a PATTERN_MISSING cause in force. -/
def Dev.lackImage (d : Dev) : List Nat := Tbl.keysP (fun u (e : UhtEntry) => decide (u < 50688) && e.patMissing) d.health.uht

/-- The cores that a retry round serves (R279): those that lack an image, of Banks that run, neither excluded nor in a late repair. DEDUCED
(log entry 90). -/
def Dev.retryUnits (d : Dev) : List Nat :=
  d.lackImage.filter (fun u => !d.bankDown (u / 264) && !d.excludes u && !d.inLate (u / 264) (u % 264))

/-- A retry round starts: no DATA; the Banks with affected Wisps run their repair rounds, each affected Wisp getting its whole image
(R279). A Wisp under test is excluded, and gets its image late. -/
def Dev.startRetry (d : Dev) : Dev :=
  let units := d.retryUnits
  let banks := (units.map (fun u => u / 264)).eraseDups
  let d1 := { d with pat.phase := if banks.isEmpty then 0 else 3, pat.round := (d.pat.round + 1) % 16, pat.banksLeft := banks }
  let d2 := units.foldl (fun (acc : Dev) u => acc.modWisp (u / 264) (u % 264) (d1.programWisp u))
    ((d.lackImage.filter d.excludes).foldl (fun (acc : Dev) u => acc.modWisp (u / 264) (u % 264) (fun w => { w with pat.excluded := true })) d1)
  banks.foldl Dev.startRepair (d2.bumpZ Reg.ZN_PAT_CNT_ROUNDS)

/-! ## Installing (R268 to R271) -/

/-- An install, with its slot write, or a round is in progress. -/
def Dev.patBusy (d : Dev) : Bool := decide (d.pat.phase ≠ 0) || !d.pat.stage.isEmpty || d.pat.slotWrite.isSome

/-- A package becomes the installed one (R270, R271). -/
def Dev.installPackage (d : Dev) (l : List Byte) : Dev :=
  let v := BitVec.ofNat 64 (pkgVersion l)
  ({ d with
    pat.installed := l
    pat.version := v
    pat.digest := pkgDigest l
    pat.durable := false
    aon.cacheValid := true
    aon.cacheVersion := v
    aon.cacheDigest := pkgDigest l }).bumpZ Reg.ZN_PAT_CNT_INSTALL

/-- SLOTWEAR of a ledger slot (R415). -/
def Dev.slotWear (d : Dev) (slot : Nat) : Nat :=
  match d.ledger.header with
  | some h => if slot = 0 then h.slotWear0 else h.slotWear1
  | none => 0

/-- The write of the slot that is not active starts; a module that is not BOUND and a slot at its budget are not written (R270,
R416, R421). -/
def Dev.startSlotWrite (d : Dev) : Dev :=
  let slot := 1 - d.pat.slot
  let budget := 6 * d.cfg.endurance / 10
  if d.ledger.state ≠ .bound || budget ≤ d.slotWear slot then d.patResult 0xA
  else { d with pat.slotWrite := some slot }

/-- Stage a package and start its check (R268, R269 rows 1 and 2); answers whether it was staged. -/
def Dev.stagePackage (d : Dev) (l : List Byte) : Dev × Bool :=
  if l.isEmpty then (d.patResult 2, false)
  else if d.patBusy then (d.patResult 3, false)
  else ({ d with pat.stage := l }, true)

/-- The staging area of the carve-out (R268, R443). -/
def Dev.stageBase (d : Dev) : Option Nat := (d.cfg.regions[4]?).map (fun r => r.base)

/-- The address in ZN_PAT_SRC_LO and ZN_PAT_SRC_HI. -/
def Dev.patSrc (d : Dev) : Nat := (d.zreg Reg.ZN_PAT_SRC_LO).toNat + 2 ^ 32 * d.zf Reg.ZN_PAT_SRC_HI 15 0

/-- INSTALL on the host path (R268): the package is read from host memory into the staging area. DEDUCED (log entry 85). DESIGN CHOICE (log entry 87). -/
def State.installCmd (s : State) (p : Path) : State :=
  let d := s.dev
  if pathHost p && d.locked then { s with dev := d.patResult 9 }
  else
    let l := s.mem.read d.patSrc (d.zf Reg.ZN_PAT_LEN 23 0)
    let (d1, staged) := d.stagePackage l
    let mem := if staged then
        match d.stageBase with
        | some base => s.mem.write base (l.take (9 * 2 ^ 20))
        | none => s.mem
      else s.mem
    { s with mem := mem, dev := d1 }

/-- A command of the Zenith window whose effect reaches host memory: examined as any other (R481). -/
def State.cmdZ (s : State) (p : Path) (off : Nat) (v : Word) (f : State → State) : State :=
  if s.dev.off then s
  else if pathCc p then s.onDev (fun d => d.bumpZ Reg.ZN_REG_CNT_HOLE)
  else match s.dev.refuse p (.zn off) v with
    | some r =>
      let s1 := s.onDev (fun d => d.onRefuse p (.zn off) v r)
      if r = .frozen && answersLock (.zn off) v then f s1 else s1
    | none => f s

/-- INSTALL. -/
def execInstall (p : Path) (s : State) : Host.Outcome State Fault Refusal :=
  .next (s.cmdZ p Reg.ZN_PAT_CMD 1 (fun s => s.installCmd p))

/-- A result that counts as a rejected install (R281). -/
def rejectResult (r : Nat) : Bool := decide (4 ≤ r) && decide (r ≤ 8)

/-- PACKAGE_CHECK_DONE (R269, R270): the first failing row decides, or the package is installed, its round starts and the ledger
slot is written in parallel. -/
def execPackageCheckDone (s : State) : Host.Outcome State Fault Refusal :=
  let d := s.dev
  let l := d.pat.stage
  if l.isEmpty then .next s
  else
    let r := d.pkgResult l
    if r = 1 then
      .next (s.onDev (fun d => (((({ d with pat.stage := [] }).installPackage l).startRound).patResult 1).startSlotWrite))
    else
      let d1 := ({ d with pat.stage := [] }).patResult r
      .next { s with dev := if rejectResult r then d1.bumpZ Reg.ZN_PAT_CNT_REJECT else d1 }

/-- REBCAST of ZN_PAT_CMD (R276, R280, R281). -/
def Dev.rebcast (d : Dev) : Dev :=
  if d.pat.installed.isEmpty then d.patResult 2
  else if d.patBusy then d.patResult 3
  else (d.startRound).patResult 1

/-- REBCAST. -/
def execRebcast (p : Path) (s : State) : Host.Outcome State Fault Refusal :=
  .next (s.onDev (fun d => d.cmdZ p Reg.ZN_PAT_CMD 2 Dev.rebcast))

/-- PAT_SLOT_WRITE_DONE (R270): the slot has been written and read back; it becomes active and the floor rises, or FLASHFAIL. -/
def execPatSlotWriteDone (ok : Bool) (s : State) : Host.Outcome State Fault Refusal :=
  let d := s.dev
  match d.pat.slotWrite with
  | none => .next s
  | some slot =>
    let d1 := { d with
      pat.slotWrite := none
      ledger.header := d.ledger.header.map (fun (h : LedgerHeader) =>
        if slot = 0 then { h with slotWear0 := h.slotWear0 + 1 } else { h with slotWear1 := h.slotWear1 + 1 }) }
    let d2 : Dev := d1.writeHeader
    if ok then
      let d3 : Dev := { d2 with
        pat.slot := slot
        pat.slotVersion := d.pat.version
        pat.durable := true
        pat.slotBytes := Tbl.set [] d2.pat.slotBytes slot d.pat.installed
        aon.floor := if d.aon.floor.toNat < d.pat.version.toNat then d.pat.version else d.aon.floor }
      .next { s with dev := d3.jPush d3.patslotEntry }
    else .next { s with dev := d2.patResult 0xA }

/-! ## Packets and image checks (R273 to R275) -/

/-- The words of a packet as they arrive, some of their bits inverted. -/
def flipWords (l : List Word) (flips : List (Fin 67 × Word)) : List Word :=
  flips.foldl (fun (l : List Word) f => l.modify f.1.val (fun x => x ^^^ f.2)) l

/-- The Wisp takes a packet that ends in this frame: the CRC, the round tag, the kind with its target, and the range decide (R274). A
header word of another kind starts no packet (R273); a buffer that showed a parity hit loses its packet (R465). -/
def Wisp.takePacket (w : Wisp) (p : Nat) (words : List Word) : Wisp :=
  let w0 := words.getD 0 0
  let seq := bitsOf w0 23 0
  let kind := bitsOf w0 31 28
  let body := (words.take 66).flatMap (fun x => leBytes 4 x.toNat)
  if kind = 0 || 4 ≤ kind then w
  else if w.pat.bufferHit || crc32c body ≠ words.getD 66 0 then { (w.add Reg.WS_PAT_CNT_PKT_CRC 1) with pat.bufferHit := false }
  else if (decide (kind = 1) || (decide (kind = 2) && decide (bitsOf (words.getD 1 0) 8 0 = p))) && decide (bitsOf w0 27 24 = w.pat.round) &&
      decide (w.pat.first ≤ seq) && decide (seq < w.pat.first + w.pat.count) then
    let i := seq - w.pat.first
    let got := if w.pat.bitmap.contains i then w.pat.bitmap else w.pat.bitmap ++ [i]
    { w with pat := { w.pat with
        image := Tbl.set [] w.pat.image i ((body.drop 8).take 256)
        bitmap := got
        checking := w.pat.checking || (!w.pat.bitmap.contains i && decide (got.length = w.pat.count)) } }
  else w

/-- PACKET_RECEIVE (R274): a packet that is on the channel in this frame reaches a Wisp, some of its bits inverted. DEDUCED (log entry
93). DEDUCED (log entry 175). -/
def execPacketReceive (bank : BankId) (pos : Pos) (packet : Received) (s : State) : Host.Outcome State Fault Refusal :=
  let d := s.dev
  let b := bank.val
  let p := pos.val
  if d.clock.stopped || d.bankDown b || (d.wisp b p).missed || !d.itemNow b packet.item then .next s
  else .next (s.onDev (fun d => d.modWisp b p (fun w => w.takePacket p (flipWords (d.itemWords packet.item) packet.flips))))

/-- The CRC of what the image store holds. -/
def WispPat.storeCrc (x : WispPat) : Word :=
  crc32c ((List.range x.count).flatMap (fun i => match Tbl.find x.image i with
    | some l => l
    | none => List.replicate 256 0))

/-- An image check that the Wisp has made of itself, where VALID stood: a failure clears VALID and asks for a late repair (R275). -/
def Dev.recheckImage (d : Dev) (b p : Nat) (ok : Bool) : Dev :=
  if ok then d.modWisp b p (fun w => { w with pat.unpowered := false })
  else
    let d1 := d.modWisp b p (fun w =>
      { (w.add Reg.WS_PAT_CNT_IMG_CRC 1) with pat.valid := false, pat.bitmap := [], pat.unpowered := false })
    { d1 with pat.lateQueue := d1.pat.lateQueue ++ [(b, p)] }

/-- The check of a full bitmap: VALID, or the bitmap is cleared; VALID ends the cause PATTERN_MISSING (R275, R277). -/
def Dev.firstCheck (d : Dev) (b p : Nat) (ok : Bool) : Dev :=
  if ok then
    (d.modWisp b p (fun w => { w with pat.valid := true, pat.unpowered := false })).hEvent (coreUnit b p) .patPresent
  else d.modWisp b p (fun w => { (w.add Reg.WS_PAT_CNT_IMG_CRC 1) with pat.bitmap := [], pat.unpowered := false })

/-- IMAGE_CHECK_DONE (R275): the image check that a full bitmap, a due test or a loss of supply asked for ends. What the store holds after
its core lost its supply is not stated: such a check finds a free result. -/
def execImageCheckDone (bank : BankId) (pos : Pos) (s : State) : Host.Outcome State Fault Refusal :=
  let d := s.dev
  let b := bank.val
  let p := pos.val
  let x := (d.wisp b p).pat
  if d.bankDown b || (d.wisp b p).missed || !x.checking then .next s
  else
    let (n, d0) := d.draw
    let (ok, d1) := if x.unpowered then (decide (Config.freeChoice n % 2 = 0), d0) else (decide (x.storeCrc = x.crc), d)
    let d2 := d1.modWisp b p (fun w => { w with pat.checking := false })
    .next { s with dev := if x.valid then d2.recheckImage b p ok else d2.firstCheck b p ok }

/-! ## Tails, late repair and retry (R276 to R279) -/

/-- The end of a tail for the round: finish, repair, or PATTERN_MISSING after the third repair round. -/
def Dev.roundTail (d : Dev) (b : Nat) : Dev :=
  let need := d.needRepair b
  if need.isEmpty then d.bankFinished b
  else if (d.bank b).patRepair < 3 then d.startRepair b
  else (need.foldl (fun (acc : Dev) p =>
    if (d.wisp b p).pat.valid then acc else acc.patternMissing (coreUnit b p)) d).bankFinished b

/-- The end of a tail for one late repair: done, tried again, or PATTERN_MISSING after three attempts (R278). -/
def Dev.lateTail (d : Dev) (x : (Nat × Nat) × Nat) : Dev :=
  let w := d.wisp x.1.1 x.1.2
  let others := d.pat.lateRun.filter (fun y => decide (y.1 ≠ x.1))
  if w.validNow then { d with pat.lateRun := others }
  else if x.2 < 3 then
    ({ d with pat.lateRun := others ++ [(x.1, x.2 + 1)] }).sendImage x.1.1 x.1.2
  else ({ d with pat.lateRun := others }).patternMissing (coreUnit x.1.1 x.1.2)

/-- A Bank's tail has run: 6 frames since its channel fell idle, and the image checks have ended or had 64 frames more (R276 step 3). -/
def Dev.tailRun (d : Dev) (b : Nat) : Bool :=
  let k := d.bank b
  let checks := (List.range 264).any (fun p => (d.wisp b p).pat.checking && !(d.wisp b p).missed)
  k.patOut.isEmpty && decide (7 ≤ k.patTail) && (!checks || decide (71 ≤ k.patTail))

/-- BROADCAST_TAIL_END (R276 step 3, R278): a Bank's tail ends and it reads its Wisps, for the round and for its late repairs. DEDUCED (log entry 91). -/
def execBroadcastTailEnd (bank : BankId) (s : State) : Host.Outcome State Fault Refusal :=
  let d := s.dev
  let b := bank.val
  if d.clock.stopped || d.bankDown b || !d.tailRun b then .next s
  else
    let late := d.pat.lateRun.filter (fun x => decide (x.1.1 = b))
    let inRound := (decide (d.pat.phase = 2) || decide (d.pat.phase = 3)) && d.pat.banksLeft.contains b
    let d1 := if inRound then d.roundTail b else d
    .next { s with dev := late.foldl Dev.lateTail d1 }

/-- LATE_REPAIR (R278): a Wisp that asks for it is reprogrammed with the current round tag and sent its whole image. DEDUCED (log entry 89). -/
def execLateRepair (bank : BankId) (pos : Pos) (s : State) : Host.Outcome State Fault Refusal :=
  let d := s.dev
  let b := bank.val
  let p := pos.val
  let u := coreUnit b p
  if d.clock.stopped || d.bankDown b || !d.pat.lateQueue.contains (b, p) || d.excludes u || d.pat.installed.isEmpty then .next s
  else .next (s.onDev (fun d =>
    let d1 := { d with
      pat.lateQueue := d.pat.lateQueue.filter (fun (x : Nat × Nat) => decide (x ≠ (b, p)))
      pat.lateRun := d.pat.lateRun.filter (fun (x : (Nat × Nat) × Nat) => decide (x.1 ≠ (b, p))) ++ [((b, p), 1)] }
    ((d1.modWisp b p (d.programWisp u)).bumpZ Reg.ZN_PAT_CNT_LATE).sendImage b p))

/-- RETRY_ROUND (R279, R280): a retry period has passed; one reached during a round is skipped. -/
def execRetryRound (s : State) : Host.Outcome State Fault Refusal :=
  let d := s.dev
  let e := d.zf Reg.ZN_PAT_RETRY 5 0
  if e = 0 || d.clock.stopped || decide (d.clock.frame < d.pat.retryAt + 2 ^ e) then .next s
  else
    let d1 := { d with pat.retryAt := d.clock.frame }
    .next { s with dev := if !d.lackImage.isEmpty && d.pat.phase = 0 && d.pat.installed ≠ [] then d1.startRetry else d1 }

/-! ## The package at start (R272) -/

/-- The bytes of a candidate: ledger slot 0 or 1, or 2 the PATTERNS section. -/
def Dev.candBytes (d : Dev) (i : Nat) : List Byte := if i = 2 then d.cfg.patterns else Tbl.get [] d.pat.slotBytes i

/-- The candidates at a start, highest VERSION first, those below the floor left out; the slots of an absent module cannot be read. DEDUCED (log entry 92). -/
def Dev.candidates (d : Dev) : List Nat :=
  let ok (i : Nat) : Bool :=
    let l := d.candBytes i
    (decide (i = 2) || decide (d.ledger.state ≠ .absent)) && decide (fieldAt l 0 4 = 0x4B50444F) && decide (64 ≤ l.length) &&
      decide (d.aon.floor.toNat ≤ pkgVersion l)
  ([0, 1, 2].filter ok).mergeSort (fun a b => decide (pkgVersion (d.candBytes b) ≤ pkgVersion (d.candBytes a)))

/-- A candidate passes rows 3 to 5 of R269; one whose digest is the verification cache's skips the signature (R272). -/
def Dev.candOk (d : Dev) (l : List Byte) : Bool :=
  pkgFormatOk l && pkgTargetOk l && ((d.aon.cacheValid && decide (d.aon.cacheDigest = pkgDigest l)) || d.pkgSigOk l)

/-- No candidate was accepted: PAT_NONE with an alert, and every core lacks an image (R272). -/
def Dev.noPackage (d : Dev) : Dev :=
  let d1 := (d.zEvent 4 0x45 0 0 0 0 0).eventNotice true 0xFF 4 0x45 0 0 0 0 0
  (List.range 50688).foldl (fun (acc : Dev) u => acc.patternMissing u) d1

/-- A candidate is accepted: installed, durable where it is the active slot's, and its round starts. -/
def Dev.acceptCandidate (d : Dev) (i : Nat) (l : List Byte) : Dev :=
  let d1 := ({ d with pat.readsLeft := [] }).installPackage l
  ({ d1 with pat.durable := decide (i = d.pat.slot) && decide (i ≠ 2) && decide (d.ledger.state = LedgerState.bound) }).startRound

/-- Try the candidates left: PATTERNS is there already; a slot waits for its read. -/
def Dev.tryCandidates (d : Dev) : Nat → Dev
  | 0 => d
  | n + 1 =>
    match d.pat.readsLeft with
    | [] => d.noPackage
    | i :: rest =>
      if i ≠ 2 then d
      else if d.candOk d.cfg.patterns then d.acceptCandidate 2 d.cfg.patterns
      else ({ d with pat.readsLeft := rest }).tryCandidates n

/-- Step 8 of the start: the choice of a package begins (R272). -/
def Dev.startPackage (d : Dev) : Dev := ({ d with pat.readsLeft := d.candidates }).tryCandidates 4

/-- PACKAGE_SLOT_READ_DONE (R272): the slot of the chosen candidate has been read; it is checked and installed, or the next is
tried. -/
def execPackageSlotReadDone (bytes : List Byte) (s : State) : Host.Outcome State Fault Refusal :=
  let d := s.dev
  match d.pat.readsLeft with
  | [] => .next s
  | i :: rest =>
    if i = 2 then .next s
    else if d.candOk bytes then .next { s with dev := d.acceptCandidate i bytes }
    else .next (s.onDev (fun d => ({ d with pat.readsLeft := rest }).tryCandidates 4))

end Sys2Proof.Machine
end

