-- ==== Sys2Proof/Machine/Shutdown.lean ====
section
/-! DEFINITION. The orderly shutdown (R283 to R305): its request, quiesce and checkpoint, the array self-test with row repair, the
core tests, fuses, and the certificate. -/

namespace Sys2Proof.Machine

/-! ## Requesting (R283, R287) -/

/-- RESULT of ZN_SD_STAT. -/
def Dev.sdResult (d : Dev) (r : Nat) : Dev := d.setZf Reg.ZN_SD_STAT 7 4 r

/-- A context from 1 to 1,023 is neither FREE nor COOLING. -/
def Dev.ctxOpen (d : Dev) : Bool :=
  d.ctxs.any (fun e => decide (e.1 ≠ 0) && decide (e.2.core.state ≠ .free) && decide (e.2.core.state ≠ .cooling))

/-- The counters of a shutdown that registers hold, cleared at acceptance (R304); those of cores are counted as they are read. -/
def sdCounters : List Nat := [Reg.ZN_SD_ROWS, Reg.ZN_SD_FUSES, Reg.ZN_SD_UNITS_FAIL]

/-- The cores whose last result in this shutdown is `r`: 0 PASS, 1 FAIL, 2 VOID (R304). -/
def Shutdown.ended (x : Shutdown) (r : Nat) : Nat := (x.tested.filter (fun e => decide (e.2 = r))).length

/-- The cores not tested: those skipped, of Banks out of service, and unquiesced (R288, R303, R304). -/
def Shutdown.left (x : Shutdown) : Nat := x.notRun.length + (x.unquiesced.filter (fun u => !x.notRun.contains u)).length

/-- Cores that are not tested, each once. -/
def Shutdown.skip (x : Shutdown) (units : List Nat) : Shutdown :=
  { x with notRun := x.notRun ++ units.filter (fun u => !x.notRun.contains u && !x.tested.any (fun e => decide (e.1 = u))) }

/-- SHUTDOWN requested from the host path or another: the result, and the state with it (R283). -/
def Dev.startShutdown (d : Dev) (host : Bool) : Dev × Nat :=
  let done (r : Nat) : Dev × Nat := (d.sdResult r, r)
  if d.sdActive || d.dbgHold 0 then done 2
  else if d.clock.stopped then done 4
  else if host && d.locked then done 5
  else if d.ctxOpen then done 3
  else
    let d1 := (sdCounters.foldl (fun (acc : Dev) o => acc.setZ o 0) d).modBanks (fun _ k => { k with arrayDone := false, arrayFail := false })
    ((({ d1 with sd := { Shutdown.init with quiescePend := true, hold := d1.sd.hold } }).setZf Reg.ZN_SD_STAT 18 16 0).sdResult 1, 1)

/-- SHUTDOWN of ZN_SD_CMD. -/
def execShutdown (p : Path) (s : State) : Host.Outcome State Fault Refusal :=
  .next (s.onDev (fun d => d.cmdZ p Reg.ZN_SD_CMD 1 (fun d => (d.startShutdown (pathHost p)).1)))

/-- CANCEL of ZN_SD_CMD (R287): during QUIESCE or CHECKPOINT it ends the shutdown, and the control cores are released at the next tick; from
ARRAY onward it is LATE; with none in progress it changes nothing. -/
def Dev.cancelShutdown (d : Dev) : Dev :=
  if d.sd.quiescePend || d.sd.phase = 1 || d.sd.phase = 2 then
    ({ d with sd.phase := 0, sd.quiescePend := false, sd.releasing := true }).sdResult 6
  else if 3 ≤ d.sd.phase && d.sd.phase ≤ 7 then d.sdResult 7
  else d

/-- SD_CANCEL. -/
def execSdCancel (p : Path) (s : State) : Host.Outcome State Fault Refusal :=
  .next (s.onDev (fun d => d.cmdZ p Reg.ZN_SD_CMD 2 Dev.cancelShutdown))

/-- SD_LIMIT_EXPIRE (R285): ZN_SD_LIMIT has passed since the QUIESCE tick. -/
def execSdLimitExpire (s : State) : Host.Outcome State Fault Refusal :=
  let d := s.dev
  if d.sd.phase = 0 || 7 ≤ d.sd.phase || decide (d.clock.frame < d.sd.startFrame + d.zf Reg.ZN_SD_LIMIT 24 0) then .next s
  else .next { s with dev := d.sdAbort 1 }

/-! ## Quiesce and checkpoint (R288, R289) -/

/-- The units in Eclipse, or in another state. -/
def Dev.unitsIn (d : Dev) (h : Health) : List Nat := (d.health.uht.filter (fun e => decide (e.2.state = h))).map Prod.fst

/-- The QUIESCE tick (R288). -/
def Dev.beginQuiesce (d : Dev) : Dev :=
  { d with sd := { d.sd with phase := 1, quiescePend := false, hold := true, startFrame := d.clock.frame, eclipse0 := d.unitsIn .eclipse } }

/-- The cores with a command in progress. -/
def Dev.cmdCores (d : Dev) : List Nat := (d.wisps.filter (fun e => e.2.inProgress && !d.bankDown (e.1 / 264))).map Prod.fst

/-- QUIESCE_LIMIT (R288): a core whose command has not ended after ZN_SD_QUIESCE frames is unquiesced. -/
def execQuiesceLimit (s : State) : Host.Outcome State Fault Refusal :=
  let d := s.dev
  if d.sd.phase ≠ 1 || decide (d.clock.frame < d.sd.startFrame + d.zf Reg.ZN_SD_QUIESCE 19 0) then .next s
  else .next (s.onDev (fun d => { d with sd.unquiesced := d.cmdCores }))

/-- QUIESCE_END (R288, R289): every core is idle or unquiesced; CHECKPOINT begins with a complete checkpoint. -/
def execQuiesceEnd (s : State) : Host.Outcome State Fault Refusal :=
  let d := s.dev
  if d.sd.phase ≠ 1 || !d.cmdCores.all (fun u => d.sd.unquiesced.contains u) then .next s
  else .next (s.onDev (fun d => ({ d with sd.phase := 2 }).checkpoint))

/-- Nothing waits for the ledger. -/
def Dev.drained (d : Dev) : Bool := d.jnl.waiting.isEmpty && d.jnl.staging.isEmpty

/-- A sealed write to the ledger is possible (R289, R378). -/
def Dev.ledgerOk (d : Dev) : Bool := decide (d.ledger.state = .bound) && !d.jnl.volatileRun && d.ledger.keyHeld

/-- SD_RECORDS_END, which each Bank's record store puts into its ring as any record: after an owed REC_LOST, and lost where the ring is
frozen or full (R289, R366, R367, R370). DEDUCED (log entry 99). -/
def Dev.recordsEnd (d : Dev) : Dev :=
  let (n, d0) := d.draw
  d0.modBanks (fun b k =>
    if d.bankDown b then k
    else
      let f := d.bankFrame b
      let zc := (Config.freeZc n).val
      let r := k.ring.flush f zc
      { k with ring := r.take f zc (storeRec f zc 0x06 0 (w32 r.count) 0 0 0) none })

/-- CHECKPOINT_END (R289): the ledger is up to date, each Bank records SD_RECORDS_END, and ARRAY begins; a volatile journal or a
failed write ends the shutdown. -/
def execCheckpointEnd (ok : Bool) (s : State) : Host.Outcome State Fault Refusal :=
  let d := s.dev
  if d.sd.phase ≠ 2 then .next s
  else if !ok || !d.ledgerOk then .next { s with dev := d.sdAbort 4 }
  else if !d.drained then .next s
  else .next (s.onDev (fun d => { d.recordsEnd with sd.phase := 3 }))

/-! ## Array self-test (R290 to R293, R296) -/

/-- The arrays of a Bank after the destructive march tests: ring, queues, stager and channel contexts are empty. -/
def Bank.destroyed (k : Bank) : Bank :=
  { k with
    ring := Bank.init.ring
    anv := { k.anv with queue := [], done := [], ctxs := [], presented := [], held := [] }
    dbg := { Bank.init.dbg with withheld := k.dbg.withheld } }

/-- The arrays of a Wisp after them: record, counters, pending samples and the receive bitmap. -/
def Wisp.destroyed (w : Wisp) : Wisp :=
  { w with hist := [], extremes := [], counters := [], pend := [], presented := 0, holdReq := false, tiles := [], pat.bitmap := [] }

/-- At the first tick of ARRAY the tests destroy what the arrays held. DEDUCED (log entry 95). -/
def Dev.destroyArrays (d : Dev) : Dev :=
  { d with
    sd.destroyed := true
    banks := Tbl.mapAll Bank.init (fun b k => if d.bankDown b then k else k.destroyed) d.banks
    wisps := Tbl.mapAll Wisp.init (fun u w => if d.bankDown (u / 264) then w else w.destroyed) d.wisps }

/-- A frame of ARRAY is within its window (R296): ZCLK as measured, and Odtil's supply. -/
def Dev.windowNow (d : Dev) : Bool :=
  let z := d.clock.zclkKhz * 100
  let t := d.cfg.sdZclk
  d.pins.odtSupplyOk && decide (98 * t ≤ z) && decide (z ≤ 102 * t)

/-- The spare rows of an array (R291), `slicePort` what the slice repair port reports. -/
def spareRows (array slicePort : Nat) : Nat :=
  if array ≤ 4 then 4 else if array = 5 then 2 else if 0x20 ≤ array && array ≤ 0x24 then 1 else if array = 0x40 then slicePort else 0

/-- The Bank and the position field of a location in a repair entry (R297). -/
def failPlace (x : ArrayFail) : Option (Nat × Nat) :=
  match x.loc with
  | .zenith => none
  | .bank b => some (b.val, 0x1FF)
  | .wisp b p => some (b.val, p.val)

/-- An entry for the same array. -/
def RepairRow.sameArray (r : RepairRow) (pos array : Nat) : Bool :=
  decide (r.kind = 1) && decide (r.pos = pos) && decide (r.array = array)

/-- A free spare row of an array: one that no entry uses and that has not failed. -/
def freeSpare (rows : List RepairRow) (bad : List (Nat × Nat × Nat × Nat)) (b pos array slicePort : Nat) : Option Nat :=
  (List.range (spareRows array slicePort)).find? (fun k =>
    !bad.contains (b, pos, array, k) && !rows.any (fun r => r.sameArray pos array && decide (r.dst = k)))

/-- A self-test failure: T2 FAIL of the Bank, of its Anvil (array 0x04 and the known products), or of the Wisp's core; a unit that it
sends to Eclipse is counted (R292, R304). DEDUCED (log entry 96). -/
def Dev.arrayFailed (d : Dev) (x : ArrayFail) : Dev :=
  match failPlace x with
  | none => d
  | some (b, pos) =>
    let u := if pos = 0x1FF then (if x.array.toNat = 4 || x.row.isNone then anvilUnit b else bankUnit b) else coreUnit b pos
    let was := d.healthOf u
    let d1 := (d.modBank b (fun k => { k with arrayFail := true })).hEvent u (.testFail 2)
    let d2 := { d1 with sd.failedRows := d1.sd.failedRows ++ [(b, pos, x.array.toNat)] }
    if was ≠ .eclipse && d2.healthOf u == .eclipse then
      d2.setZf Reg.ZN_SD_UNITS_FAIL 15 0 (min 0xFFFF (d2.zf Reg.ZN_SD_UNITS_FAIL 15 0 + 1))
    else d2

/-- The repair table of a Bank changed; a changed table is journaled (R376). -/
def Dev.setRepairs (d : Dev) (b : Nat) (rows made : List RepairRow) : Dev :=
  if rows = (d.bank b).repairs then d
  else
    let d1 := d.modBank b (fun k => { k with repairs := rows, newRows := k.newRows ++ made })
    d1.jPush (d1.repairEntry b)

/-- A failing row of a Bank's or a Wisp's array (R292): a repair that the row had before has failed with its spare, and its entry is freed;
a free spare takes the row, with a soft entry, and the test is repeated; without a spare or an entry, or where that test fails, the array
has failed. A slice's repair goes out on the slice repair port (R511). DESIGN CHOICE (log entry 189). -/
def Dev.repairRow (d : Dev) (x : ArrayFail) (b pos row : Nat) : Dev :=
  let a := x.array.toNat
  let rows := (d.bank b).repairs
  let old := rows.filter (fun r => r.sameArray pos a && decide (r.frm = row))
  let others := rows.filter (fun r => !(r.sameArray pos a && decide (r.frm = row)))
  let bad := d.sd.badSpares ++ old.map (fun r => (b, pos, a, r.dst))
  let d1 := ({ d with sd.badSpares := bad }).setZf Reg.ZN_SD_ROWS 15 0 (min 0xFFFF (d.zf Reg.ZN_SD_ROWS 15 0 + 1))
  match freeSpare rows bad b pos a x.slicePort.toNat with
  | none => (d1.setRepairs b others []).arrayFailed x
  | some k =>
    if 64 ≤ others.length then (d1.setRepairs b others []).arrayFailed x
    else
      let entry : RepairRow := { kind := 1, fused := false, badFuse := false, pos := pos, array := a, frm := row, dst := k }
      let d2 := d1.setRepairs b (others ++ [entry]) [entry]
      let d3 := if a = 0x40 then d2.modBank b (fun y => { y with srep := some (pos, row, k) }) else d2
      if x.retestFails then d3.arrayFailed x
      else d3.setZf Reg.ZN_SD_ROWS 31 16 (min 0xFFFF (d3.zf Reg.ZN_SD_ROWS 31 16 + 1))

/-- One failure of the array self-test (R292, R293); an isolated Bank or Anvil is not tested. -/
def Dev.oneFailure (d : Dev) (x : ArrayFail) : Dev :=
  match failPlace x, x.row with
  | none, r =>
    let row := (r.map (fun (v : BitVec 16) => v.toNat)).getD 0
    let a := w32 x.array.toNat
    (({ d with sd.zenithFail := true }).zEvent 8 0x70 0 a (w32 row) 0 0).eventNotice true 0xFF 8 0x70 0 a (w32 row) 0 0
  | some (b, pos), r =>
    if d.bankDown b || (pos = 0x1FF && (d.bank b).anv.isolated && (x.array.toNat = 4 || r.isNone)) then d
    else match r with
      | some row => d.repairRow x b pos row.toNat
      | none => d.arrayFailed x

/-! ## Core tests (R294, R295) -/

/-- The tier of CORE_TIER, where core tests run at all. -/
def Dev.sdTier (d : Dev) : Option Nat :=
  if d.zf Reg.ZN_SD_CTL 1 0 = 0 || d.zf Reg.ZN_SD_CTL 9 5 = 0 then none else some (d.zf Reg.ZN_SD_CTL 1 0 - 1)

/-- A core can be tested in CORES: quiesced, with a valid image. -/
def Dev.sdCanTest (d : Dev) (b p : Nat) : Bool :=
  !d.sd.unquiesced.contains (coreUnit b p) && d.imageReady b p && (d.testOn b p).isNone

/-- Stash room for the saves of a whole group (R295). -/
def Dev.groupRoom (d : Dev) (b tier : Nat) (ps : List Nat) : Bool :=
  stashFits d.stashSize ((ps.filter (fun p => ((d.bank b).cc.logicalOf p).isSome)).map (fun _ => stashBytes tier)) d.stashTaken

/-- At a tick outside a stop, launch the group of a Bank that is due: the next positions at CORE_TIER, then the cores to test deep; it waits
while there is no stash room (R244, R250, R294, R295). -/
def Dev.launchGroup_ (d : Dev) (b : Nat) : Dev :=
  let n := d.zf Reg.ZN_SD_CTL 9 5
  let from_ := Tbl.get 0 d.sd.nextPos b
  let ps := (List.range 264).drop from_
  let can := (ps.filter (fun p => d.sdCanTest b p)).take n
  let upto := if ps.length = 0 then 264 else match can.getLast? with
    | some p => if can.length < n then 264 else p + 1
    | none => 264
  let deep := (Tbl.get [] d.sd.deep b).take n
  let (group, tier) := if ps.isEmpty then (deep, 2) else (can, (d.sdTier).getD 0)
  if !d.groupRoom b tier group then d
  else
    let skipped := ((ps.takeWhile (fun p => decide (p < upto))).filter (fun p => !d.sdCanTest b p)).map (fun p => coreUnit b p)
    let d1 := group.foldl (fun (acc : Dev) p => acc.startTest b p tier true false none) d
    { d1 with
      sd := { d1.sd.skip skipped with
        groupDue := d1.sd.groupDue.filter (fun x => decide (x ≠ b))
        nextPos := Tbl.set 0 d1.sd.nextPos b upto
        deep := if ps.isEmpty then Tbl.set [] d1.sd.deep b ((Tbl.get [] d1.sd.deep b).drop n) else d1.sd.deep } }

/-- The groups that wait are launched where they can be. -/
def Dev.launchGroups (d : Dev) : Dev :=
  if d.clock.stopped then d else d.sd.groupDue.foldl (fun (acc : Dev) b => acc.launchGroup_ b) d

/-! ## Repair and certificate (R298 to R301) -/

/-- The budget of fuse entries that a Bank has left. DEDUCED (log entry 98). -/
def Dev.fuseBudget (d : Dev) (b : Nat) : Nat := 64 - (Tbl.get (0, []) d.aon.fuses b).1

/-- The array of a row repair was tested in this shutdown (R290, R298). -/
def Dev.arrayTested (d : Dev) (b : Nat) (r : RepairRow) : Bool :=
  !d.sd.untested.contains (bankUnit b) && !(decide (r.pos = 0x1FF) && decide (r.array = 4) && d.sd.untested.contains (anvilUnit b))

/-- An entry may be fused now (R298): one made since the last start never is. -/
def Dev.fusable (d : Dev) (b : Nat) (r : RepairRow) : Bool :=
  let policy := d.zf Reg.ZN_SD_CTL 4 3
  let kindOk := (decide (r.kind = 1) && (decide (policy = 1) || decide (policy = 2))) || (decide (r.kind = 2) && decide (policy = 2))
  let passed := if r.kind = 1 then !d.sd.windowBad && d.arrayTested b r && !d.sd.failedRows.contains (b, r.pos, r.array)
    else d.sd.tested.contains (coreUnit b r.dst, 0)
  kindOk && !r.fused && !(d.bank b).newRows.contains r && passed && !d.bankDown b && d.pins.fusePwrOk && decide (0 < d.fuseBudget b)

/-- Every core that is not in Eclipse ended PASS (R301). -/
def Dev.allPassed (d : Dev) : Bool :=
  (List.range 50688).all (fun u => decide (d.healthOf u = Health.eclipse) || d.sd.tested.contains (u, 0))

/-- A unit went to Eclipse in this shutdown, other than by a core test (R301). -/
def Dev.otherEclipse (d : Dev) : Bool :=
  (d.unitsIn .eclipse).any (fun u => !d.sd.eclipse0.contains u && (d.sd.eclipse1.contains u || (match coreOfUnit u with
    | some c => !d.sd.tested.contains (c, 1)
    | none => true)))

/-- WINDOW_OK of the certificate. -/
def Dev.windowOk (d : Dev) : Bool := !d.sd.windowBad

/-- CLEAN of the certificate (R301, R303): an alarm raised since acceptance counts, whether or not its level still stands. -/
def Dev.sdClean (d : Dev) : Bool :=
  d.windowOk && !d.sd.zenithFail && !d.otherEclipse && decide (d.aon.alarmLevel = 0) && !d.sd.alarmed && d.sd.unquiesced.isEmpty

/-- Repair entries over all Banks that satisfy `f`. -/
def Dev.countRows (d : Dev) (f : RepairRow → Bool) : Nat := sumNat (d.banks.map (fun e => (e.2.repairs.filter f).length))

/-- The 32 words of the certificate (R300). -/
def Dev.certWords (d : Dev) (zc : Nat) : List Word :=
  let tier := d.zf Reg.ZN_SD_CTL 1 0
  let flags := bit d.sdClean + 2 * bit d.windowOk + 4 * bit d.sd.fusedAny + 8 * bit (decide (2 ≤ tier) && d.allPassed)
  [0x54434453, w32 (1 + 65536 * flags + 16777216 * tier)] ++ leWords 4 Config.chipId.toNat ++ leWords 2 d.ledger.uid.toNat ++
    [d.jnl.start, 0] ++ leWords 2 (mkStamp d.clock.frame zc).toNat ++ toWords 12 (digestBytes d.cfg.digest) ++
    [w32 (d.unitsIn .eclipse).length, w32 (d.countRows (fun r => !r.fused)), w32 (d.countRows (fun r => r.fused)), 0, 0, 0, 0, 0]

/-- CERT begins: the certificate is appended (R300). -/
def Dev.enterCert (d : Dev) : Dev :=
  let (n, d1) := d.draw
  ({ d1 with sd.phase := 6, sd.clean := d1.sdClean }).jPush (.cert (d1.certWords (Config.freeZc n).val))

/-- The next entry to fuse, or CERT (R299). -/
def Dev.nextFuse (d : Dev) : Dev :=
  match d.sd.fuseLeft.filter (fun x => d.fusable x.1 x.2) with
  | [] => ({ d with sd.fuseLeft := [] }).enterCert
  | l => { d with sd.fuseLeft := l, sd.fuseDrop := false }

/-- REPAIR begins (R298): the soft entries went to the journal as they were made (R376); every entry may now be fused. -/
def Dev.enterRepair (d : Dev) : Dev :=
  ({ d with sd.phase := 5, sd.fuseLeft := d.banks.flatMap (fun (e : Nat × Bank) => e.2.repairs.map (fun r => (e.1, r))) }).nextFuse

/-- The cores of Banks. -/
def coresIn (banks : List Nat) : List Nat := banks.flatMap (fun b => (List.range 264).map (fun p => coreUnit b p))

/-- CORES begins: every Bank in service launches its first group at the next tick, and the cores of the others are not run; without core
tests REPAIR follows at once (R294, R303). -/
def Dev.enterCores (d : Dev) : Dev :=
  let d1 := { d with sd.phase := 4, sd.eclipse1 := d.unitsIn .eclipse, sd.overcast1 := d.unitsIn .overcast }
  let down := (List.range 192).filter d.bankDown
  let d2 := { d1 with sd := d1.sd.skip (coresIn down) }
  match d2.sdTier with
  | none => d2.enterRepair
  | some _ =>
    let banks := (List.range 192).filter (fun b => !d2.bankDown b)
    if banks.isEmpty then d2.enterRepair else { d2 with sd.banksLeft := banks, sd.groupDue := banks }

/-- ARRAY_TEST_END (R290, R292, R296): every array test has ended. Outside its window every result is VOID. -/
def execArrayTestEnd (failures : List ArrayFail) (s : State) : Host.Outcome State Fault Refusal :=
  let d := s.dev
  if d.sd.phase ≠ 3 || !d.sd.destroyed then .next s
  else
    let bad := d.sd.windowBad || !d.windowNow
    let d1 := ({ d with sd.windowBad := bad }).setZf Reg.ZN_SD_STAT 10 10 (bit (!bad))
    let untested := ((List.range 192).filter d1.bankDown).map bankUnit ++ ((List.range 192).filter (fun b => (d1.bank b).anv.isolated)).map anvilUnit
    let d2 := ({ d1 with sd.untested := untested }).modBanks (fun b k => if d1.bankDown b then k else { k with arrayDone := true })
    .next { s with dev := (if bad then d2 else failures.foldl Dev.oneFailure d2).enterCores }

/-- A core of the Bank that has entered Overcast during CORES is remapped, where REMAP_OVC asks for it, and is to be tested deep
(R295); no request is posted to the control core. -/
def Dev.deepCore (d : Dev) (b p : Nat) : Dev :=
  let d1 := match (d.bank b).cc.logicalOf p, d.spareOf b with
    | some n, some q => if bitOf (d.zreg Reg.ZN_TST_CTL) 4 then d.mapCore b n q false else d
    | _, _ => d
  { d1 with sd.deep := Tbl.set [] d1.sd.deep b (Tbl.get [] d1.sd.deep b ++ [p]), sd.overcast1 := d1.sd.overcast1 ++ [coreUnit b p] }

/-- The cores of a Bank that have entered Overcast since CORES began. DEDUCED (log entry 97). -/
def Dev.newOvercast (d : Dev) (b : Nat) : List Nat :=
  (List.range 264).filter (fun p => decide (d.healthOf (coreUnit b p) = Health.overcast) && !d.sd.overcast1.contains (coreUnit b p))

/-- CORE_TEST_GROUP_END (R294, R295): the tests of a Bank's group have ended; the next group follows, then the deep tests; with the
last Bank REPAIR begins. -/
def execCoreTestGroupEnd (bank : BankId) (s : State) : Host.Outcome State Fault Refusal :=
  let d := s.dev
  let b := bank.val
  if d.sd.phase ≠ 4 || !d.sd.banksLeft.contains b || d.sd.groupDue.contains b || (d.bank b).testList.any (fun x => x.2.shutdown) then
    .next s
  else
    let d1 := if bitOf (d.zreg Reg.ZN_SD_CTL) 2 then (d.newOvercast b).foldl (fun (acc : Dev) p => acc.deepCore b p) d else d
    let more := (decide (Tbl.get 0 d1.sd.nextPos b < 264) || decide (Tbl.get [] d1.sd.deep b ≠ [])) && !d1.bankDown b
    if more then .next { s with dev := { d1 with sd.groupDue := d1.sd.groupDue ++ [b] } }
    else
      let left := d1.sd.banksLeft.filter (fun x => decide (x ≠ b))
      let d2 := { d1 with sd.banksLeft := left }
      .next { s with dev := if left.isEmpty then d2.enterRepair else d2 }

/-- FUSE_ENTRY_DONE (R299): the write of the entry at the head and its read-back have ended; a failed read-back, or fuse power lost at a tick
of the write or now, leaves it soft with BADFUSE. Either way a budget unit is used. -/
def execFuseEntryDone (bank : BankId) (ok : Bool) (s : State) : Host.Outcome State Fault Refusal :=
  let d := s.dev
  let b := bank.val
  match d.sd.phase, d.sd.fuseLeft with
  | 5, (b0, r) :: rest =>
    if b0 ≠ b then .next s
    else
      let good := ok && d.pins.fusePwrOk && !d.sd.fuseDrop
      let r1 : RepairRow := if good then { r with fused := true, badFuse := false } else { r with badFuse := true }
      let f := Tbl.get (0, []) d.aon.fuses b
      let d1 := d.modBank b (fun k => { k with repairs := k.repairs.map (fun x => if x = r then r1 else x) })
      let d2 := { d1 with
        sd.fuseLeft := rest
        sd.fusedAny := d1.sd.fusedAny || good
        aon.fuses := Tbl.set (0, []) d1.aon.fuses b (f.1 + 1, if good then f.2 ++ [r1] else f.2) }
      let d3 := if good then d2.setZf Reg.ZN_SD_FUSES 15 0 (min 0xFFFF (d2.zf Reg.ZN_SD_FUSES 15 0 + 1))
        else d2.setZf Reg.ZN_SD_FUSES 31 16 (min 0xFFFF (d2.zf Reg.ZN_SD_FUSES 31 16 + 1))
      .next { s with dev := (d3.jPush (d3.repairEntry b)).nextFuse }
  | _, _ => .next s

/-- CERT_DONE (R300): the certificate has been written and read back, and the shutdown is DONE; a failed read-back or a ledger that
takes no sealed write ends it. -/
def execCertDone (ok : Bool) (s : State) : Host.Outcome State Fault Refusal :=
  let d := s.dev
  if d.sd.phase ≠ 6 then .next s
  else if !ok || !d.ledgerOk then .next { s with dev := d.sdAbort 4 }
  else if !d.drained then .next s
  else .next (s.onDev (fun d => (({ d with sd.phase := 7 }).setZf Reg.ZN_SD_STAT 8 8 (bit d.sd.clean)).sdNotice false 7))

/-! ## What a tick does for the shutdown -/

/-- At a tick: a cancelled shutdown lets the control cores go, QUIESCE begins, ARRAY destroys the arrays and its window is watched, a Bank
isolated in CORES drops out, groups are launched, and fuse power is watched. -/
def Dev.sdTick (d0 : Dev) : Dev :=
  let d := if d0.sd.releasing then { d0 with sd.releasing := false, sd.hold := false } else d0
  if d.sd.quiescePend then d.beginQuiesce
  else if d.sd.phase = 3 then
    let d1 := if d.sd.destroyed then d else d.destroyArrays
    if d1.windowNow then d1 else { d1 with sd.windowBad := true }
  else if d.sd.phase = 4 then
    let left := d.sd.banksLeft.filter (fun b => !d.bankDown b)
    let gone := d.sd.banksLeft.filter d.bankDown
    let d1 := { d with sd := { d.sd.skip (coresIn gone) with banksLeft := left, groupDue := d.sd.groupDue.filter (fun b => !d.bankDown b) } }
    if left.isEmpty then d1.enterRepair else d1.launchGroups
  else if d.sd.phase = 5 && !d.pins.fusePwrOk then { d with sd.fuseDrop := true }
  else d

end Sys2Proof.Machine
end

