-- ==== Sys2Proof/Machine/Protection.lean ====
section
/-! DEFINITION. Storage protection and scrub: the pages of the stores and their decodes with the outcome of an uncorrectable page, hits on
datapaths, the patrol, host memory error reports, and the host memory scrub (R457 to R476). -/

namespace Sys2Proof.Machine

/-- A cause of a chip reset that is asserted at the next tick; one that waits, or stands, is not replaced (R355, R356). -/
def Dev.wantChipReset (d : Dev) (cause : Nat) : Dev :=
  if d.hang.chipReset || d.hang.chipCause.isSome then d else { d with hang.chipCause := some cause }

/-! ## Pages (R459 to R464) -/

/-- The Bank whose store a page belongs to. -/
def storeBank : PageStore → Option Nat
  | .ring b => some b.val
  | .queue b => some b.val
  | .operand b => some b.val
  | .stager b => some b.val
  | _ => none

/-- The number of a store: four of each Bank, then those of Zenith. -/
def storeNo : PageStore → Nat
  | .ring b => 4 * b.val
  | .queue b => 4 * b.val + 1
  | .operand b => 4 * b.val + 2
  | .stager b => 4 * b.val + 3
  | .healthTable => 768
  | .pattern => 769
  | .steward => 770
  | .journal => 771
  | .thermal => 772
  | .horizon => 773
  | .context => 774

/-- The store of a number. -/
def storeOf (n : Nat) : PageStore :=
  let b : BankId := Fin.ofNat 192 (n / 4)
  if n < 768 then
    match n % 4 with
    | 0 => .ring b
    | 1 => .queue b
    | 2 => .operand b
    | _ => .stager b
  else match n with
    | 768 => .healthTable
    | 769 => .pattern
    | 770 => .steward
    | 771 => .journal
    | 772 => .thermal
    | 773 => .horizon
    | _ => .context

/-- The key of a page of a store. -/
def pageKey (st : PageStore) (page : Nat) : Nat := 775 * page + storeNo st

/-- A page. -/
def Dev.page (d : Dev) (k : Nat) : Page := Tbl.get Page.init d.prot.pages k

/-- Change a page. -/
def Dev.modPage (d : Dev) (k : Nat) (f : Page → Page) : Dev := { d with prot.pages := Tbl.modify Page.init d.prot.pages k f }

/-- A data byte of a page is written; where the access shows a parity hit, or the page is locked by one, the write waits (R461, R462). -/
def Page.write (x : Page) (pos : Nat) : Page :=
  if 4096 ≤ pos then x
  else if !x.waits.isEmpty || writeHits x.cells pos then { x with waits := x.waits ++ [pos] }
  else { x with cells := writeCell x.cells pos }

/-- The writes that waited, applied to the corrected page (R461). -/
def Page.release (x : Page) (cells : Tbl (BitVec 9)) : Page :=
  { cells := x.waits.foldl (fun (t : Tbl (BitVec 9)) pos => writeCell t pos) cells, waits := [] }

/-- At a tick: the bits of stored pages that upsets inverted, then the data bytes written since the tick before (R457, R461). -/
def Dev.pageTick (d : Dev) (inp : TickIn) : Dev :=
  let d1 := inp.pageUpsets.foldl (fun (acc : Dev) (x : PagePos × BitVec 9) =>
    acc.modPage (pageKey x.1.store x.1.page) (fun y =>
      { y with cells := Tbl.set 0 y.cells x.1.pos.val (Tbl.get 0 y.cells x.1.pos.val ^^^ x.2) })) d
  inp.pageWrites.foldl (fun (acc : Dev) (x : PagePos) => acc.modPage (pageKey x.store x.page) (fun y => y.write x.pos.val)) d1

/-- A page of a Bank's store corrected, in BK_PROT_PAR (R476). -/
def Bank.pageCorrected (k : Bank) : Bank :=
  let v := k.reg Reg.BK_PROT_PAR
  k.setReg Reg.BK_PROT_PAR (setBits v 15 0 (min 0xFFFF (bitsOf v 15 0 + 1)))

/-- A corrected page: counted with its symbols (R462). -/
def Dev.pageCorrected (d : Dev) (st : PageStore) (symbols : Nat) : Dev :=
  let d1 := (d.bumpZ Reg.ZN_PROT_CNT_CORR).addZ Reg.ZN_PROT_CNT_SYM symbols
  match storeBank st with
  | some b => d1.modBank b Bank.pageCorrected
  | none => d1

/-- The installed package can be read again from the ledger slot or the image section that holds it, and its digest is the
verification cache's (R464). -/
def Dev.canReload (d : Dev) : Bool :=
  let ok (l : List Byte) : Bool := decide (l = d.pat.installed) && d.aon.cacheValid && decide (pkgDigest l = d.aon.cacheDigest)
  (d.pat.durable && decide (d.ledger.state ≠ LedgerState.absent) && ok (Tbl.get [] d.pat.slotBytes d.pat.slot)) || ok d.cfg.patterns

/-- A page of the pattern store that cannot be corrected: reloaded, or the package is uninstalled (R464). DEDUCED (log entry 131). -/
def Dev.reloadPattern (d : Dev) : Dev :=
  if d.pat.installed.isEmpty then d
  else if d.canReload then d.bumpZ Reg.ZN_PROT_CNT_RELOAD
  else ({ d with pat.installed := [], pat.version := 0, pat.digest := 0, pat.durable := false }).noPackage

/-- The staged entries that lie on page `page` of staging, entries standing one after another from the oldest on: those kept, and
those lost. DESIGN CHOICE (log entry 130). -/
def splitStaging (page : Nat) : Nat → List JEntry → List JEntry × List JEntry
  | _, [] => ([], [])
  | at_, e :: l =>
    let stop := at_ + 16 + e.body.bytes
    let (keep, lost) := splitStaging page stop l
    if at_ < 4096 * (page + 1) && decide (4096 * page < stop) then (keep, e :: lost) else (e :: keep, lost)

/-- A page of journal staging that cannot be corrected: its entries are lost and counted, and JNL_LOST is owed (R464, R378). -/
def Dev.loseStaging (d : Dev) (page : Nat) : Dev :=
  let (keep, lost) := splitStaging page 0 d.jnl.staging
  let evs := (lost.filter (fun (e : JEntry) => e.body.isEvent)).length
  ({ d with jnl.staging := keep, jnl.lostEvents := d.jnl.lostEvents + evs
            jnl.lostOthers := d.jnl.lostOthers + (lost.length - evs) }).addZ Reg.ZN_JNL_CNT_LOST lost.length

/-- An uncorrectable page, by the store it is in: the pattern store and journal staging hold the page anew (R464). -/
def Dev.pageLost (d : Dev) (st : PageStore) (page : Nat) : Dev :=
  let clear (d : Dev) : Dev := d.modPage (pageKey st page) (fun _ => Page.init)
  match st with
  | .pattern => (clear d).reloadPattern
  | .journal => (clear d).loseStaging page
  | _ => d.wantChipReset 3

/-- The decode of a page ends: what it corrects is written back and counted, the writes that waited are applied, and an uncorrectable
page has its outcome (R460 to R464). -/
def Dev.decodePageOf (d : Dev) (st : PageStore) (page : Nat) : Dev :=
  let x := d.page (pageKey st page)
  match decodePage x.cells with
  | none => d.pageLost st page
  | some (cells, symbols) =>
    let d1 := d.modPage (pageKey st page) (fun y => y.release cells)
    if symbols = 0 then d1 else d1.pageCorrected st symbols

/-- The cells of a page that show a parity hit. -/
def Page.hits (x : Page) : Nat := Tbl.countP (fun _ c => cellHits c) x.cells

/-- A Bank that takes no part has no page decoder. -/
def Dev.storeDown (d : Dev) (st : PageStore) : Bool :=
  match storeBank st with
  | some b => d.bankDown b
  | none => false

/-- PAGE_DECODE_DONE (R462): the decode of a page that a parity hit on a read triggered ends, its hits counted; a page without a hit has
none. DEDUCED (log entry 129). -/
def execPageDecodeDone (page : PageRef) (s : State) : Host.Outcome State Fault Refusal :=
  let n := (s.dev.page (pageKey page.store page.page)).hits
  if n = 0 || s.dev.storeDown page.store then .next s
  else .next (s.onDev (fun d => (d.addZ Reg.ZN_PROT_CNT_PAR n).decodePageOf page.store page.page))

/-! ## The patrol (R463) -/

/-- The frames of a pass: Zenith's 2,964 pages at 4 a frame. DEDUCED (log entry 134). -/
def patrolFrames : Nat := 741

/-- A patrol pass starts; one in progress goes on. -/
def Dev.startPatrol (d : Dev) : Dev :=
  if d.prot.patrolBusy || d.hang.chipReset then d else { d with prot.patrolBusy := true, prot.patrolFrom := d.clock.frame }

/-- PATROL: every 2^PATROL_EXP F; 0 disables it. -/
def execPatrol (s : State) : Host.Outcome State Fault Refusal :=
  let d := s.dev
  let k := d.zf Reg.ZN_PROT_CTL 4 0
  if k = 0 || !d.imageInUse || d.clock.frame < d.prot.patrolAt + 2 ^ k then .next s
  else .next { s with dev := ({ d with prot.patrolAt := d.clock.frame }).startPatrol }

/-- PATROL_NOW of ZN_PROT_CMD. -/
def execPatrolNow (p : Path) (s : State) : Host.Outcome State Fault Refusal :=
  .next (s.onDev (fun d => d.cmdZ p Reg.ZN_PROT_CMD 1 Dev.startPatrol))

/-- Decode every listed page of the stores that `sel` picks: a page whose bits are all as written decodes to itself. -/
def Dev.patrolPages (d : Dev) (sel : PageStore → Bool) : Dev :=
  (d.prot.pages.map Prod.fst).foldl (fun (acc : Dev) k =>
    let st := storeOf (k % 775)
    if sel st && !acc.storeDown st then
      (acc.addZ Reg.ZN_PROT_CNT_PAR (acc.page k).hits).decodePageOf st (k / 775)
    else acc) d

/-- The frames of a pass in a Bank: its 44 pages, one a frame. -/
def bankPatrolFrames : Nat := 44

/-- At a tick: the pages of the Banks have been decoded 44 frames after the pass began, those of Zenith when it is complete. DESIGN CHOICE
(log entry 170). -/
def Dev.patrolTick (d : Dev) : Dev :=
  if !d.prot.patrolBusy then d
  else
    let d1 := if d.prot.patrolFrom + bankPatrolFrames = d.clock.frame then d.patrolPages (fun st => (storeBank st).isSome) else d
    if d1.prot.patrolFrom + patrolFrames ≤ d1.clock.frame then
      let d2 := d1.patrolPages (fun st => (storeBank st).isNone)
      ({ d2 with prot.patrolBusy := false }).bumpZ Reg.ZN_PROT_CNT_PATROL
    else d1

/-! ## Host memory error reports (R468 to R470) -/

/-- The unit that a report names (R469). -/
def Dev.locUnit (d : Dev) : HostLoc → Option Nat
  | .tier1 b p => some (sliceUnit (coreUnit b.val p.val))
  | .tier2 a => d.regionOf a.toNat
  | .lane i =>
    if i = 0xFFFF then none
    else ((List.range 1024).find? (fun n => decide (d.cfg.laneIds.getD n 0xFFFF = i.toNat))).map laneUnit
  | .channel st ch => some (chanUnit st.val ch.val)

/-- The unit is retired, or will be when a stop ends. -/
def Dev.retired (d : Dev) (u : Nat) : Bool :=
  decide (d.healthOf u = Health.eclipse) || d.clock.stopHealth.contains (u, HEvent.retire)

/-- The counts that the scrub keeps of a report with SCRUB set; one that is CONSUMED counts as a UE only while a scrub runs (R468,
R473). -/
def Dev.scrubCount (d : Dev) (ue consumed : Bool) : Dev :=
  if !ue then d.satZ Reg.ZN_SCR_CE 1
  else if consumed && d.prot.scrub.isNone then d
  else d.satZ Reg.ZN_SCR_UE 1

/-- A UE report names a unit while a scrub runs (R473). -/
def Dev.noteUe (d : Dev) (u : Nat) : Dev :=
  match d.prot.scrub with
  | some x => { d with prot.scrub := some { x with ueSeen := if x.ueSeen.contains u then x.ueSeen else x.ueSeen ++ [u] } }
  | none => d

/-- A unit retired by a report of the scrub. -/
def Dev.scrubRetired (d : Dev) (u : Nat) : Dev :=
  if d.retired u then d else d.setZf Reg.ZN_SCR_RETIRED 16 0 (min 0x1FFFF (d.zf Reg.ZN_SCR_RETIRED 16 0 + 1))

/-- The interval since the CE report before against the slice under a core, after the first since the Bank's last reset: a sample that
the Bank writes (R360, metric 4). In a stop the record takes none. -/
def Dev.ceInterval (d : Dev) (u : Nat) : Dev :=
  match unitKind u with
  | .slice =>
    let b := (u - 50688) / 264
    let p := (u - 50688) % 264
    if d.clock.stopped || d.bankDown b then d
    else d.modWisp b p (fun w =>
      let w1 := match w.lastCe with
        | some f => w.sampleNat 4 (d.clock.frame - f) d.clock.frame
        | none => w
      { w1 with lastCe := some d.clock.frame })
  | _ => d

/-- A report applied to its unit (R470). -/
def Dev.applyReport (d : Dev) (u : Nat) (ue consumed scrub : Bool) : Dev :=
  let d1 := d.setZ Reg.ZN_HMR_LAST (w32 (u + 2 ^ 17 * bit ue + 2 ^ 18 * bit consumed + 2 ^ 19 * bit scrub))
  if !ue then ((d1.bumpZ Reg.ZN_HMR_CNT_CE).ceInterval u).hEvent u .ce
  else
    let d2 := ((d1.bumpZ Reg.ZN_HMR_CNT_UE).noteUe u).hEvent u (.charge rHOST_REPORT)
    if consumed then d2
    else (if scrub then d2.scrubRetired u else d2).hEvent u .retire

/-- HOST_MEMORY_REPORT (R468 to R470, R356): Zenith accepts a report and applies it. Under the clamp it is lost (R515), and once a chip
reset is requested the port holds it (R474). DEDUCED (log entry 132). -/
def execHostMemoryReport (ue consumed scrub : Bool) (loc : HostLoc) (s : State) : Host.Outcome State Fault Refusal :=
  let d := s.dev
  if d.clamped || d.hang.chipReset then .next s
  else
    let d1 := if scrub then d.scrubCount ue consumed else d
    let d2 := match d1.locUnit loc with
      | some u => d1.applyReport u ue consumed scrub
      | none => d1.bumpZ Reg.ZN_HMR_CNT_UNMAPPED
    .next { s with dev := if ue && consumed then d2.wantChipReset 2 else d2 }

/-- HMR_DROP_COUNT (R468): the port delivers how many CE reports it has dropped. -/
def execHmrDropCount (n : BitVec 16) (s : State) : Host.Outcome State Fault Refusal :=
  .next (s.onDev (fun d => if d.clamped then d else d.addZ Reg.ZN_HMR_CNT_HOSTDROP n.toNat))

/-! ## Scrub (R471 to R474) -/

/-- RESULT of ZN_SCR_STAT. -/
def Dev.scrResult (d : Dev) (r : Nat) : Dev := d.setZf Reg.ZN_SCR_STAT 5 2 r

/-- The range that the scrub registers name: its first host address, or none where it is BADRANGE (R471). -/
def Dev.scrubBase (d : Dev) : Option Nat :=
  let len := d.zf Reg.ZN_SCR_LEN 23 0
  let lo := (d.zreg Reg.ZN_SCR_BASE_LO).toNat
  let a := lo + 2 ^ 32 * d.zf Reg.ZN_SCR_BASE_HI 15 0
  match d.zf Reg.ZN_SCR_CTL 1 0 with
  | 0 =>
    let o := (a - d.cfg.t2Base) % d.cfg.t2Stride
    if a % 4096 = 0 && (d.regionOf a).isSome && decide (o + 4096 * len ≤ stackBytes) then some a else none
  | 1 =>
    let u := bitsOf (d.zreg Reg.ZN_SCR_BASE_LO) 16 0
    if u < 50688 && decide (len ≤ 1024) then some (d.cfg.t1Base + u * sliceBytes) else none
  | _ => none

/-- The scrub of the registers accepted: latched, its summary cleared; it starts at the next tick. DEDUCED (log entry 133). -/
def Dev.acceptScrub (d : Dev) (base : Nat) : Dev :=
  let clear := [Reg.ZN_SCR_PAGES, Reg.ZN_SCR_CE, Reg.ZN_SCR_UE, Reg.ZN_SCR_RETIRED, Reg.ZN_SCR_CWFAIL]
  let d1 := clear.foldl (fun (acc : Dev) r => acc.setZ r 0) d
  let x : Scrub := { target := d.zf Reg.ZN_SCR_CTL 1 0, base := base, len := d.zf Reg.ZN_SCR_LEN 23 0,
                     verify := bitOf (d.zreg Reg.ZN_SCR_CTL) 2, bank := bitsOf (d.zreg Reg.ZN_SCR_BASE_LO) 16 0 / 264,
                     running := false, read := 0, lastAt := 0, ueSeen := [] }
  ({ d1 with prot.scrub := some x }).scrResult 1

/-- START of ZN_SCR_CMD, from the host path or another (R471). -/
def Dev.scrubStart (d : Dev) (host : Bool) : Dev :=
  if d.prot.scrub.isSome || d.sdActive then d.scrResult 4
  else if host && d.locked then d.scrResult 5
  else if d.zf Reg.ZN_SCR_LEN 23 0 = 0 then d.scrResult 3
  else match d.scrubBase with
    | none => d.scrResult 6
    | some a =>
      if d.zf Reg.ZN_SCR_CTL 1 0 = 1 && (d.bank (bitsOf (d.zreg Reg.ZN_SCR_BASE_LO) 16 0 / 264)).isolated then d.scrResult 7
      else d.acceptScrub a

/-- SCRUB_START. -/
def execScrubStart (p : Path) (s : State) : Host.Outcome State Fault Refusal :=
  .next (s.onDev (fun d => d.cmdZ p Reg.ZN_SCR_CMD 1 (fun d => d.scrubStart (pathHost p))))

/-- The scrub ends with a result; it qualifies nothing. -/
def Dev.endScrub (d : Dev) (r : Nat) : Dev :=
  if d.prot.scrub.isSome then ({ d with prot.scrub := none }).scrResult r else d

/-- SCRUB_CANCEL: CANCEL of ZN_SCR_CMD (R475). -/
def execScrubCancel (p : Path) (s : State) : Host.Outcome State Fault Refusal :=
  .next (s.onDev (fun d => d.cmdZ p Reg.ZN_SCR_CMD 2 (fun d => d.endScrub 8)))

/-- A page read with VERIFY_CW fails: its slot is not 0, and it is malformed or its CRC over the length it states is wrong (R473). -/
def pageFails (mem : HostMem) (a : Nat) : Bool :=
  let w := mem.slot a
  decide (w ≠ 0) && (wordMalformed w || decide (crc32c (mem.read a (wordValid w)) ≠ wordCrc w))

/-- Verify one page; a failure is counted and charged to the unit that holds it (R83). -/
def Dev.verifyPage (d : Dev) (mem : HostMem) (a : Nat) : Dev :=
  if pageFails mem a then
    let d1 := d.satZ Reg.ZN_SCR_CWFAIL 1
    match d1.holderOf a with
    | some u => d1.hEvent u (.charge rCW)
    | none => d1
  else d

/-- Read the pages of this frame: RATE of them, in ascending order; none while no Bank can read (R472). -/
def Dev.readPages (d : Dev) (mem : HostMem) (x : Scrub) : Dev :=
  let live := (List.range 192).any (fun b => !(d.bank b).isolated)
  let n := if live then min (d.zf Reg.ZN_SCR_RATE 7 0) (x.len - x.read) else 0
  let d1 := if x.verify then
      (List.range n).foldl (fun (acc : Dev) i => acc.verifyPage mem (x.base + 4096 * (x.read + i))) d
    else d
  let d2 := d1.setZf Reg.ZN_SCR_PAGES 23 0 (x.read + n)
  { d2 with prot.scrub := some { x with running := true, read := x.read + n, lastAt := if n = 0 then x.lastAt else d.clock.frame } }

/-- At a tick: the scrub ends where QUIESCE has begun or its Bank is isolated, pauses in a stop, or reads on (R472, R474). -/
def Dev.scrubTick (d : Dev) (mem : HostMem) : Dev :=
  match d.prot.scrub with
  | none => d
  | some x =>
    if d.sdActive && decide (d.sd.phase ≠ 0) then d.endScrub 8
    else if x.target = 1 && (d.bank x.bank).isolated then d.endScrub 7
    else if d.clock.stopped || decide (x.len ≤ x.read) then d
    else d.readPages mem x

/-- The tier-2 regions that a range covers whole. -/
def Dev.wholeRegions (d : Dev) (base len : Nat) : List Nat :=
  let o := (base - d.cfg.t2Base) % d.cfg.t2Stride
  let s := (base - d.cfg.t2Base) / d.cfg.t2Stride
  let r := 48 * 2 ^ 20
  ((List.range 1024).filter (fun k => decide (o ≤ k * r) && decide ((k + 1) * r ≤ o + 4096 * len))).map (regionUnit s)

/-- A region that a whole scrub found without error qualifies from Dawn (R235). -/
def Dev.qualifyRegion (d : Dev) (u : Nat) : Dev :=
  if d.healthOf u = .dawn then d.transition u .clear rQUALIFIED else d

/-- SCRUB_DONE (R472, R473): the frame after the last page; regions read whole without a UE qualify. -/
def execScrubDone (s : State) : Host.Outcome State Fault Refusal :=
  let d := s.dev
  match d.prot.scrub with
  | none => .next s
  | some x =>
    if d.clock.stopped || x.read < x.len || d.clock.frame ≤ x.lastAt then .next s
    else
      let us := if x.target = 0 then (d.wholeRegions x.base x.len).filter (fun u => !x.ueSeen.contains u) else []
      .next { s with dev := us.foldl (fun (acc : Dev) u => acc.qualifyRegion u) (d.endScrub 2) }

end Sys2Proof.Machine
end

