-- ==== Sys2Proof/Machine/Image.lean ====
section
/-! DEFINITION. The configuration image: its sections, the configuration check, and the values an image in use gives (R436 to
R447). -/

namespace Sys2Proof.Machine

/-- An entry of the section table (R437). -/
structure Section where
  type : Nat
  pad : Nat
  off : Nat
  len : Nat
  crc : Nat
  deriving DecidableEq, Repr

/-- A failure of the check: RESULT, section type, byte offset in the image and load index (R446, R455). -/
structure CfgFail where
  result : Nat
  type : Nat
  off : Nat
  load : Nat
  deriving DecidableEq, Repr

/-- A failure that no register load is at fault for. -/
def cfgFail (result type off : Nat) : CfgFail where
  result := result
  type := type
  off := off
  load := 0xFFFFFFFF

/-- `none` where the condition holds. -/
def needCfg (ok : Bool) (x : CfgFail) : Option CfgFail := if ok then none else some x

/-- The first failure of a list of checks, in order. -/
def firstFail : List (Option CfgFail) → Option CfgFail
  | [] => none
  | some x :: _ => some x
  | none :: l => firstFail l

/-- The first failing entry of a list that is examined in order. -/
def firstOf {α : Type} (f : α → Option CfgFail) : List α → Option CfgFail
  | [] => none
  | x :: l =>
    match f x with
    | some y => some y
    | none => firstOf f l

/-- Rounded up to a multiple of 16. -/
def round16 (n : Nat) : Nat := ceilDiv n 16 * 16

/-- SECTIONS of the header. -/
def imgSections (l : List Byte) : Nat := fieldAt l 6 2

/-- IMAGE_LEN of the header. -/
def imgLen (l : List Byte) : Nat := fieldAt l 12 4

/-- Entry `i` of the section table. -/
def sectionAt (l : List Byte) (i : Nat) : Section where
  type := fieldAt l (64 + 16 * i) 2
  pad := fieldAt l (66 + 16 * i) 2
  off := fieldAt l (68 + 16 * i) 4
  len := fieldAt l (72 + 16 * i) 4
  crc := fieldAt l (76 + 16 * i) 4

/-- The section table. -/
def sections (l : List Byte) : List Section := (List.range (imgSections l)).map (sectionAt l)

/-- A section of a type; an absent one is empty at offset 0. -/
def sectionOf (l : List Byte) (type : Nat) : Section :=
  ((sections l).find? (fun x => decide (x.type = type))).getD { type := type, pad := 0, off := 0, len := 0, crc := 0 }

/-- The LENGTH that a section type may have (R437). -/
def lengthOk (type len : Nat) : Bool :=
  match type with
  | 1 => decide (len = 2080)
  | 2 => decide (16 ≤ len) && decide ((len - 16) % 8 = 0) && decide (len ≤ 16 + 8 * 256)
  | 3 => decide (len = 3472)
  | 4 => decide (len % 8 = 0) && decide (len ≤ 8 * 4096)
  | 5 => decide (len = 128)
  | 6 => decide (len = 768)
  | 7 => decide (len % 16 = 0) && decide (32 ≤ len) && decide (len ≤ 16 + 786432)
  | 8 => decide (len = 0) || (decide (4192 ≤ len) && decide ((len - 4192) % 256 = 0))
  | 9 => decide (len = 256)
  | _ => false

/-- Entry `i` of the section table follows R437, with the entries before it. DEDUCED (log entry 137). -/
def sectionOk (l : List Byte) (i : Nat) : Bool :=
  let x := sectionAt l i
  let before := (List.range i).map (sectionAt l)
  let from_ := match before.getLast? with
    | some y => y.off + y.len
    | none => 64 + 16 * imgSections l
  decide (x.pad = 0) && lengthOk x.type x.len && !before.any (fun y => decide (y.type = x.type)) && decide (x.off % 16 = 0) &&
    decide (from_ ≤ x.off) && decide (x.off + x.len ≤ imgLen l) &&
    (decide (x.type = 9) == decide (i + 1 = imgSections l)) && (decide (x.type ≠ 9) || decide (x.off + x.len = imgLen l))

/-- Row 2 of R446: header and section table. DEDUCED (log entry 136). -/
def checkFormat (l : List Byte) : Option CfgFail :=
  let n := imgSections l
  firstFail [
    needCfg (decide (fieldAt l 0 4 = 0x4749464B)) (cfgFail 3 0 0),
    needCfg (decide (fieldAt l 4 2 = 1)) (cfgFail 3 0 4),
    needCfg (decide (7 ≤ n) && decide (n ≤ 9)) (cfgFail 3 0 6),
    needCfg (decide (imgLen l ≤ 2 ^ 24)) (cfgFail 3 0 12),
    firstOf (fun i => needCfg (sectionOk l i) (cfgFail 3 0 (64 + 16 * i))) (List.range n),
    firstOf (fun t => needCfg ((sections l).any (fun x => decide (x.type = t))) (cfgFail 3 t 64)) [1, 2, 3, 5, 6, 7, 9]]

/-- The bytes of a section. -/
def sectionBytes (l : List Byte) (x : Section) : List Byte := (l.drop x.off).take x.len

/-- Row 4: every section CRC; a section that a read error cut short fails (R449 step 3). -/
def checkCrcs (l : List Byte) : Option CfgFail :=
  firstOf (fun x => needCfg (decide (x.off + x.len ≤ l.length) && decide ((crc32c (sectionBytes l x)).toNat = x.crc)) (cfgFail 5 x.type x.off)) (sections l)

/-- The signed digest: image bytes before the manifest (R438). -/
def imageDigest (l : List Byte) : BitVec 384 := Crypto.digest (l.take (sectionOf l 9).off)

/-- Row 5: the image key is the fused one, and the signature is valid. -/
def signatureOk (l : List Byte) : Bool :=
  let m := sectionBytes l (sectionOf l 9)
  decide (Crypto.digest (m.take 97) = Config.imageKeyDigest) &&
    Crypto.ecdsaVerify (BitVec.ofNat 776 (Crypto.beNat (m.take 97))) (imageDigest l)
      (BitVec.ofNat 768 (Crypto.beNat ((m.drop 144).take 96)))

/-! ## Fields (R439 to R445) -/

/-- A check of a field of a section, by the byte offset within it. -/
def fieldNeed (x : Section) (at_ : Nat) (ok : Bool) : Option CfgFail := needCfg ok (cfgFail 7 x.type (x.off + at_))

/-- A range of reserved bytes of a section is 0. -/
def zeroNeed (l : List Byte) (x : Section) (at_ n : Nat) : Option CfgFail := fieldNeed x at_ (zeroAt l (x.off + at_) n)

/-- T1_BASE as a host address. -/
def t1BaseOf (l : List Byte) : Nat := fieldAt l ((sectionOf l 1).off + 28) 4 * 2 ^ 22

/-- The tier-1 range meets the 48 GiB of some stack (R439). -/
def tiersMeet (t1 t2 stride : Nat) : Bool :=
  (List.range 16).any (fun s => decide (t1 < t2 + s * stride + stackBytes) && decide (t2 + s * stride < t1 + 50688 * sliceBytes))

/-- Every source of ALARM_MAP is 0 or at least its lowest level (R424). -/
def alarmMapOk (n : Nat) : Bool :=
  (List.range 6).all (fun i =>
    let v := n / 4 ^ i % 4
    decide (v ≠ 1) || !([0, 3, 4].contains i))

/-- PARAMS (R439). -/
def checkParams (l : List Byte) : Option CfgFail :=
  let x := sectionOf l 1
  let f (at_ n : Nat) : Nat := fieldAt l (x.off + at_) n
  firstFail [
    fieldNeed x 0 (decide (f 0 8 < 2 ^ 48) && decide (f 0 8 % 4096 = 0)),
    fieldNeed x 8 (decide (stackBytes ≤ f 8 8) && decide (f 8 8 % 4096 = 0)),
    fieldNeed x 16 (decide (f 16 4 ≠ 0)),
    fieldNeed x 20 (decide (f 20 1 < 128)),
    fieldNeed x 21 (decide (f 21 1 < 4)),
    fieldNeed x 22 (decide (f 22 2 < 4096) && alarmMapOk (f 22 2)),
    fieldNeed x 24 (decide (f 24 4 ≠ 0)),
    fieldNeed x 28 (decide (f 28 4 < 2 ^ 26) && !tiersMeet (t1BaseOf l) (f 0 8) (f 8 8))]

/-- The Zenith registers that an image may load: those whose Reset column reads "From configuration image", but for ZN_THM_AMB
(R440). -/
def loadable : List Nat := [
  Reg.ZN_LVL_BUDGET, Reg.ZN_HZ_TIMEOUT, Reg.ZN_HZ_REPLAY_WAIT, Reg.ZN_HZ_REFRESH, Reg.ZN_HZ_CTL, Reg.ZN_HZ_RTT_REF,
  Reg.ZN_UHT_WIN, Reg.ZN_UHT_CE, Reg.ZN_UHT_DAWN, Reg.ZN_UHT_DAWN_AGE, Reg.ZN_TST_PER_CLEAR, Reg.ZN_TST_PER_HAZE,
  Reg.ZN_TST_PER_OVC, Reg.ZN_TST_PER_T2, Reg.ZN_TST_GRACE, Reg.ZN_TST_CTL, Reg.ZN_PAT_RETRY, Reg.ZN_SD_CTL, Reg.ZN_SD_QUIESCE,
  Reg.ZN_SD_LIMIT, Reg.ZN_THM_CTL, Reg.ZN_THM_LIMITS, Reg.ZN_THM_RISE, Reg.ZN_THM_MARGIN, Reg.ZN_THM_STOP, Reg.ZN_HANG_FRAMES,
  Reg.ZN_RECOV_LIMIT, Reg.ZN_SUPP_EXTRA, Reg.ZN_HOST_RETRY, Reg.ZN_ANV_RST_LIMIT, Reg.ZN_BANK_RST_LIMIT, Reg.ZN_WDOG,
  Reg.ZN_HANG_CTL, Reg.ZN_JNL_CKPT, Reg.ZN_PROT_CTL, Reg.ZN_SCR_RATE]

/-- The bits of a loadable register that are not reserved; ZN_HOST_RETRY is read-only to writes (R358). -/
def loadMask (off : Nat) : Nat :=
  if off = Reg.ZN_HOST_RETRY then 0x1FFFFFF
  else match Reg.find .zn off with
    | some r => r.rw ||| r.rwm
    | none => 0

/-- The register loads of THRESH: offset, reserved bytes and value. -/
def loads (l : List Byte) : List (Nat × Nat × Nat) :=
  let x := sectionOf l 2
  (List.range ((x.len - 16) / 8)).map (fun i =>
    (fieldAt l (x.off + 16 + 8 * i) 2, fieldAt l (x.off + 18 + 8 * i) 2, fieldAt l (x.off + 20 + 8 * i) 4))

/-- Load `i` is in range (R440): a loadable register, not loaded before, no reserved bit, and a value that its own range and the zero
rule admit; nested pairs are examined after all loads. -/
def Dev.loadOk (d : Dev) (l : List Byte) (i : Nat) : Bool :=
  let x := (loads l).getD i (0, 0, 0)
  let value := match d.znIllegal x.1 (w32 x.2.2) with
    | none => true
    | some .nested => true
    | some _ => false
  decide (x.2.1 = 0) && loadable.contains x.1 && !((loads l).take i).any (fun y => decide (y.1 = x.1)) &&
    decide (x.2.2 ||| loadMask x.1 = loadMask x.1) && value

/-- THRESH (R440). -/
def Dev.checkThresh (d : Dev) (l : List Byte) : Option CfgFail :=
  let x := sectionOf l 2
  let f (at_ n : Nat) : Nat := fieldAt l (x.off + at_) n
  firstFail [
    fieldNeed x 0 (decide (800000 ≤ f 0 4) && decide (f 0 4 ≤ 1800000)),
    fieldNeed x 4 (decide (1 ≤ f 4 4) && decide (f 4 4 ≤ 2 ^ 24)),
    fieldNeed x 8 (decide (x.len = 16 + 8 * f 8 2)),
    zeroNeed l x 10 6,
    firstOf (fun i => needCfg (d.loadOk l i) { result := 7, type := 2, off := x.off + 16 + 8 * i, load := i })
      (List.range (loads l).length)]

/-- A signed 16-bit field. -/
def signed16 (n : Nat) : Int := (BitVec.ofNat 16 n).toInt

/-- The thermal section (R313, R441). -/
def thermalOf (l : List Byte) : ThermalCfg :=
  let o := (sectionOf l 3).off
  let f (at_ n : Nat) : Nat := fieldAt l (o + at_) n
  { aL := f 0 4
    aM := f 4 4
    gLatL := f 8 4
    gLatM := f 12 4
    gLatS := f 16 4
    gLM := f 20 4
    gMS := f 24 4
    gAmb := f 28 4
    wL := (List.range 8).map (fun i => f (32 + 2 * i) 2)
    wM := (List.range 8).map (fun i => f (48 + 2 * i) 2)
    staticL := f 64 2
    staticM := f 66 2
    pmaxL := f 68 4
    pmaxM := f 72 4
    ambient := BitVec.ofNat 16 (f 76 2)
    droopCal := f 78 2
    diodeTile := (List.range 64).map (fun i => f (80 + 2 * i) 2)
    tileDiode := (List.range 3072).map (fun i => f (208 + i) 1)
    clusterStack := (List.range 192).map (fun i => f (3280 + i) 1) }

/-- The stability rule of R313 for a layer. -/
def stable (lateral vertical : Nat) : Bool := decide (64 * (4 * lateral + vertical) < 2 ^ 24)

/-- THERMAL (R441, R313). -/
def checkThermal (l : List Byte) : Option CfgFail :=
  let x := sectionOf l 3
  let t := thermalOf l
  let amb := signed16 t.ambient.toNat
  firstFail [
    fieldNeed x 8 (stable t.gLatL t.gLM),
    fieldNeed x 12 (stable t.gLatM (t.gLM + t.gMS)),
    fieldNeed x 16 (stable t.gLatS (t.gMS + t.gAmb)),
    fieldNeed x 76 (decide (-2560 ≤ amb) && decide (amb ≤ 5440)),
    fieldNeed x 78 (decide (t.droopCal ≠ 0)),
    firstOf (fun i => fieldNeed x (80 + 2 * i) (decide (t.diodeTile.getD i 0 < 3072))) (List.range 64),
    firstOf (fun i => fieldNeed x (208 + i) (decide (t.tileDiode.getD i 0 < 64))) (List.range 3072),
    firstOf (fun i => fieldNeed x (3280 + i) (decide (t.clusterStack.getD i 0 < 16))) (List.range 192)]

/-- The priors (R442). -/
def priorsOf (l : List Byte) : List (Nat × Nat × Nat × Nat) :=
  let x := sectionOf l 4
  (List.range (x.len / 8)).map (fun i =>
    let o := x.off + 8 * i
    (fieldAt l o 4, fieldAt l (o + 4) 2, fieldAt l (o + 6) 1, fieldAt l (o + 7) 1))

/-- PRIORS (R442): units that exist, a state that R256 takes, and nothing in the reserved fields. -/
def checkPriors (l : List Byte) : Option CfgFail :=
  let x := sectionOf l 4
  firstOf (fun i =>
    let (first, count, state, pad) := (priorsOf l).getD i (0, 0, 0, 0)
    firstFail [
      fieldNeed x (8 * i) (decide (first < 2 ^ 17) && (decide (count = 0) || decide (first + count ≤ 119232))),
      fieldNeed x (8 * i + 6) ([0, 1, 2, 4].contains state),
      fieldNeed x (8 * i + 7) (decide (pad = 0))]) (List.range (priorsOf l).length)

/-- The fields of CARVE that are not regions (R443). -/
def checkCarveFields (l : List Byte) : Option CfgFail :=
  let x := sectionOf l 5
  let f (at_ : Nat) : Nat := fieldAt l (x.off + at_) 4
  firstFail [
    fieldNeed x 112 (decide (1 ≤ f 112)),
    fieldNeed x 116 (decide (64 ≤ f 116) && decide (f 116 ≤ 65536) && decide (f 116 % 64 = 0)),
    fieldNeed x 124 (decide (16632 ≤ f 124))]

/-- A key of the KEYS section: VALID and the key (R444). -/
def keyOf (l : List Byte) (i : Nat) : Nat × BitVec 776 :=
  let o := (sectionOf l 6).off + 128 * i
  (fieldAt l o 1, BitVec.ofNat 776 (Crypto.beNat ((l.drop (o + 1)).take 97)))

/-- KEYS (R444). -/
def checkKeys (l : List Byte) : Option CfgFail :=
  let x := sectionOf l 6
  firstOf (fun i =>
    let (v, k) := keyOf l i
    firstFail [
      fieldNeed x (128 * i) (decide (v ≤ 1)),
      fieldNeed x (128 * i + 1) (decide (v = 0) || ((Crypto.pointOf k).map Crypto.onCurve).getD false),
      zeroNeed l x (128 * i + 98) 30]) (List.range 6)

/-- STEWARD (R445). -/
def checkSteward (l : List Byte) : Option CfgFail :=
  let x := sectionOf l 7
  let n := fieldAt l (x.off + 4) 4
  firstFail [
    fieldNeed x 4 (decide (1 ≤ n) && decide (n ≤ 786432) && decide (x.len = 16 + round16 n)),
    zeroNeed l x 8 8]

/-- MANIFEST's reserved bytes (R438). -/
def checkManifest (l : List Byte) : Option CfgFail :=
  let x := sectionOf l 9
  firstFail [zeroNeed l x 97 47, zeroNeed l x 240 16]

/-- Row 6: every field of every section, in the order of the section types. -/
def Dev.checkFields (d : Dev) (l : List Byte) : Option CfgFail :=
  firstFail [
    needCfg (zeroAt l 32 32) (cfgFail 7 0 32), checkParams l, d.checkThresh l, checkThermal l, checkPriors l, checkCarveFields l,
    checkKeys l, checkSteward l, checkManifest l]

/-! ## Loads and nested pairs (R440, R447) -/

/-- Apply the register loads. -/
def Dev.applyLoads (d : Dev) (l : List Byte) : Dev :=
  (loads l).foldl (fun (acc : Dev) (x : Nat × Nat × Nat) => acc.setZ x.1 (w32 x.2.2)) d

/-- The upper registers of the pairs of R347 and R221. -/
def upperRegs : List Nat :=
  [Reg.ZN_HZ_TIMEOUT, Reg.ZN_SD_LIMIT, Reg.ZN_HANG_FRAMES, Reg.ZN_RECOV_LIMIT, Reg.ZN_BANK_RST_LIMIT, Reg.ZN_WDOG]

/-- Row 7: the pairs after all loads. -/
def Dev.checkNested (d : Dev) (l : List Byte) : Option CfgFail :=
  let d1 := d.applyLoads l
  needCfg (upperRegs.all (fun o => (d1.znIllegal o (d1.zreg o)).isNone)) (cfgFail 8 2 (sectionOf l 2).off)

/-! ## The carve-out (R443) -/

/-- The seven regions. DEDUCED (log entry 162). -/
def regionsOf (l : List Byte) : List Region :=
  let o := (sectionOf l 5).off
  (List.range 7).map (fun i => { base := fieldAt l (o + 16 * i) 8, size := fieldAt l (o + 16 * i + 8) 8 })

/-- A field of CARVE after the regions. -/
def carveField (l : List Byte) (at_ : Nat) : Nat := fieldAt l ((sectionOf l 5).off + at_) 4

/-- The least size of region `i`. -/
def regionMin (l : List Byte) (i : Nat) : Nat :=
  match i with
  | 2 => 16 * 2 ^ 20
  | 3 => carveField l 112 * 4096
  | 4 => 9 * 2 ^ 20
  | 5 => 16 * 2 ^ 20 + 50880 * (64 + carveField l 116)
  | 6 => (carveField l 120 + carveField l 124) * 4096
  | _ => 806879232

/-- The stack that a region lies in, where it lies in one. -/
def stackOf (t2 stride : Nat) (r : Region) : Option Nat :=
  if r.base < t2 || stride = 0 then none
  else
    let s := (r.base - t2) / stride
    if s < 16 && decide ((r.base - t2) % stride + r.size ≤ stackBytes) then some s else none

/-- Two regions share a byte. -/
def regionsMeet (a b : Region) : Bool := decide (a.base < b.base + b.size) && decide (b.base < a.base + a.size)

/-- Row 8: the carve-out rules. -/
def checkCarve (l : List Byte) : Option CfgFail :=
  let x := sectionOf l 5
  let rs := regionsOf l
  let t2 := fieldAt l (sectionOf l 1).off 8
  let stride := fieldAt l ((sectionOf l 1).off + 8) 8
  let stack (i : Nat) : Option Nat := stackOf t2 stride (rs.getD i { base := 0, size := 0 })
  firstOf (fun i =>
    let r := rs.getD i { base := 0, size := 0 }
    let ok := decide (r.base % 4096 = 0) && decide (r.size % 4096 = 0) && decide (regionMin l i ≤ r.size) && (stack i).isSome &&
      !(rs.take i).any (regionsMeet r) && (decide (i ≠ 1) || decide (stack 0 ≠ stack 1))
    needCfg ok (cfgFail 9 5 (x.off + 16 * i))) (List.range 7)

/-! ## The check (R446) -/

/-- The configuration check of R446: the first failing row, and within it the first failing field in the order of the image. Fewer
than four bytes read mean that the region could not be read. -/
def Dev.checkImage (d : Dev) (l : List Byte) : Option CfgFail :=
  firstFail [
    needCfg (decide (4 ≤ l.length) && decide (fieldAt l 0 4 ≠ 0xFFFFFFFF)) (cfgFail 2 0 0),
    checkFormat l,
    needCfg (decide (fieldAt l 8 4 = 0x4F44C192)) (cfgFail 4 0 8),
    checkCrcs l,
    needCfg (signatureOk l) (cfgFail 6 9 (sectionOf l 9).off),
    d.checkFields l,
    d.checkNested l,
    checkCarve l]

/-- The values that an image in use gives (R439 to R445). -/
def imageCfg (l : List Byte) : ImageCfg :=
  let p := (sectionOf l 1).off
  let h := (sectionOf l 2).off
  let f (at_ n : Nat) : Nat := fieldAt l (p + at_) n
  { t2Base := f 0 8
    t2Stride := f 8 8
    vendorIana := f 16 4
    i3cStatic := f 20 1
    hostClear := decide (f 21 1 % 2 = 1)
    fastPath := decide (f 21 1 / 2 % 2 = 1)
    alarmMap := f 22 2
    endurance := f 24 4
    t1Base := t1BaseOf l
    laneIds := (List.range 1024).map (fun i => f (32 + 2 * i) 2)
    sdZclk := fieldAt l h 4
    hostWait := fieldAt l (h + 4) 4
    thermal := thermalOf l
    priors := (priorsOf l).map (fun (x : Nat × Nat × Nat × Nat) =>
      { first := x.1, count := x.2.1, state := (Health.ofCode x.2.2.1).getD .dawn })
    regions := regionsOf l
    replaySlot := carveField l 112
    capBytes := carveField l 116
    baseOff := carveField l 120
    baseSize := carveField l 124
    keys := (List.range 6).map (fun i => (decide ((keyOf l i).1 = 1), (keyOf l i).2))
    patterns := sectionBytes l (sectionOf l 8)
    digest := imageDigest l }

/-- An image in use: its loads, its values, the ambient temperature, and the identity registers of the start (R440, R456). -/
def Dev.useImage (d : Dev) (l : List Byte) : Dev :=
  let d1 := d.applyLoads l
  let d2 := { d1 with cfg := imageCfg l }
  let d3 := ((d2.setZ Reg.ZN_THM_AMB (w32 d2.cfg.thermal.ambient.toNat)).setZ Reg.ZN_CFG_STAT 1).setZ Reg.ZN_CFG_STEWARD
    (w32 (fieldAt l (sectionOf l 7).off 4))
  (d3.setZ Reg.ZN_CFG_VER_LO (w32 (fieldAt l 16 4))).setZ Reg.ZN_CFG_VER_HI (w32 (fieldAt l 20 4))

/-- An image refused: RESULT, SECTION and OFFSET are set, CFG_REJECT is recorded where the module is BOUND (R453), and BADSIG raises
the CONFIG source (R446). -/
def Dev.refuseImage (d : Dev) (x : CfgFail) : Dev :=
  let d1 := (d.setZ Reg.ZN_CFG_STAT (w32 (x.result + 65536 * (x.type % 256)))).setZ Reg.ZN_CFG_WHERE (w32 (x.off % 2 ^ 24))
  let d2 := if d1.ledger.state = .bound then d1.zEvent 10 0x72 0 (w32 x.result) (w32 x.type) (w32 x.off) (w32 x.load) else d1
  if x.result = 6 then d2.raiseAlarm 0 else d2

end Sys2Proof.Machine
end

