-- ==== Sys2Proof/Machine/Start.lean ====
section
/-! DEFINITION. The start: what a Zenith reset leaves, the binding of the ledger module, journal replay, population of the health
table, the release of the Banks, and the end of the start (R331, R379, R416, R417, R448 to R454). -/

namespace Sys2Proof.Machine

/-- The start is at a step; a chip reset request ends it (R449, R454). -/
def Dev.startAt (d : Dev) (step : Nat) : Bool :=
  !d.off && d.start.mode == .starting && !d.hang.chipReset && decide (d.start.step = step)

/-! ## A Zenith reset (R331, R503) -/

/-- The journal as a reset leaves it: what the module holds. -/
def Journal.kept (j : Journal) : Journal :=
  { Journal.blank with sectors := j.sectors, sector := j.sector, sectorFill := j.sectorFill, erases := j.erases }

/-- A Wisp after a Zenith reset: its pattern state and image store are kept; a parked one stays parked, its copy lost (R331). -/
def Wisp.kept (w : Wisp) : Wisp :=
  { Wisp.init with pat := w.pat, parked := w.parked, parkReq := w.parkReq, supplyLost := w.supplyLost || w.parked }

/-- The part after a Zenith reset with these pins: the always-on slice, the module, the Wisps' image stores and what the inputs of
the switch port say are kept. -/
def Dev.resetZenith (d : Dev) (pins : Pins) (kind : Nat) : Dev :=
  let f := Dev.fresh d.aon { Ledger.blank with copyA := d.ledger.copyA, copyB := d.ledger.copyB } d.jnl.kept d.pat.slotBytes pins d.draws kind
  { f with
    wisps := Tbl.mapAll Wisp.init (fun _ w => w.kept) d.wisps
    hz.links := Tbl.mapAll { rtt := 0, measured := false, width := 0, up := false }
      (fun _ (l : Link) => { l with rtt := 0, measured := false }) d.hz.links
    hz.self := d.hz.self
    clock.zclkNow := d.clock.zclkNow }

/-- ODT_RESET_RELEASE (R448, R503): with its supply good, Odtil starts: cold where the always-on slice has just been powered. -/
def execOdtResetRelease (s : State) : Host.Outcome State Fault Refusal :=
  let d := s.dev
  let pins := { d.pins with resetHeld := false, pwrOk := true }
  if !d.off || !d.pins.chkPresent then .next s
  else
    let d1 := d.resetZenith pins (if d.aon.powered then 1 else 2)
    .next { s with dev := { d1 with aon.powered := false } }

/-! ## Unconfigured (R453) -/

/-- Entries of the module's log in the order written: the sector after the current one is the oldest. -/
def Journal.log (j : Journal) : List JEntry :=
  let old := j.sectors.filter (fun (e : Nat × List JEntry) => decide (j.sector < e.1))
  let new := j.sectors.filter (fun (e : Nat × List JEntry) => decide (e.1 ≤ j.sector))
  (old ++ new).flatMap Prod.snd

/-- The entries that replay accepts: up to the first that fails to unseal, at SEQ `bad`, or that breaks the SEQ sequence (R379). -/
def acceptedFrom (bad : Option Nat) : Option Nat → List JEntry → List JEntry
  | _, [] => []
  | prev, e :: l =>
    let inSeq := match prev with
      | some n => decide (e.seq = n + 1)
      | none => true
    if inSeq && decide (bad ≠ some e.seq) then e :: acceptedFrom bad (some e.seq) l else []

/-- START and SEQ follow what replay found (R377). -/
def Dev.numberJournal (d : Dev) (found : List JEntry) : Dev :=
  let starts := found.filterMap (fun (e : JEntry) => match e.body with
    | .start n _ _ _ _ => some n
    | _ => none)
  let next := match found.getLast? with
    | some e => e.seq + 1
    | none => 0
  { d with
    jnl.nextSeq := next
    jnl.durableSeq := found.getLast?.map (fun (e : JEntry) => e.seq)
    jnl.start := match starts.getLast? with
      | some n => n + 1
      | none => 0 }

/-- The always-on ZN_RST_CAUSE as a word (R358). -/
def AlwaysOn.rstWord (a : AlwaysOn) : Word := w32 (a.rstCause % 16 + 16 * (a.rstCount % 4096) + 65536 * a.rstFrame.toNat)

/-- The START entry (R375). -/
def Dev.startEntry (d : Dev) : Dev := d.jPush (.start d.jnl.start d.start.kind d.aon.rstWord Config.chipId d.cfg.digest)

/-- The start ends without a configuration (R452, R453): CHK_READY rises, CHK_ACTIVE does not. START is appended where the module is
BOUND. DEDUCED (log entry 153). -/
def Dev.unconfigured (d : Dev) : Dev :=
  let d1 := if d.ledger.state = .bound then (d.numberJournal (acceptedFrom none none d.jnl.log)).startEntry
    else { d with jnl.volatileRun := true }
  ({ d1 with start.mode := .unconfigured, start.step := 10, start.ready := true }).setZ Reg.ZN_START_FRAMES (w32 d.clock.frame)

/-! ## The ledger module (R415 to R417) -/

/-- Journal sectors of a module of 2^`density` bits (R414). -/
def sectorsOf (density : Nat) : Nat := (2 ^ density / 8 - 0x2220000) / 65536

/-- The copy of two with the larger WEAR, the first where it is equal (R415). -/
def largerWear (a b : Option LedgerHeader) : Option LedgerHeader :=
  match a, b with
  | some x, some y => if x.wear < y.wear then some y else some x
  | some x, none => some x
  | none, y => y

/-- The header copy whose clear values a format carries over (R416, R417). -/
def Ledger.clearCopy (l : Ledger) : Option LedgerHeader := largerWear l.copyA l.copyB

/-- A format (R417): a salt where the vault has none, a new generation and its key, both headers, and MODULE_FORMAT. Every sector of
the old generation is free. DEDUCED (log entry 151). -/
def Dev.format (d : Dev) (reason : Nat) : Dev :=
  let (n, d1) := if d.aon.saltValid then (0, d) else d.draw
  let (g, d2) := d1.draw
  let salt := if d.aon.saltValid then d.aon.salt else (Config.drbg n).setWidth 256
  let gen : DWord := (Config.drbg g).setWidth 64
  let old := d.ledger.clearCopy
  let sectors := sectorsOf d.ledger.density
  let h : LedgerHeader := {
    chip := Config.chipId, uid := d.ledger.uid, gen := gen, wear := (old.map (fun h => h.wear)).getD 0,
    endurance := d.cfg.endurance, slotWear0 := (old.map (fun h => h.slotWear0)).getD 0,
    slotWear1 := (old.map (fun h => h.slotWear1)).getD 0, sectors := sectors, imported := false, salt := some salt }
  ({ d2 with
    aon.salt := salt
    aon.saltValid := true
    ledger.state := .bound
    ledger.header := some h
    ledger.copyA := some h
    ledger.copyB := some h
    ledger.nextB := false
    ledger.keyHeld := true
    ledger.ledgerKey := Crypto.ledgerKey d.ledger.uid salt gen
    ledger.erasesSinceHeader := 0
    jnl.sectors := []
    jnl.sector := sectors - 1
    jnl.sectorFill := 65536
    jnl.durableSeq := none }).zEvent 7 0x7A 0 (w32 reason) 0 0 0

/-- The module is not usable (R416). -/
def Dev.moduleAbsent (d : Dev) : Dev :=
  ({ d with ledger.state := .absent, jnl.volatileRun := true }).ledgerNotice 0

/-- A header copy authenticates: it was written under the key that the vault's salt, this UID and its GEN give (R415). DEDUCED (log entry 150). -/
def Dev.authentic (d : Dev) (h : LedgerHeader) : Bool :=
  decide (h.chip = Config.chipId) && d.aon.saltValid && decide (h.salt = some d.aon.salt) && decide (h.uid = d.ledger.uid)

/-- The copy in use: of those that authenticate the one with the larger WEAR (R415). -/
def Dev.boundCopy (d : Dev) : Option LedgerHeader :=
  largerWear (d.ledger.copyA.filter d.authentic) (d.ledger.copyB.filter d.authentic)

/-- A module that identifies itself is bound by its header copies (R416). -/
def Dev.bindHeader (d : Dev) : Dev :=
  match d.boundCopy, d.ledger.copyA.orElse (fun _ => d.ledger.copyB) with
  | some h, _ =>
    { d with
      ledger.state := .bound
      ledger.header := some h
      ledger.nextB := decide (d.ledger.copyA = some h)
      ledger.keyHeld := true
      ledger.ledgerKey := Crypto.ledgerKey d.ledger.uid d.aon.salt h.gen }
  | none, none => d.format 0
  | none, some h =>
    if [d.ledger.copyA, d.ledger.copyB].any (fun c => c.any (fun h => decide (h.chip = Config.chipId))) then d.format 1
    else
      (({ d with ledger.state := .foreign, jnl.volatileRun := true }).zEvent 7 0x7B 0 (w32 h.chip.toNat)
        (w32 (h.chip.toNat / 2 ^ 32)) 0 0).ledgerNotice 0

/-- Another module has taken the place of the one before: its content is what Odtil finds (R422). -/
def Dev.loadModule (d : Dev) (x : ModuleContent) : Dev :=
  { d with
    ledger.copyA := x.copyA
    ledger.copyB := x.copyB
    jnl.sectors := x.sectors
    jnl.sector := x.sector
    jnl.sectorFill := x.sectorFill
    jnl.erases := x.erases
    pat.slotBytes := x.slots }

/-- MODULE_BIND (R416): no answer, too small or without a unique ID is ABSENT. -/
def Dev.bindModule (d : Dev) (m : Option ModuleId) : Dev :=
  match m with
  | none => d.moduleAbsent
  | some x =>
    if x.density.toNat < 29 || x.uid = 0 || x.uid = BitVec.allOnes 64 then d.moduleAbsent
    else
      let d1 := { d with ledger.uid := x.uid, ledger.jedec := x.jedec, ledger.density := x.density.toNat }
      ((x.content.map d1.loadModule).getD d1).bindHeader

/-! ## Steps 1 to 4 (R449) -/

/-- The unit that a failure of step 1 names; none for Zenith. -/
def failUnit (x : ArrayFail) : Option Nat :=
  match x.loc with
  | .zenith => none
  | .bank b => some (if x.array.toNat = 4 || x.row.isNone then anvilUnit b.val else bankUnit b.val)
  | .wisp b p => some (coreUnit b.val p.val)

/-- SELFTEST_FAIL of a failure (R455). -/
def Dev.selftestFail (d : Dev) (x : ArrayFail) : Dev :=
  d.zEvent 10 0x75 0 (w32 ((failUnit x).getD 0x1FFFF)) (w32 x.array.toNat) 0 0

/-- START_SELFTEST_DONE (R449 steps 1 and 2, R416, R467): with a failed Zenith checker, or without a module, Odtil runs
unconfigured. DESIGN CHOICE (log entry 149). -/
def execStartSelftestDone (failures : List ArrayFail) (module : Option ModuleId) (s : State) : Host.Outcome State Fault Refusal :=
  let d := s.dev
  if !d.startAt 1 then .next s
  else
    let d1 := failures.foldl (fun (acc : Dev) x => acc.selftestFail x) d
    let d2 := { d1 with start.failures := failures }
    let d3 := if failures.isEmpty then d2.setZf Reg.ZN_PROT_STAT 1 1 1 else d2
    if failures.any (fun x => decide (x.loc = ArrayLoc.zenith)) then
      .next { s with dev := (d3.setZ Reg.ZN_CFG_STAT 0xA).unconfigured }
    else
      let d4 := d3.bindModule module
      if d4.ledger.state = .absent then .next { s with dev := d4.unconfigured.refuseImage (cfgFail 2 0 0) }
      else .next { s with dev := { d4 with start.step := 3 } }

/-- IMAGE_READ_DONE (R446, R449 steps 3 and 4): the image is checked; it is used in every part, or in none. -/
def execImageReadDone (image : List Byte) (s : State) : Host.Outcome State Fault Refusal :=
  let d := s.dev
  if !d.startAt 3 then .next s
  else match d.checkImage image with
    | some x => .next { s with dev := d.unconfigured.refuseImage x }
    | none => .next { s with dev := { d.useImage image with start.step := 5, hang.wdog := 0 } }

/-! ## Steps 5 and 6 (R256, R379, R418) -/

/-- The SEQ of the CKPT_BEGIN of the latest complete checkpoint. -/
def lastCheckpoint (l : List JEntry) : Option Nat :=
  (l.filterMap (fun (e : JEntry) => match e.body with
    | .ckptEnd first _ => if l.any (fun (y : JEntry) => decide (y.seq = first.toNat)) then some first.toNat else none
    | _ => none)).getLast?

/-- The entries that replay applies: from the latest complete checkpoint on (R418). -/
def replayed (l : List JEntry) : List JEntry :=
  match lastCheckpoint l with
  | some n => l.filter (fun (e : JEntry) => decide (n ≤ e.seq))
  | none => l

/-- The entry of a unit set from the ledger. -/
def Dev.loadUnit (d : Dev) (u : Nat) (ws : List Word) : Dev := d.modUht u (fun _ => UhtEntry.ofWords ws (d.visits u))

/-- The entries of consecutive units set from the ledger. -/
def Dev.loadUnits (d : Dev) (first : Nat) : List (List Word) → Dev
  | [] => d
  | ws :: l => (d.loadUnit first ws).loadUnits (first + 1) l

/-- An entry replayed: those that set state (R379). -/
def Dev.replayEntry (d : Dev) (e : JEntry) : Dev :=
  match e.body with
  | .health u _ _ _ ws _ => d.loadUnit u ws
  | .ages first entries => d.loadUnits first entries
  | .remap b map vacant => d.modBank b (fun k => { k with cc.map := map, cc.vacant := vacant })
  | .repair b rows => d.modBank b (fun k => { k with repairs := rows })
  | .patslot slot version => { d with pat.slot := slot, pat.slotVersion := version }
  | _ => d

/-- An entry covers a unit (R256). -/
def JBody.covers (u : Nat) : JBody → Bool
  | .health v _ _ _ _ _ => decide (v = u)
  | .ages first entries => decide (first ≤ u) && decide (u < first + entries.length)
  | _ => false

/-- A core remap of a repair table put into the map of a Bank. -/
def Bank.mapRow (k : Bank) (r : RepairRow) : Bank :=
  if r.kind = 2 then { k with cc.map := Tbl.setK (fun n => n) k.cc.map r.frm r.dst } else k

/-- The repair table and the map that the fuses give before the ledger is replayed (R297, R299). -/
def Dev.loadFuses (d : Dev) : Dev :=
  d.aon.fuses.foldl (fun (acc : Dev) (e : Nat × (Nat × List RepairRow)) =>
    acc.modBank e.1 (fun k => e.2.2.foldl Bank.mapRow { k with repairs := e.2.2 })) d

/-- The journal tail is a certificate that meets R302. -/
def Dev.tailCert (d : Dev) (l : List JEntry) : Bool :=
  match l.getLast?.map (fun (e : JEntry) => e.body) with
  | some (.cert ws) =>
    let w (i : Nat) : Word := ws.getD i 0
    decide ((ws.drop 2).take 4 = leWords 4 Config.chipId.toNat) && decide ((ws.drop 12).take 12 = leWords 12 d.cfg.digest.toNat) &&
      bitOf (w 1) 16 && bitOf (w 1) 19
  | _ => false

/-- A prior on one unit (R256): Eclipse always, another state only where the ledger did not populate the unit. DEDUCED (log entry 154). -/
def Dev.applyPrior (d : Dev) (l : List JEntry) (st : Health) (u : Nat) : Dev :=
  if st = .eclipse || !l.any (fun (e : JEntry) => e.body.covers u) then
    d.modUht u (fun _ => { UhtEntry.init with state := st, reason := rPRIOR })
  else d

/-- The priors in the order of the image; the later entry wins (R442). -/
def Dev.applyPriors (d : Dev) (l : List JEntry) : Dev :=
  d.cfg.priors.foldl (fun (acc : Dev) (x : Prior) =>
    (List.range x.count).foldl (fun (acc : Dev) i => acc.applyPrior l x.state (x.first + i)) acc) d

/-- What Eclipse brings to a unit populated in it: isolation, or the mark for a remap (R237). -/
def Dev.settleEclipse (d : Dev) (u : Nat) : Dev :=
  if d.healthOf u ≠ .eclipse then d
  else match coreOfUnit u with
    | some c => d.markRemap (c / 264) (c % 264)
    | none => d.afterEclipse u

/-- The self-test of step 1 applied: failures as T2 FAIL, the passes of Anvils and Banks as qualification (R449 step 6). -/
def Dev.applySelftest (d : Dev) : Dev :=
  let bad := d.start.failures.filterMap failUnit
  let d1 := bad.eraseDups.foldl (fun (acc : Dev) u => acc.applyHealth u (.testFail 2)) d
  ((List.range 192).flatMap (fun b => [anvilUnit b, bankUnit b])).foldl (fun (acc : Dev) u =>
    if bad.contains u then acc else acc.applyHealth u (.testPass 2)) d1

/-- Population (R256, R449 step 6) from the entries replayed: every age starts at 0, so the sweep starts again here. DEDUCED (log entry 185). -/
def Dev.populate (d : Dev) (l : List JEntry) : Dev :=
  let fresh : Dev := { d with health.uht := [], health.sweepNo := 0, health.ceSweep := 0 }
  let d1 := l.foldl Dev.replayEntry fresh.loadFuses
  let d2 := d1.applyPriors l
  let d3 := (List.range 119232).foldl (fun (acc : Dev) u => acc.settleEclipse u) d2
  d3.applySelftest

/-- Step 5: the log is replayed where the module is BOUND and its key is held; what replay did not accept is dropped, and the START
entry is appended. Answers the entries applied. DEDUCED (log entry 152). -/
def Dev.replayJournal (d : Dev) (bad : Option Nat) (readError : Bool) : Dev × List JEntry :=
  if d.ledger.state = .bound && d.ledger.keyHeld then
    let log := d.jnl.log
    let found := acceptedFrom bad none log
    let cut := decide (found.length < log.length) || bad.isSome || readError
    let keep := found.map (fun (e : JEntry) => e.seq)
    let kind := if d.start.kind = 1 && d.cfg.fastPath && !cut && d.tailCert found then 3 else d.start.kind
    let d1 := ({ d with start.kind := kind }).numberJournal found
    let worn := decide (d1.wearBudget ≤ d1.wear)
    let d2 := { d1 with
      jnl.sectors := if cut then Tbl.mapAll [] (fun _ (es : List JEntry) => es.filter (fun (e : JEntry) => keep.contains e.seq)) d1.jnl.sectors else d1.jnl.sectors
      jnl.sectorFill := if cut then 65536 else d1.jnl.sectorFill
      jnl.volatileRun := d1.jnl.volatileRun || readError || worn
      ledger.advise := decide (9 * d1.wearBudget ≤ 10 * d1.wear) }
    let last := found.getLast?
    let d3 := if cut then
        d2.zEvent 7 0x09 0 ((last.map (fun (e : JEntry) => e.start)).getD 0) (w32 ((last.map (fun (e : JEntry) => e.seq)).getD 0))
          (w32 ((last.map (fun (e : JEntry) => e.seq)).getD 0 / 2 ^ 32)) 0
      else d2
    (d3.startEntry, replayed found)
  else ({ d with jnl.volatileRun := true, jnl.nextSeq := 0, jnl.start := 0 }.startEntry, [])

/-! ## Steps 7 to 9 and the end (R449 to R452) -/

/-- The Banks are released, with their tables loaded, the thermal model starts, and the choice of a package begins. -/
def Dev.releaseBanks (d : Dev) : Dev :=
  (({ d with start.banksReleased := true, start.step := 8 }).startModel).startPackage

/-- JOURNAL_REPLAY_DONE (R449 steps 5 and 6): replay ended, at SEQ `bad` where an entry failed to unseal, or on a read error; the
journal is numbered and the health table populated. Step 7 waits for HOST_CORES_UP where it is not asserted. -/
def execJournalReplayDone (bad : Option DWord) (readError : Bool) (s : State) : Host.Outcome State Fault Refusal :=
  let d := s.dev
  if !d.startAt 5 then .next s
  else
    let (d1, l) := d.replayJournal (bad.map (fun x => x.toNat)) readError
    let d2 := d1.populate l
    let d3 := { d2 with start.step := 7, start.hostWaitFrom := d.clock.frame }
    .next { s with dev := if d3.pins.hostCoresUp then d3.releaseBanks else d3 }

/-- HOST_CORES_UP (R450). DEDUCED (log entry 155). -/
def execHostCoresUp (s : State) : Host.Outcome State Fault Refusal :=
  .next (s.onDev (fun d =>
    let d1 := { d with pins.hostCoresUp := true }
    if d1.startAt 7 then d1.releaseBanks else d1))

/-- HOSTWAIT_EXPIRE (R450): the Banks are released anyway. -/
def execHostwaitExpire (s : State) : Host.Outcome State Fault Refusal :=
  let d := s.dev
  if !d.startAt 7 || d.clock.frame < d.start.hostWaitFrom + d.cfg.hostWait then .next s
  else
    let d1 := { d with start.lateHost := true }
    let d2 := d1.zEvent 10 0x74 0 (w32 (d.clock.frame - d.start.hostWaitFrom)) 0 0 0
    .next { s with dev := d2.releaseBanks }

/-- The end of a configured start (R452): CHK_READY and CHK_ACTIVE rise, START_DONE is recorded and the HELLO with START 1 leaves. -/
def Dev.endStart (d : Dev) : Dev :=
  let d1 := { d with start.mode := .configured, start.step := 10, start.ready := true, start.active := true, pins.swChecker := true }
  let d2 := d1.setZ Reg.ZN_START_FRAMES (w32 d.clock.frame)
  (d2.zEvent 10 0x73 0 1 (w32 d.start.kind) (w32 d.clock.frame) (w32 (bit d.start.skipped))).broadcastHello true

/-- Step 9 begins (R451): T1 on every position at once; a core without a valid image, or of a Bank out of service, is NOT_RUN. DEDUCED (log entry 156). -/
def Dev.startupTests (d : Dev) : Dev :=
  let all := (List.range 192).flatMap (fun b => (List.range 264).map (fun p => (b, p)))
  let can := all.filter (fun (x : Nat × Nat) => !d.bankDown x.1 && d.imageReady x.1 x.2)
  let n := all.length - can.length
  let d1 := can.foldl (fun (acc : Dev) (x : Nat × Nat) => acc.startTest x.1 x.2 1 false true none) d
  ({ d1 with start.step := 9, start.notRun := n }).setZ Reg.ZN_START_TVOID (w32 n)

/-- At a tick: step 8 is over once no slot is being read and no round runs; step 9 follows only on a cold start without certificate. -/
def Dev.startTick (d : Dev) : Dev :=
  if !d.startAt 8 || d.pat.phase ≠ 0 || !d.pat.readsLeft.isEmpty then d
  else if d.start.kind = 1 then d.startupTests
  else ({ d with start.skipped := true }).endStart

/-- A startup test is still in progress. -/
def Dev.startupLeft (d : Dev) : Bool :=
  d.banks.any (fun (e : Nat × Bank) => e.2.testList.any (fun (x : Nat × Test) => x.2.startup))

/-- STARTUP_TESTS_DONE (R451): every launched core has a result; STARTUP_TESTS is recorded and the start ends. -/
def execStartupTestsDone (s : State) : Host.Outcome State Fault Refusal :=
  let d := s.dev
  if !d.startAt 9 || d.startupLeft then .next s
  else
    let n (r : Nat) : Nat := (d.zreg r).toNat
    let d1 := d.zEvent 10 0x76 0 (w32 (n Reg.ZN_START_TPASS)) (w32 (n Reg.ZN_START_TFAIL)) (w32 (n Reg.ZN_START_TVOID - d.start.notRun))
      (w32 d.start.notRun)
    .next { s with dev := d1.endStart }

end Sys2Proof.Machine
end

