-- ==== Sys2Proof/Machine/Flags.lean ====
section
/-! DEFINITION. What every register reads (R7, R62, R119, R184, R226, R258 to R260, R281, R304, R329, R358, R381, R405, R435, R456,
R475, R486 to R501): the status flags and live fields, computed from the state whenever they are read, beside the stored values,
counters and results. -/

namespace Sys2Proof.Machine

/-- Word `i` of a mailbox. -/
def Mailbox.word (m : Mailbox) (i : Nat) : Word := m.data.getD i 0

/-- A stored value with computed fields in bits that it leaves 0. -/
def orWord (stored : Word) (v : Nat) : Word := stored ||| w32 v

/-- The number of entries of a list that satisfy `f`. -/
def countIf {α : Type} (f : α → Bool) (l : List α) : Nat := (l.filter f).length

/-! ## Time, launches and the stop (R62, R63) -/

/-- The block at 0x0400. -/
def Dev.readTime (d : Dev) (p : Path) (off : Nat) : Word :=
  let c := d.path p
  if off = Reg.ZN_TIME_MB_STAT then w32 (bit c.time.valid)
  else if off = Reg.ZN_TIME_MB_LO then c.time.word 0
  else if off = Reg.ZN_TIME_MB_HI then c.time.word 1
  else if off = Reg.ZN_ZCLK_KHZ then w32 d.clock.zclkKhz
  else if off = Reg.ZN_TICK_LAT then orWord (d.zreg off) (1 + Config.tickLatRaw % 255)
  else if off = Reg.ZN_LAUNCH_STAT then
    orWord (d.zreg off) (sumNat (d.clock.launch.map (fun e => at_ (8 + e.1) 1)))
  else if off = Reg.ZN_STOP_STAT then
    orWord (d.zreg off) (bit d.clock.stopped + 2 * bit (!d.clock.capturing.isEmpty))
  else if off = Reg.ZN_SEED_MB_STAT then orWord (d.zreg off) (bit c.seed.valid)
  else if off = Reg.ZN_SEED_MB_LO then c.seed.word 0
  else if off = Reg.ZN_SEED_MB_HI then c.seed.word 1
  else d.zreg off

/-! ## Contexts and the horizon (R184, R226) -/

/-- The code of a context state (R159). -/
def CtxState.code : CtxState → Nat
  | .free => 0
  | .active => 1
  | .failed => 2
  | .closing => 3
  | .cooling => 4

/-- ZN_CTX_STAT of a context. -/
def CtxCore.stat (x : CtxCore) : Nat :=
  x.result % 16 + at_ 4 (bit x.clipped) + at_ 5 x.state.code + at_ 8 (x.level % 8) +
    at_ 11 (((x.pend.map (fun q => q.level)).getD x.level) % 8) + at_ 14 (bit x.pend.isSome) + at_ 16 (x.failReason % 16)

/-- The contexts in state ACTIVE or FAILED. -/
def Dev.activeCtxs (d : Dev) : Nat :=
  countIf (fun (e : Nat × Ctx) => decide (e.2.core.state = .active) || decide (e.2.core.state = .failed)) d.ctxs

/-- The block at 0x0800. -/
def Dev.readCtx (d : Dev) (off : Nat) : Word :=
  let c := d.zf Reg.ZN_CTX_SEL 9 0
  let x := d.ctx c
  if off = Reg.ZN_LVL_USE then w32 (d.redund (fun _ => true) % 65536 + at_ 16 d.activeCtxs)
  else if off = Reg.ZN_CTX_STAT then w32 x.core.stat
  else if off = Reg.ZN_CTX_DRAIN then w32 (d.drain c % 2 ^ 20)
  else if off = Reg.ZN_CTX_DISCARDED then x.core.discarded
  else if off = Reg.ZN_CTX_DEAD_IN then x.core.deadIn
  else if off = Reg.ZN_CTX_CORES then
    w32 ((d.allCores c).length % 65536 + at_ 16 (d.redund (fun o => decide (o = c)) % 65536))
  else if off = Reg.ZN_CTX_INCARN then w32 (x.core.incarn % 65536)
  else d.zreg off

/-- The block at 0x1000 (R119). PAIRS_HALF counts a pair whose one Anvil is isolated with its whole Bank as well. DESIGN CHOICE (log entry 183). -/
def Dev.readAnv (d : Dev) (off : Nat) : Word :=
  if off = Reg.ZN_ANV_CAPS then w32 (0x0FFF + at_ 12 1 + at_ 13 7 + at_ 16 64)
  else if off = Reg.ZN_ANV_FUNCS then w32 (0x3FE + at_ 12 2)
  else if off = Reg.ZN_ANV_LIVE then
    let dead (b : Nat) : Bool := (d.bank b).anv.isolated
    let pairs := List.range 96
    w32 (countIf (fun b => !dead b) (List.range 192) + at_ 8 (countIf (fun i => dead (2 * i) != dead (2 * i + 1)) pairs) +
      at_ 16 (countIf (fun i => dead (2 * i) && dead (2 * i + 1)) pairs))
  else d.zreg off

/-- ZN_HZ_CTX_STAT of a context. DEDUCED (log entry 25). -/
def Dev.hzStat (d : Dev) (c : Nat) : Nat :=
  let h := (d.ctx c).hz
  h.epochs.length % 4 + at_ 2 (bit h.stall) + at_ 3 (bit h.retractPend) + at_ 4 (h.retracts % 256) +
    at_ 12 (min 16 (sumNat (h.epochs.map Epoch.realCount))) + at_ 17 (bit (h.epochs.any (fun e => e.exposed))) +
    at_ 18 (countIf (fun (e : Inbound) => decide (e.ctx = c)) d.hz.inbound % 8192) + at_ 31 (bit h.committedAny)

/-- ZN_HZ_LINK of a link. -/
def Dev.linkStat (d : Dev) (l : Nat) : Nat :=
  let x := d.link l
  min 0xFFFF x.rtt + at_ 16 (x.width % 128) + at_ 23 (bit x.up) + at_ 24 (if x.up then d.linkScale l else 0)

/-- The block at 0x1800. -/
def Dev.readHz (d : Dev) (off : Nat) : Word :=
  let h := (d.ctx (d.zf Reg.ZN_CTX_SEL 9 0)).hz
  if off = Reg.ZN_HZ_SELF then w32 (d.selfId + at_ 16 (bit d.hz.self.isSome))
  else if off = Reg.ZN_HZ_INB then w32 (d.hz.inbound.length % 8192 + at_ 16 (d.hz.peak % 8192))
  else if off = Reg.ZN_HZ_LOG then w32 (ceilDiv (32 * d.hz.log.length) (2 ^ 20) % 65536 + at_ 16 (bit d.logFull))
  else if off = Reg.ZN_HZ_PEND then
    let l := Tbl.keysP (fun _ (x : Ctx) => x.hz.retractPend) d.ctxs
    w32 (l.length + at_ 16 (l.headD 0))
  else if off = Reg.ZN_HZ_CTX_GROUP then w32 (h.group.toNat + at_ 16 (bit h.en))
  else if off = Reg.ZN_HZ_CTX_EPOCH then h.epoch
  else if off = Reg.ZN_HZ_CTX_COMMITTED then h.committed
  else if off = Reg.ZN_HZ_CTX_STAT then w32 (d.hzStat (d.zf Reg.ZN_CTX_SEL 9 0))
  else if off = Reg.ZN_HZ_CTX_RETR_FIRST then h.retrFirst
  else if off = Reg.ZN_HZ_CTX_RETR_LAST then h.retrLast
  else if off = Reg.ZN_HZ_CTX_STALL then h.stallFrames
  else match idxIn off Reg.ZN_HZ_LINK 16 4 with
    | some l => w32 (d.linkStat l)
    | none => d.zreg off

/-! ## Unit health, tests, patterns and shutdown (R258 to R260, R281, R304) -/

/-- The units in a state, reserved indices excluded. -/
def Dev.unitCount (d : Dev) (h : Health) : Nat :=
  let listed := Tbl.countP (fun _ (e : UhtEntry) => decide (e.state = h)) d.health.uht
  if h = .dawn then 119232 - d.health.uht.length + listed else listed

/-- The spares of a Bank that a remap may take (R251). -/
def Dev.spareCount (d : Dev) (b : Nat) : Nat :=
  countIf (fun p => d.bothIn b p Health.eligible) (d.bank b).cc.unmapped

/-- The logical cores of a Bank that are not vacant. -/
def Dev.capacity (d : Dev) (b : Nat) : Nat := 256 - (d.bank b).cc.vacant.length

/-- The block at 0x2000. -/
def Dev.readUht (d : Dev) (p : Path) (off : Nat) : Word :=
  let c := d.path p
  let banks := List.range 192
  if off = Reg.ZN_UHT_MB_STAT then w32 (bit c.uht.valid)
  else if off = Reg.ZN_UHT_CAP then
    let caps := banks.map d.capacity
    w32 (sumNat caps % 65536 + at_ 16 (caps.foldl min 256))
  else if off = Reg.ZN_UHT_SPARES then
    let spares := banks.map d.spareCount
    w32 (sumNat spares % 2048 + at_ 11 (countIf (fun n => decide (n = 0)) spares))
  else match idxIn off Reg.ZN_UHT_MB 4 4 with
    | some i => c.uht.word i
    | none => match idxIn off Reg.ZN_UHT_N 5 4 with
      | some i => w32 (((Health.ofCode i).map d.unitCount).getD 0)
      | none => d.zreg off

/-- The cores that a test result of the last request names. -/
def Dev.requestCount (d : Dev) (res : Nat) : Word :=
  w32 (((d.health.request.map (fun r => Tbl.countP (fun _ x => decide (x = res)) r.results)).getD 0) % 2 ^ 17)

/-- Tests running on a Bank, saves and restores included. -/
def Bank.running (k : Bank) : Nat := k.testList.length

/-- Cores with DUE set and no test running. -/
def Dev.waiting (d : Dev) : Nat :=
  let listed := Tbl.keysP (fun u (e : UhtEntry) => decide (u < 50688) && e.due) d.health.uht
  let asked := (d.health.request.map (fun r => if r.running then r.units else [])).getD []
  countIf (fun u => d.isDue u && !d.testing u) (listed ++ asked.filter (fun u => !listed.contains u))

/-- Cores with PATTERN_MISSING in force among the Banks that `f` selects. -/
def Dev.missingCores (d : Dev) (f : Nat → Bool) : Nat :=
  Tbl.countP (fun u (e : UhtEntry) => decide (u < 50688) && e.patMissing && f (u / 264)) d.health.uht

/-- The block at 0x2800. -/
def Dev.readTst (d : Dev) (off : Nat) : Word :=
  if off = Reg.ZN_TST_REQ_PASS then d.requestCount 0
  else if off = Reg.ZN_TST_REQ_FAIL then d.requestCount 1
  else if off = Reg.ZN_TST_REQ_VOID then d.requestCount 2
  else if off = Reg.ZN_TST_REQ_NOTRUN then w32 (((d.health.request.map (fun r => r.notRun)).getD 0) % 2 ^ 17)
  else if off = Reg.ZN_TST_ACTIVE then
    w32 (sumNat (d.banks.map (fun (e : Nat × Bank) => e.2.running)) % 65536 + at_ 16 (min 0xFFFF d.waiting))
  else if off = Reg.ZN_PAT_STAT then
    orWord (d.zreg off) (at_ 4 (if d.pat.phase = 0 then bit (!d.pat.stage.isEmpty) else d.pat.phase % 4) + at_ 6 ((d.banks.map (fun (e : Nat × Bank) => e.2.patRepair)).foldl max 0 % 4) +
      at_ 8 (bit d.pat.durable) + at_ 9 (d.pat.slot % 2))
  else if off = Reg.ZN_PAT_VER_LO then lo32 d.pat.version
  else if off = Reg.ZN_PAT_VER_HI then hi32 d.pat.version
  else if off = Reg.ZN_PAT_FLOOR_LO then lo32 d.aon.floor
  else if off = Reg.ZN_PAT_FLOOR_HI then hi32 d.aon.floor
  else if off = Reg.ZN_PAT_INFO then
    w32 (pkgImages d.pat.installed % 64 + at_ 6 (pkgPackets d.pat.installed % 65536) + at_ 22 (d.pat.round % 16))
  else if off = Reg.ZN_PAT_MISSING then w32 (d.missingCores (fun _ => true))
  else if off = Reg.ZN_SD_CORES_PASS then w32 (d.sd.ended 0 % 2 ^ 17)
  else if off = Reg.ZN_SD_CORES_FAIL then w32 (d.sd.ended 1 % 2 ^ 17)
  else if off = Reg.ZN_SD_CORES_VOID then w32 (d.sd.ended 2 % 2 ^ 17)
  else if off = Reg.ZN_SD_CORES_NOTRUN then w32 (d.sd.left % 2 ^ 17)
  else if off = Reg.ZN_SD_STAT then orWord (d.zreg off) (d.sd.phase % 16 + at_ 9 (bit d.pins.fusePwrOk))
  else d.zreg off

/-! ## Thermal and hangs (R308, R329, R358) -/

/-- A signed number in 16 bits. -/
def int16 (v : Int) : Nat := (v % 65536).toNat

/-- The 16 bytes of a node's state, as words (R308). -/
def Dev.nodeWords (d : Dev) (n : Nat) : List Word :=
  let x := d.node n
  let delta := max (-32768) (min 32767 (x.temp - x.prior))
  let m (i : Nat) : Nat := int16 (x.mins.getD i 0)
  let level := if n < tiles then Tbl.get 0 d.thm.levels n else 0
  [BitVec.ofInt 32 x.temp, w32 (int16 delta + 65536 * m 0), w32 (m 1 + 65536 * m 2),
   w32 (m 3 + at_ 16 (level % 16) + at_ 20 (bit x.absOver) + at_ 21 (bit x.riseOver) + at_ 24 (x.k % 4))]

/-- READ of ZN_THM_NODE_CMD: the selected node into the path's mailbox; a node that does not exist clears VALID (R329, R487). -/
def Dev.nodeRead (d : Dev) (p : Path) : Dev :=
  let n := d.zf Reg.ZN_THM_NODE_SEL 13 0
  d.modPath p (fun c => { c with node := if n < 3 * tiles then Mailbox.of (d.nodeWords n) else { c.node with valid := false } })

/-- ZN_THM_DIODE of a diode. -/
def Dev.diodeStat (d : Dev) (i : Nat) : Nat :=
  int16 (d.diode i).reading + at_ 16 (bit (d.diodeOk i)) + at_ 17 (bit (d.diode i).suspect)

/-- The block at 0x3000. -/
def Dev.readThm (d : Dev) (p : Path) (off : Nat) : Word :=
  let c := d.path p
  let max_ := if d.aon.thermTrip then 15 else (d.thm.levels.map Prod.snd).foldl max 0
  if off = Reg.ZN_THM_STAT then
    w32 ((if d.thm.started then d.thm.cadence % 4 else 3) + at_ 2 (bit (d.thm.started && d.riseActive)) + at_ 3 (bit d.thm.stopReq) +
      at_ 4 (bit d.aon.thermTrip) + at_ 5 (bit d.thm.emerg.isSome) + at_ 8 d.validDiodes.length + at_ 16 (max_ % 16))
  else if off = Reg.ZN_THM_HOT then w32 (d.thm.hot % 2 ^ 14 + at_ 16 (int16 d.thm.hotMargin))
  else if off = Reg.ZN_THM_NODE_MB_STAT then w32 (bit c.node.valid)
  else match idxIn off Reg.ZN_THM_NODE_MB 4 4 with
    | some i => c.node.word i
    | none => match idxIn off Reg.ZN_THM_DIODE 80 4 with
      | some i => w32 (d.diodeStat i)
      | none => d.zreg off

/-- The block at 0x3800. -/
def Dev.readHang (d : Dev) (off : Nat) : Word :=
  let inPhase (q : IncidentPhase) : Nat := countIf (fun (i : Incident) => decide (i.phase = q)) d.hang.incidents
  if off = Reg.ZN_HANG_STAT then
    w32 (min 15 (inPhase .requested) + at_ 4 (min 1023 (inPhase .queued)) +
      at_ 14 (min 1023 (countIf d.suppressed (List.range 1024))) +
      at_ 24 (bit (decide (d.zf Reg.ZN_WDOG 23 0 < 2 * d.hang.wdog))))
  else if off = Reg.ZN_RST_CAUSE then d.aon.rstWord
  else d.zreg off

/-! ## Records, debug and keys (R381, R405, R435) -/

/-- The block at 0x4000. -/
def Dev.readJnl (d : Dev) (p : Path) (off : Nat) : Word :=
  let c := d.path p
  if off = Reg.ZN_JNL_STAT then
    let used := d.jnl.used
    w32 (bit d.jnl.volatileRun + at_ 1 (bit (!d.jnl.staging.isEmpty)) + at_ 2 (min 256 (ceilDiv used 1024)) +
      at_ 11 (bit (decide (256 * 1024 < used + 16 * 1024))))
  else if off = Reg.ZN_JNL_START then d.jnl.start
  else if off = Reg.ZN_JNL_SEQ_STAT then w32 (bit c.jnl.valid)
  else if off = Reg.ZN_JNL_SEQ_LO then c.jnl.word 0
  else if off = Reg.ZN_JNL_SEQ_HI then c.jnl.word 1
  else if off = Reg.ZN_JNL_DUR_LO then c.jnl.word 2
  else if off = Reg.ZN_JNL_DUR_HI then c.jnl.word 3
  else d.zreg off

/-- A debug state that some context is in. -/
def Dev.someDbg (d : Dev) (st : Nat) : Bool := d.ctxs.any (fun e => decide (e.2.dbgState = st))

/-- The block at 0x4800. -/
def Dev.readDbg (d : Dev) (off : Nat) : Word :=
  if off = Reg.ZN_CTR_S_CTX then 0
  else if off = Reg.ZN_BRK_STAT then
    w32 (sumNat (((d.dbg.hits.map (fun h => h.entry)).eraseDups).map (fun e => 2 ^ e)) + at_ 8 (bit (d.someDbg 1)) +
      at_ 9 (bit (d.someDbg 2)))
  else if off = Reg.ZN_BRK_CTXSTAT then w32 ((d.ctx (d.zf Reg.ZN_CTX_SEL 9 0)).dbgState % 4)
  else if off = Reg.ZN_WFG_STAT then w32 (d.dbg.wfg % 4)
  else if off = Reg.ZN_WFG_AREA then w32 (d.dbg.graphAt % 2 ^ 24)
  else match idxIn off Reg.ZN_CTR_S_STAT 8 0x20 with
    | some s => w32 (bit (d.streamOn s))
    | none => match idxIn off Reg.ZN_DMP_STAT 4 0x20 with
      | some e =>
        let x := d.dump e
        w32 (x.state % 8 + at_ 3 (bit x.truncated) + at_ 4 (x.extents.length % 128) + at_ 16 (x.cwFail % 65536))
      | none => match idxIn off Reg.ZN_DMP_BYTES 4 0x20 with
        | some e => w32 ((d.dump e).units % 2 ^ 28)
        | none => d.zreg off

/-- The code of how the module is bound. -/
def LedgerState.code : LedgerState → Nat
  | .absent => 0
  | .bound => 1
  | .foreign => 2

/-- WEAR in thousandths of its budget, at most 1,000. -/
def Dev.wearPermille (d : Dev) : Nat :=
  if d.wearBudget = 0 then (if d.wear = 0 then 0 else 1000) else min 1000 (1000 * d.wear / d.wearBudget)

/-- The block at 0x5000. -/
def Dev.readKeys (d : Dev) (off : Nat) : Word :=
  if off = Reg.ZN_ALM_STAT then
    w32 (d.aon.alarmLevel % 4 + at_ 2 d.aon.raised.toNat + at_ 8 d.alarms.asserted.toNat + at_ 14 (d.aon.debugFails % 4) +
      at_ 16 (bit d.alarms.debugOpen) + at_ 17 (bit d.alarms.entFail) + at_ 18 (bit d.aon.saltValid))
  else if off = Reg.ZN_LDG_STAT then
    w32 (d.ledger.state.code + at_ 2 (bit d.jnl.volatileRun) + at_ 3 (bit d.ledger.advise) +
      at_ 4 (bit ((d.ledger.header.map (fun h => h.imported)).getD false)) + at_ 16 (d.ledger.density % 256))
  else if off = Reg.ZN_LDG_WEAR then w32 d.wearPermille
  else if off = Reg.ZN_LDG_UID_LO then lo32 d.ledger.uid
  else if off = Reg.ZN_LDG_UID_HI then hi32 d.ledger.uid
  else if off = Reg.ZN_LDG_JEDEC then d.ledger.jedec.setWidth 32
  else if off = Reg.ZN_AFS_STAT then
    w32 (d.afsin.dynAddr.toNat + at_ 7 (bit d.afsin.session.isSome) + at_ 8 (d.afsin.notices.length % 256) + at_ 16 (bit d.alertN))
  else match idxIn off Reg.ZN_KEY_ID 4 4 with
    | some i => (leWords 4 Config.chipId.toNat).getD i 0
    | none => d.zreg off

/-! ## Start, protection and the window's own registers (R456, R475, R488, R490, R498) -/

/-- The code of how Odtil runs. -/
def Mode.code : Mode → Nat
  | .starting => 0
  | .configured => 1
  | .unconfigured => 2

/-- The block at 0x5800. -/
def Dev.readStart (d : Dev) (off : Nat) : Word :=
  let x := d.start
  if off = Reg.ZN_START_STAT then
    w32 (x.mode.code + at_ 2 (x.step % 16) + at_ 6 (x.kind % 4) + at_ 8 (bit x.skipped) + at_ 9 (bit x.lateHost) +
      at_ 10 (bit x.ready) + at_ 11 (bit x.active))
  else match idxIn off Reg.ZN_CFG_DIGEST 12 4 with
    | some i => w32 (leNat (((Crypto.beBytes 48 d.cfg.digest.toNat).drop (4 * i)).take 4))
    | none => d.zreg off

/-- The block at 0x6000. -/
def Dev.readProt (d : Dev) (off : Nat) : Word :=
  if off = Reg.ZN_PROT_STAT then orWord (d.zreg off) (bit d.prot.patrolBusy)
  else if off = Reg.ZN_SCR_STAT then
    orWord (d.zreg off) (match d.prot.scrub with
      | none => 0
      | some _ => if d.clock.stopped then 2 else 1)
  else d.zreg off

/-- The block at 0x7000. BUSY reads 0: a broadcast write is applied whole. -/
def Dev.readInd (d : Dev) (p : Path) (off : Nat) : Word :=
  let c := d.path p
  if off = Reg.ZN_IND_ADDR then c.indAddr
  else if off = Reg.ZN_IND_CTL then w32 (c.indInc % 4)
  else if off = Reg.ZN_IND_STAT then w32 (c.indResult % 8 + at_ 3 (bit c.indWrap) + at_ 5 (c.indCount % 256))
  else if off = Reg.ZN_MB_STAT then orWord (d.zreg off) (bit c.wide.valid)
  else match idxIn off Reg.ZN_MB_DATA 20 4 with
    | some i => c.wide.word i
    | none => d.zreg off

/-- ZN_REG_WHOAMI: the privilege of the access and, for P2, its context. -/
def whoAmI : Path → Nat
  | .hostP1 => 1
  | .hostP2 c => 2 + 4 * c.val
  | .mgmt => 0
  | .steward => 3
  | .cc _ => 1

/-- The identity registers at 0x0000 (R498). -/
def Dev.readId (d : Dev) (p : Path) (off : Nat) : Word :=
  if off = Reg.ZN_ID_PRODUCT then 0x4F44C192
  else if off = Reg.ZN_ID_REVISION then w32 (Config.stepping.toNat + at_ 8 1)
  else if off = Reg.ZN_ID_PARAM0 then w32 (192 + at_ 8 264 + at_ 17 256)
  else if off = Reg.ZN_ID_PARAM1 then w32 (64 + at_ 8 131072)
  else if off = Reg.ZN_ID_PARAM2 then w32 (196608 + at_ 18 29)
  else if off = Reg.ZN_REG_WHOAMI then w32 (whoAmI p)
  else d.zreg off

/-- What a register of the Zenith window reads on a path. -/
def Dev.readZn (d : Dev) (p : Path) (off : Nat) : Word :=
  if off < 0x0400 then d.readId p off
  else if off < 0x0800 then d.readTime p off
  else if off < 0x1000 then d.readCtx off
  else if off < 0x1800 then d.readAnv off
  else if off < 0x2000 then d.readHz off
  else if off < 0x2800 then d.readUht p off
  else if off < 0x3000 then d.readTst off
  else if off < 0x3800 then d.readThm p off
  else if off < 0x4000 then d.readHang off
  else if off < 0x4800 then d.readJnl p off
  else if off < 0x5000 then d.readDbg off
  else if off < 0x5800 then d.readKeys off
  else if off < 0x6000 then d.readStart off
  else if off < 0x7000 then d.readProt off
  else d.readInd p off

/-! ## Bank registers (R156, R185, R260, R282, R305, R359, R382, R406, R496, R500) -/

/-- BK_ANV_STAT. -/
def Dev.anvStat (d : Dev) (b : Nat) : Nat :=
  let a := (d.bank b).anv
  let on (x : BankAnv) : Bool := !x.isolated && x.resetAt.isNone
  bit (on a) + at_ 1 (bit (a.isolated && !(d.bank b).isolated && !(d.bank (partner b)).anv.isolated)) + at_ 2 (bit (d.hosting b)) +
    at_ 3 (bit (a.held.any (fun x => x.needsSeed))) + at_ 16 ((sumNat (a.queue.map (fun e => e.2.length)) + a.done.length) % 2048)

/-- BK_ANV_CHQ of a channel. -/
def BankAnv.chqWord (a : BankAnv) (c : Nat) : Nat :=
  let parked := match headOf (a.chanQueue c) with
    | some x => decide (x.st = .parked)
    | none => false
  min 64 (a.inUse c).length + at_ 7 (bit parked) + at_ 8 (min 64 (Tbl.get 0 a.slotsLast c))

/-- The Anvil and ownership registers of a Bank, below 0x1000. -/
def Dev.readBkLow (d : Dev) (b off : Nat) : Word :=
  let k := d.bank b
  if off = Reg.BK_ID then w32 (b + at_ 8 (partner b))
  else if off = Reg.BK_ANV_STAT then w32 (d.anvStat b)
  else match k.tableWord off with
    | some w => w
    | none => match idxIn off Reg.BK_ANV_CHQ 16 4 with
      | some c => w32 (k.anv.chqWord c)
      | none => match idxIn off Reg.BK_SUB_D 8 4 with
        | some _ => 0
        | none => k.reg off

/-- BK_TST_STAT. -/
def Bank.tstStat (k : Bank) : Nat :=
  let l := k.testList
  l.length % 512 + at_ 9 (bit (l.any (fun t => decide (t.2.phase = .saving) || decide (t.2.phase = .restoring))))

/-- BK_PAT_STAT. -/
def Dev.bkPatStat (d : Dev) (b : Nat) : Nat :=
  countIf (fun p => (d.wisp b p).pat.valid) (List.range 264) + at_ 9 (d.missingCores (fun x => decide (x = b))) +
    at_ 18 ((d.bank b).patRepair % 4)

/-- BK_SD_STAT. -/
def Dev.bkSdStat (d : Dev) (b : Nat) : Nat :=
  let k := d.bank b
  bit k.arrayDone + at_ 1 (bit k.arrayFail) + at_ 2 (countIf (fun (r : RepairRow) => !r.fused) k.repairs % 128) +
    at_ 9 (countIf (fun (r : RepairRow) => r.fused) k.repairs % 128) + at_ 16 (d.fuseBudget b % 128)

/-- BK_HANG_STAT. -/
def Dev.bkHangStat (d : Dev) (b : Nat) : Nat :=
  let k := d.bank b
  countIf (fun p => (d.wisp b p).busy) (List.range 264) +
    at_ 9 (bit (d.hang.incidents.any (fun i => i.phase == .capturing && i.banksLeft.contains b))) +
    at_ 10 (bit (k.resetAt.isSome || k.anv.resetAt.isSome))

/-- The registers of a Bank from 0x1000 to 0x1800. -/
def Dev.readBkMid (d : Dev) (b off : Nat) : Word :=
  let k := d.bank b
  if off = Reg.BK_RMP_STAT then d.rmpStat b
  else if off = Reg.BK_TST_STAT then w32 k.tstStat
  else if off = Reg.BK_PAT_STAT then w32 (d.bkPatStat b)
  else if off = Reg.BK_SD_STAT then w32 (d.bkSdStat b)
  else if off = Reg.BK_HANG_STAT then w32 (d.bkHangStat b)
  else match idxIn off Reg.BK_RMP_MAP 256 4 with
    | some n => w32 (Tbl.getK (fun i => i) k.cc.map n % 512 + at_ 9 (bit (k.cc.vacant.contains n)))
    | none => k.reg off

/-- The record and debug registers of a Bank, from 0x1800 to 0x2000. -/
def Dev.readBkRec (d : Dev) (b off : Nat) : Word :=
  let k := d.bank b
  let r := k.ring
  if off = Reg.BK_REC_CTL then w32 (bit r.frozenAt.isSome)
  else if off = Reg.BK_REC_STAT then
    w32 (r.count % 4096 + at_ 12 (bit r.frozenAt.isSome) + at_ 13 (bit (decide (2048 ≤ r.count))) + at_ 14 (bit r.valid))
  else if off = Reg.BK_REC_RD then w32 r.rd
  else if off = Reg.BK_REC_WR then w32 r.wr
  else if off = Reg.BK_REC_IDX then w32 r.idx
  else if off = Reg.BK_REC_LOST then w32 r.lost
  else if off = Reg.BK_REC_SATURATED then r.saturated
  else if off = Reg.BK_TRC_RD then w32 k.dbg.trcRd
  else if off = Reg.BK_TRC_WR then w32 k.dbg.trcWr
  else if off = Reg.BK_DBG_STAT then w32 (k.dbg.staged.length % 2048 + at_ 11 (bit (d.dbgStops b)))
  else match idxIn off Reg.BK_REC_W 8 4 with
    | some i => r.copy.getD i 0
    | none => match idxIn off Reg.BK_CTR_RD 8 8 with
      | some s => w32 (Tbl.get 0 k.dbg.ctrRd s)
      | none => match idxIn off Reg.BK_CTR_WR 8 8 with
        | some s => w32 (Tbl.get 0 k.dbg.ctrWr s)
        | none => k.reg off

/-- The word of BK_CC_HOLD (R496). -/
def Dev.holdWord (d : Dev) (b : Nat) : Nat :=
  sumNat ((List.range 11).map (fun n => at_ n (bit (d.holdOn b (d.bank b).cc.sel n)))) +
    at_ 31 (bit ((List.range 1024).any (fun c => (d.bank b).owns c && (List.range 11).any (d.holdOn b c))))

/-- The head of a replay queue, as BK_CC_RPL0 to BK_CC_RPL4 read it. -/
def ReplayReq.word (r : ReplayReq) (i : Nat) : Word :=
  match i with
  | 0 => w32 (r.ticket % 65536 + at_ 16 (r.ctx % 1024))
  | 1 => r.step
  | 2 => w32 (r.origBank % 256 + at_ 8 (r.origCore % 256) + at_ 16 (r.core % 256))
  | 3 => w32 r.scratch
  | _ => w32 (r.scratch / 2 ^ 32 % 65536)

/-- The control-core interface block, from 0x2000. -/
def Dev.readBkCc (d : Dev) (b off : Nat) : Word :=
  let c := (d.bank b).cc
  if off = Reg.BK_CC_HOLD then w32 (d.holdWord b)
  else if off = Reg.BK_CC_SEL then w32 c.sel
  else if off = Reg.BK_CC_RPL_STAT then w32 c.replays.length
  else if off = Reg.BK_CC_RMP then
    match c.remaps with
    | r :: _ => w32 (r.logical % 256 + at_ 8 (r.oldPos % 512) + at_ 17 (r.newPos % 512))
    | [] => 0
  else if off = Reg.BK_CC_RMP_STAT then w32 c.remaps.length
  else match idxIn off Reg.BK_CC_RPL0 5 4 with
    | some i => ((c.replays.head?).map (fun r => r.word i)).getD 0
    | none => 0

/-- What a Bank register reads. -/
def Dev.readBk (d : Dev) (b off : Nat) : Word :=
  if off < 0x1000 then d.readBkLow b off
  else if off < 0x1800 then d.readBkMid b off
  else if off < 0x1A00 then d.readBkRec b off
  else if off < 0x2000 then (d.bank b).reg off
  else d.readBkCc b off

/-! ## Wisp registers (R92, R157, R282, R330, R359, R382, R407, R501) -/

/-- WS_ID. -/
def Dev.wsId (d : Dev) (b q : Nat) : Nat :=
  q + at_ 9 b + (match (d.bank b).cc.logicalOf q with
    | some n => at_ 17 1 + at_ 18 n
    | none => 0)

/-- The bits of the receive bitmap that WS_PAT_MAPi shows. -/
def WispPat.mapWord (x : WispPat) (i : Nat) : Word :=
  w32 (sumNat ((List.range 32).map (fun j => if x.bitmap.contains (32 * i + j) then 2 ^ j else 0)))

/-- The pattern, thermal and hang registers of a Wisp. -/
def Dev.readWsPat (d : Dev) (b q off : Nat) : Word :=
  let w := d.wisp b q
  let x := w.pat
  if off = Reg.WS_PAT_CFG then w32 (x.first % 2 ^ 15 + at_ 15 (x.count % 2048) + at_ 26 (x.round % 16))
  else if off = Reg.WS_PAT_CRC then x.crc
  else if off = Reg.WS_PAT_STAT then
    w32 (x.bitmap.length % 2048 + at_ 11 (bit x.valid) + at_ 12 (bit x.excluded) + at_ 13 (bit (d.uht (coreUnit b q)).patMissing))
  else if off = Reg.WS_PAT_VER_LO then lo32 x.version
  else if off = Reg.WS_PAT_VER_HI then hi32 x.version
  else if off = Reg.WS_THM_STAT then
    w32 (d.wispLevel b q % 16 + at_ 4 (w.estL % 256) + at_ 12 (w.estM % 256) + at_ 20 (w.droop % 256))
  else if off = Reg.WS_HANG_WAIT then w.wait
  else match idxIn off Reg.WS_PAT_MAP 32 4 with
    | some i => x.mapWord i
    | none => w.reg off

/-- What a Wisp register reads on a path. -/
def Dev.readWs (d : Dev) (p : Path) (b q off : Nat) : Word :=
  let w := d.wisp b q
  let u := coreUnit b q
  let c := d.path p
  let x := Tbl.get Mailbox.init c.extreme u
  let n := Tbl.get Mailbox.init c.counter u
  if off = Reg.WS_ID then w32 (d.wsId b q)
  else if off = Reg.WS_CW_STAT then
    w32 (w.opens.length % 16 + at_ 4 (countIf (fun (l : LoadBlk) => l.taken) w.loads % 4) + at_ 6 (w.sigRegs % 16))
  else if off = Reg.WS_SMP_STAT then w32 (w.pend.length % 8 + at_ 3 (bit w.holdReq))
  else if off = Reg.WS_REC_CTL then w32 (bit w.frozenAt.isSome)
  else if off = Reg.WS_REC_X_STAT then w32 (bit x.valid + at_ 1 (bit (c.extremeEmpty.contains u)))
  else if off = Reg.WS_REC_X_MB0 then x.word 0
  else if off = Reg.WS_REC_X_MB1 then x.word 1
  else if off = Reg.WS_REC_X_MB2 then x.word 2
  else if off = Reg.WS_CTR_STAT then w32 (bit n.valid)
  else if off = Reg.WS_CTR_MB0 then n.word 0
  else if off = Reg.WS_CTR_MB1 then n.word 1
  else match idxIn off Reg.WS_REC_HIST 256 4 with
    | some i => Tbl.get 0 w.hist i
    | none => d.readWsPat b q off

/-- What a target reads on a path. -/
def Dev.readTarget (d : Dev) (p : Path) : Target → Word
  | .zn off => d.readZn p off
  | .bk b off => d.readBk b off
  | .ws b q off => d.readWs p b q off

end Sys2Proof.Machine
end

