-- ==== Sys2Proof/Machine/Registers.lean ====
section
/-! DEFINITION. The register interface (R477 to R501): what an applied write does to each register, the commands of CMD bits,
the indirect window with its increments and broadcast writes, the bit-alias window, and the reads that have effects. -/

namespace Sys2Proof.Machine

/-! ## The wide mailbox (R488) -/

/-- READ of ZN_MB_CMD: the selected accumulator into the path's wide mailbox; a READ that ends BADSEL or ISOLATED clears VALID
(R487, R488). -/
def Dev.accRead (d : Dev) (p : Path) : Dev :=
  let src := d.zf Reg.ZN_MB_SEL 1 0
  let b := d.zf Reg.ZN_MB_SEL 9 2
  let fail (r : Nat) : Dev :=
    (d.modPath p (fun c => { c with wide := { c.wide with valid := false } })).setZf Reg.ZN_MB_STAT 2 1 r
  if 2 ≤ src || 192 ≤ b then fail 2
  else if (d.bank b).isolated then fail 3
  else
    let x := Tbl.get ChanCtx.init (d.bank b).anv.ctxs (d.zf Reg.ZN_MB_SEL 13 10)
    let acc := if src = 0 then x.sum else x.abs
    (d.modPath p (fun c => { c with wide := Mailbox.of (leWords 20 acc.toNat) })).setZf Reg.ZN_MB_STAT 2 1 1

/-- ACCUMULATOR_READ. -/
def execAccumulatorRead (p : Path) (s : State) : Host.Outcome State Fault Refusal :=
  .next (s.onDev (fun d => d.cmdZ p Reg.ZN_MB_CMD 1 (fun d => d.accRead p)))

/-! ## Commands (R483) -/

/-- A moment within the frame that a write does not state. DESIGN CHOICE (log entry 26). -/
def Dev.someZc (d : Dev) (f : Dev → Nat → Dev) : Dev :=
  let (n, d1) := d.draw
  f d1 (Config.freeZc n).val

/-- The command that a write of a Zenith register gives; the write sets exactly one CMD bit. INSTALL, which reaches host memory,
stands apart. -/
def Dev.zCommand (d : Dev) (p : Path) (off : Nat) (v : Word) : Dev :=
  let first := bitOf v 0
  let second := bitOf v 1
  if off = Reg.ZN_TIME_CMD then d.someZc (fun d zc => d.timeSnap p zc)
  else if off = Reg.ZN_LAUNCH_CMD then if first then d.launchArm else d.launchCancel (bitsOf v 10 8)
  else if off = Reg.ZN_SEED_CMD then d.seedRead p
  else if off = Reg.ZN_CTX_CMD then if first then d.create else if second then d.setLevel else d.teardown
  else if off = Reg.ZN_HZ_CTX_CMD then d.resume
  else if off = Reg.ZN_UHT_CMD then if first then d.uhtRead p else d.uhtSet
  else if off = Reg.ZN_TST_REQ_CMD then
    if first then (d.startRequest (d.zreg Reg.ZN_TST_REQ_SEL) (d.zreg Reg.ZN_TST_REQ_COUNT)).1 else d.endRequest
  else if off = Reg.ZN_PAT_CMD then d.rebcast
  else if off = Reg.ZN_SD_CMD then if first then (d.startShutdown (pathHost p)).1 else d.cancelShutdown
  else if off = Reg.ZN_THM_NODE_CMD then d.nodeRead p
  else if off = Reg.ZN_WDOG_KICK then { d with hang.wdog := 0 }
  else if off = Reg.ZN_RECOV_CMD then
    d.recovCmd p (fun d =>
      if first then d.recover else if second then d.cmdAnvReset (bitsOf v 15 8) else d.cmdBankReset (bitsOf v 15 8))
  else if off = Reg.ZN_REC_CLR_CMD then
    d.someZc (fun d zc => if first then d.recClrArm p zc else d.recClrClear p zc)
  else if off = Reg.ZN_JNL_SEQ_CMD then d.jnlSnap p
  else if off = Reg.ZN_DMP_CMD then if first then d.dumpArm (bitsOf v 9 8) else d.dumpCancel (bitsOf v 9 8)
  else if off = Reg.ZN_BRK_CMD then if first then d.continueCtx (bitsOf v 25 16) else d.continueEvery
  else if off = Reg.ZN_WFG_CMD then d.startGraph
  else if off = Reg.ZN_EXP_CMD then (d.startExport (pathHost p)).1
  else if off = Reg.ZN_PROT_CMD then d.startPatrol
  else if off = Reg.ZN_SCR_CMD then if first then d.scrubStart (pathHost p) else d.endScrub 8
  else if off = Reg.ZN_MB_CMD then d.accRead p
  else d

/-- The command that a write of a Bank register gives (R156, R163, R205, R251, R496). -/
def State.bCommand (s : State) (p : Path) (b off : Nat) (v : Word) : State :=
  s.onDev (fun d =>
    if off = Reg.BK_SUB_CMD then d.submit s.mem b
    else if off = Reg.BK_CC_MARK then d.endStep p b (bitsOf v 25 16) (bitOf v 1) v
    else if off = Reg.BK_CC_ANSWER then if bitOf v 0 then d.ccDone s.mem b v else d.ccNofit b v
    else if off = Reg.BK_CC_RMP_TAKE then d.modBank b (fun k => { k with cc.remaps := k.cc.remaps.drop 1 })
    else d)

/-- The command that a write of a Wisp register gives (R382, R407). -/
def Dev.wCommand (d : Dev) (p : Path) (b q off : Nat) : Dev :=
  if off = Reg.WS_REC_X_CMD then d.extremeRead p b q
  else if off = Reg.WS_CTR_CMD then d.counterRead p b q
  else d

/-- A command by its register. -/
def State.command (s : State) (p : Path) (t : Target) (v : Word) : State :=
  match t with
  | .zn off => if off = Reg.ZN_PAT_CMD && bitOf v 0 then s.installCmd p else s.onDev (fun d => d.zCommand p off v)
  | .bk b off => s.bCommand p b off v
  | .ws b q off => s.onDev (fun d => d.wCommand p b q off)

/-! ## Applied writes -/

/-- A write sets the EN bit of a masked register. -/
def enables (v : Word) : Bool := bitOf v 0 && bitOf v 16

/-- A write of a Zenith register, `w` the value that it leaves. EN of a stream, a breakpoint and the trace is refused at Lock, and
for a region that is in use (R385, R404); the registers of a context, and of a path, are the context's and the path's (R226, R477). DEDUCED (log entry 20). -/
def Dev.putZn (d : Dev) (p : Path) (off : Nat) (v w : Word) : Dev :=
  if off = Reg.ZN_HZ_CTX_GROUP then
    d.modCtx (d.zf Reg.ZN_CTX_SEL 9 0) (fun x => { x with hz := { x.hz with group := w.setWidth 16, en := bitOf w 16 } })
  else if off = Reg.ZN_IND_ADDR then d.modPath p (fun c => { c with indAddr := w &&& 0xFFFFFFFC, indWrap := false })
  else if off = Reg.ZN_IND_CTL then d.modPath p (fun c => { c with indInc := bitsOf w 1 0 })
  else if off = Reg.ZN_TRC_CTL && enables v then
    if d.locked then d else if d.enableTrace then d.setZ off w else d.bumpZ Reg.ZN_DBG_CNT_REJECT
  else if enables v && (idxIn off Reg.ZN_BRK_CFG 8 0x10).isSome then
    if d.locked then d
    else
      let n := (idxIn off Reg.ZN_BRK_CFG 8 0x10).getD 0
      ({ d with dbg.passes := Tbl.erase d.dbg.passes n }).setZ off w
  else if enables v && (idxIn off Reg.ZN_CTR_S_CFG 8 0x20).isSome then
    if d.locked then d
    else match d.enableStream ((idxIn off Reg.ZN_CTR_S_CFG 8 0x20).getD 0) with
      | some d1 => d1.setZ off w
      | none => d.bumpZ Reg.ZN_DBG_CNT_REJECT
  else d.setZ off w

/-- A read pointer moves within the span from RD to WR of a ring of `size` units (R406). -/
def rdMoves (size rd wr v : Nat) : Bool :=
  decide (v = rd) || (decide (v < size) && decide (ringUse size rd v ≤ ringUse size rd wr))

/-- The size of a ring, in 16-byte units. -/
def Dev.ringUnits (d : Dev) (sizeReg : Nat) : Nat := 256 * d.zf sizeReg 15 0

/-- A write of a table of a Bank (R141, R160, R185). -/
def Dev.putTable (d : Dev) (b off : Nat) (w : Word) : Dev :=
  match idxIn off Reg.BK_ANV_SLOT 16 4 with
  | some n => d.modBank b (fun k => { k with
      anv.slotsStaged := (List.range 4).foldl (fun (t : Tbl Nat) i => Tbl.put t (4 * n + i) (bitsOf w (4 * i + 3) (4 * i))) k.anv.slotsStaged })
  | none => match idxIn off Reg.BK_CTX_OWN 256 4 with
    | some n => d.writeOwner b n (bitsOf w 9 0) (bitsOf w 11 10)
    | none => match idxIn off Reg.BK_CTX_PAIR 256 4 with
      | some n => d.modBank b (fun k => { k with cc.pair := Tbl.set (0, 0) k.cc.pair n (bitsOf w 7 0, bitsOf w 15 8) })
      | none => d

/-- A write of a Bank register outside its tables. -/
def Dev.putBk (d : Dev) (b off : Nat) (v w : Word) : Dev :=
  let k := d.bank b
  if off = Reg.BK_REC_CTL then d.recFreeze b v
  else if off = Reg.BK_REC_RD then d.recRd b v
  else if off = Reg.BK_REC_IDX then d.modBank b (fun k => { k with ring.idx := bitsOf w 10 0 })
  else if off = Reg.BK_TRC_RD then
    if rdMoves (d.ringUnits Reg.ZN_TRC_SIZE) k.dbg.trcRd k.dbg.trcWr (bitsOf w 23 0) then
      d.modBank b (fun k => { k with dbg.trcRd := bitsOf w 23 0 })
    else d
  else if off = Reg.BK_CC_SEL then d.modBank b (fun k => { k with cc.sel := bitsOf w 9 0 })
  else if off = Reg.BK_CC_STEP then d.modBank b (fun k => { k with cc.step := v })
  else match idxIn off Reg.BK_CTR_RD 8 8 with
    | some s =>
      if rdMoves (d.ringUnits (Reg.ZN_CTR_S_SIZE + 0x20 * s)) (Tbl.get 0 k.dbg.ctrRd s) (Tbl.get 0 k.dbg.ctrWr s) (bitsOf w 23 0) then
        d.modBank b (fun k => { k with dbg.ctrRd := Tbl.set 0 k.dbg.ctrRd s (bitsOf w 23 0) })
      else d
    | none => match idxIn off Reg.BK_SUB_D 8 4 with
      | some _ => d.modBank b (fun k => k.setReg off v)
      | none => d.modBank b (fun k => k.setReg off w)

/-- The effect of a write that no row of R481 refuses. A write that leaves a table as it reads changes nothing (R482). -/
def Dev.put (d : Dev) (p : Path) (t : Target) (v w : Word) : Dev :=
  match t with
  | .zn off => d.putZn p off v w
  | .bk b off =>
    match (d.bank b).tableWord off with
    | some old => if w = old then d else d.putTable b off w
    | none => d.putBk b off v w
  | .ws b q off => if off = Reg.WS_REC_CTL then d.wsRecFreeze b q v else d.modWisp b q (fun x => x.setReg off w)

/-- A write that has been taken: a command where it sets a CMD bit, else the new value of what it may change (R482 to R484). -/
def State.applyWrite (s : State) (p : Path) (t : Target) (v : Word) : State :=
  match t.row with
  | none => s
  | some r =>
    if r.cmd ≠ 0 then
      if v &&& w32 r.cmd = 0 then s else s.command p t v
    else if r.rw = 0 && r.rwm = 0 && r.wo = 0 then s
    else s.onDev (fun d => d.put p t v (rowMerge r (d.stored t) v))

/-- A write examined by R481 and applied, refused, or lost in a Bank's reset. -/
def State.writeAt (s : State) (p : Path) (t : Target) (v : Word) : State :=
  if s.dev.refuse p t v = some .frozen && answersLock t v then (s.onDev (fun d => d.onRefuse p t v .frozen)).applyWrite p t v
  else s.dev.atTarget p t v (fun d => { s with dev := d }) (s.applyWrite p t v)

/-! ## The indirect window (R489 to R493) -/

/-- The target of an indirect address in Bank `b`. -/
def indTarget (a : Word) (b : Nat) : Option Target :=
  let q := bitsOf a 23 15
  let off := 4 * bitsOf a 14 2
  if q = 0x1FF then some (.bk b off) else if q < 264 then some (.ws b q off) else none

/-- A write to an address that names nothing: counted as R481 counts it. -/
def Dev.badWrite (d : Dev) (p : Path) : Dev :=
  if (pathHost p || pathCc p) && d.locked then d.bumpZ Reg.ZN_ALM_CNT_FROZEN else d.bumpZ Reg.ZN_REG_CNT_HOLE

/-- One Bank's part in a broadcast write: skipped, refused for its value, or applied and counted (R492). -/
def bcastOne (p : Path) (a v : Word) (x : State × Nat) (b : Nat) : State × Nat :=
  match indTarget a b with
  | none => x
  | some t =>
    let r := x.1.dev.reach t false
    if r = 2 || r = 3 then x
    else match x.1.dev.refuse p t v with
      | some (.value why) => (x.1.onDev (fun d => d.onRefuse p t v (.value why)), x.2)
      | some _ => x
      | none => (x.1.writeAt p t v, x.2 + 1)

/-- A write through an indirect address: the state, RESULT, and for a broadcast BCAST_N (R491, R492). A refusal that does not
depend on the Bank is examined once. DEDUCED (log entry 19). -/
def State.writeInd (s : State) (p : Path) (a v : Word) : State × Nat × Option Nat :=
  let b := bitsOf a 31 24
  match indTarget a (if b = 0xFF then 0 else b) with
  | none => (s.onDev (fun d => d.badWrite p), 1, none)
  | some t =>
    if b = 0xFF then
      match s.dev.refuse p t v with
      | some .hole => (s.onDev (fun d => d.onRefuse p t v .hole), 5, some 0)
      | some .denied => (s.onDev (fun d => d.onRefuse p t v .denied), 4, some 0)
      | some .frozen => (s.onDev (fun d => d.onRefuse p t v .frozen), 2, some 0)
      | some .cmds => (s.onDev (fun d => d.onRefuse p t v .cmds), 2, some 0)
      | some .notReady => (s.onDev (fun d => d.onRefuse p t v .notReady), 2, some 0)
      | _ =>
        let (s1, n) := (List.range 192).foldl (bcastOne p a v) (s, 0)
        (s1, if n = 0 then 2 else 0, some n)
    else if 192 ≤ b then (s.onDev (fun d => d.badWrite p), 1, none)
    else
      let r := s.dev.reach t (decide (s.dev.refuse p t v = some .denied))
      if r = 2 || r = 3 then (if s.dev.frozen p t then s.onDev (fun d => d.onRefuse p t v .frozen) else s, r, none)
      else (s.writeAt p t v, r, none)

/-- INC after an access of ZN_IND_DATA (R491). -/
def PathCopy.step (c : PathCopy) : PathCopy :=
  let a := c.indAddr
  if c.indInc = 1 then
    let n := (bitsOf a 14 2 + 1) % 8192
    { c with indAddr := setBits a 14 2 n, indWrap := decide (n = 0) }
  else if c.indInc = 2 then
    let q := bitsOf a 23 15
    if q = 0x1FF then { c with indWrap := false }
    else if q = 263 then { c with indAddr := setBits a 23 15 0, indWrap := true }
    else { c with indAddr := setBits a 23 15 (q + 1), indWrap := false }
  else c

/-- The outcome of an access of ZN_IND_DATA is recorded, and INC applied (R490, R491). -/
def Dev.indDone (d : Dev) (p : Path) (r : Nat) (n : Option Nat) : Dev :=
  d.modPath p (fun c => ({ c with indResult := r, indCount := n.getD c.indCount }).step)

/-- A write of ZN_IND_DATA. DEDUCED (log entry 18). -/
def State.indWrite (s : State) (p : Path) (v : Word) : State :=
  if s.dev.off then s
  else if pathCc p then s.onDev (fun d => d.bumpZ Reg.ZN_REG_CNT_HOLE)
  else if s.dev.notReady p then s.onDev (fun d => d.onRefuse p (.zn Reg.ZN_IND_DATA) v .notReady)
  else
    let (s1, r, n) := s.writeInd p (s.dev.path p).indAddr v
    s1.onDev (fun d => d.indDone p r n)

/-- IND_DATA_WRITE. -/
def execIndDataWrite (p : Path) (value : Word) (s : State) : Host.Outcome State Fault Refusal := .next (s.indWrite p value)

/-! ## Reads (R480, R487) -/

/-- Reading a mailbox's last word clears its VALID (R487). -/
def Dev.clearMailbox (d : Dev) (p : Path) (t : Target) : Dev :=
  let off (m : Mailbox) : Mailbox := { m with valid := false }
  match t with
  | .zn o =>
    d.modPath p (fun c =>
      if o = Reg.ZN_TIME_MB_HI then { c with time := off c.time }
      else if o = Reg.ZN_SEED_MB_HI then { c with seed := off c.seed }
      else if o = Reg.ZN_UHT_MB + 12 then { c with uht := off c.uht }
      else if o = Reg.ZN_THM_NODE_MB + 12 then { c with node := off c.node }
      else if o = Reg.ZN_JNL_DUR_HI then { c with jnl := off c.jnl }
      else if o = Reg.ZN_MB_DATA + 76 then { c with wide := off c.wide }
      else c)
  | .ws b q o =>
    d.modPath p (fun c =>
      if o = Reg.WS_REC_X_MB2 then { c with extreme := Tbl.modify Mailbox.init c.extreme (coreUnit b q) off }
      else if o = Reg.WS_CTR_MB1 then { c with counter := Tbl.modify Mailbox.init c.counter (coreUnit b q) off }
      else c)
  | .bk _ _ => d

/-- A read of a register, with the effects that a read has (R480). -/
def Dev.readNow (d : Dev) (p : Path) (t : Target) : Dev :=
  match t with
  | .bk b off =>
    if off = Reg.BK_REC_W then d.recW0 b
    else if off = Reg.BK_REC_W + 28 then d.recW7 b
    else { d with regs.readData := d.readBk b off }
  | _ => ({ d with regs.readData := d.readTarget p t }).clearMailbox p t

/-- A read of a Zenith register (R478, R481): a hole and a register that is not open to the path read 0 and are counted. DEDUCED (log entry 21). -/
def Dev.readReg (d : Dev) (p : Path) (off : Nat) : Dev :=
  let zero := { d with regs.readData := 0 }
  if d.readClamped p then zero
  else if (Target.zn off).row.isNone then zero.bumpZ Reg.ZN_REG_CNT_HOLE
  else if !d.privReadOk p (.zn off) then d.deniedRead p (.zn off)
  else d.readNow p (.zn off)

/-- A read through an indirect address, and RESULT (R491). -/
def Dev.readInd_ (d : Dev) (p : Path) (a : Word) : Dev × Nat :=
  let b := bitsOf a 31 24
  let zero := { d with regs.readData := 0 }
  match indTarget a b with
  | none => (zero.bumpZ Reg.ZN_REG_CNT_HOLE, 1)
  | some t =>
    if b = 0xFF then (zero.bumpZ Reg.ZN_REG_CNT_HOLE, 6)
    else if 192 ≤ b then (zero.bumpZ Reg.ZN_REG_CNT_HOLE, 1)
    else
      let r := d.reach t (t.row.isSome && !d.privReadOk p t)
      if r = 4 then (d.deniedRead p t, r)
      else if r = 5 then (zero.bumpZ Reg.ZN_REG_CNT_HOLE, r)
      else if r = 0 then (d.readNow p t, r)
      else (zero, r)

/-- A read of ZN_IND_DATA (R490, R491). -/
def Dev.indRead (d : Dev) (p : Path) : Dev :=
  let zero := { d with regs.readData := 0 }
  if d.readClamped p then zero
  else if pathCc p then zero.bumpZ Reg.ZN_REG_CNT_HOLE
  else
    let (d1, r) := d.readInd_ p (d.path p).indAddr
    d1.indDone p r none

/-- IND_DATA_READ. -/
def execIndDataRead (p : Path) (s : State) : Host.Outcome State Fault Refusal := .next (s.onDev (fun d => d.indRead p))

/-- MAILBOX_LAST_READ (R487): a read of a mailbox's highest data word; a control core reads its own Bank's registers (R494). -/
def execMailboxLastRead (p : Path) (offset : BitVec 16) (s : State) : Host.Outcome State Fault Refusal :=
  let off := offset.toNat / 4 * 4
  .next (s.onDev (fun d =>
    match p with
    | .cc own => d.readAt p (.bk own.val off) (fun d => d.readNow p (.bk own.val off))
    | _ => if off = Reg.ZN_IND_DATA then d.indRead p else d.readReg p off))

/-! ## Direct writes (R478, R481, R494) -/

/-- The registers that a path writes directly at an offset: its own Bank's, or the Zenith window. -/
def directTarget (p : Path) (off : Nat) : Target :=
  match p with
  | .cc own => .bk own.val off
  | _ => .zn off

/-- A direct write of one word. A control core of an isolated Bank reaches nothing. -/
def State.writeReg (s : State) (p : Path) (off : Nat) (v : Word) : State :=
  let t := directTarget p off
  if s.dev.off || s.dev.reach t false = 2 then s
  else if t = .zn Reg.ZN_IND_DATA then s.indWrite p v
  else s.writeAt p t v

/-- REGISTER_WRITE: a write with partial byte enables is ignored and counted (R478), once the port takes writes at all. DEDUCED (log entry 6). -/
def execRegisterWrite (p : Path) (offset : BitVec 16) (value : Word) (byteEnables : BitVec 4) (s : State) :
    Host.Outcome State Fault Refusal :=
  let off := offset.toNat / 4 * 4
  if byteEnables = 15 || s.dev.off || s.dev.notReady p then .next (s.writeReg p off value)
  else .next (s.onDev (fun d => d.bumpZ Reg.ZN_REG_CNT_HOLE))

/-! ## The bit-alias window (R494, R495) -/

/-- A write of one bit of a Bank register: masked for an RWM bit, a change of that bit for an RW bit, a command for a CMD bit
written 1; any other bit, and a CMD register with parameters, is ignored and counted (R495). -/
def State.aliasWrite (s : State) (b off k : Nat) (v : Word) (p : Path) : State :=
  let t := Target.bk b off
  let hole := s.onDev (fun d => d.bumpZ Reg.ZN_REG_CNT_HOLE)
  let one := bitOf v 0
  if s.dev.frozen p t then s.onDev (fun d => d.onRefuse p t v .frozen)
  else match t.row with
    | none => hole
    | some r =>
      if r.cmd ≠ 0 && r.wo ≠ 0 then hole
      else if bitOf (w32 r.cmd) k then (if one then s.writeAt p t (w32 (2 ^ k)) else s)
      else if bitOf (w32 r.rwm) k then s.writeAt p t (w32 (bit one * 2 ^ k + 2 ^ (16 + k)))
      else if bitOf (w32 r.rw) k then s.writeAt p t (setBits (s.dev.readBk b off) k k (bit one))
      else hole

/-- BIT_ALIAS_WRITE: bit k of the register at offset o is the word at 0x10_0000 + 32 o + 4 k; an address below the window is a
direct write, where the register space has it (R494). -/
def execBitAliasWrite (bank : BankId) (addr : BitVec 21) (value : Word) (s : State) : Host.Outcome State Fault Refusal :=
  let a := addr.toNat
  let p := Path.cc bank
  let x := a - 0x100000
  if s.dev.off || s.dev.reach (.bk bank.val 0) false = 2 then .next s
  else if a < 0x8000 then .next (s.writeReg p (a / 4 * 4) value)
  else if a < 0x100000 then .next (s.onDev (fun d => d.bumpZ Reg.ZN_REG_CNT_HOLE))
  else .next (s.aliasWrite bank.val (x / 128 * 4) (x / 4 % 32) value p)

end Sys2Proof.Machine
end

