-- ==== Sys2Proof/Machine/Afsin.lean ====
section
/-! DEFINITION. The management port (R423, R428 to R432): addresses and the MCTP control commands, sessions, notices, and the
requests of the fleet operator at P0, with the import. -/

namespace Sys2Proof.Machine

/-! ## Addresses and MCTP control (R428, R453) -/

/-- Odtil answers Afsin messages: it is powered, a configuration image is in use, and it does not run unconfigured (R453). -/
def Dev.afsOn (d : Dev) : Bool := !d.off && d.imageInUse && d.start.mode != .unconfigured

/-- ENTDAA: a dynamic address is assigned where there is none (R428). -/
def execEntdaa (addr : BitVec 7) (s : State) : Host.Outcome State Fault Refusal :=
  if s.dev.off || s.dev.afsin.dynAddr ≠ 0 then .next s
  else .next (s.onDev (fun d => { d with afsin.dynAddr := addr }))

/-- SETDASA: the dynamic address is assigned over the static address of the image (R428); unconfigured, only ENTDAA assigns one
(R453). -/
def execSetdasa (addr : BitVec 7) (s : State) : Host.Outcome State Fault Refusal :=
  if !s.dev.afsOn || s.dev.cfg.i3cStatic = 0 || s.dev.afsin.dynAddr ≠ 0 then .next s
  else .next (s.onDev (fun d => { d with afsin.dynAddr := addr }))

/-- The response of the port. -/
def Dev.answer (d : Dev) (l : List Byte) : Dev := if d.off then d else { d with afsin.response := l }

/-- Set Endpoint ID: completion code, accepted, the EID, no pool. PRESUMED: DSP0236 gives the layout of the answers. PRESUMED (log entry 143). DEDUCED (log entry 144). -/
def execSetEndpointId (eid : BitVec 8) (s : State) : Host.Outcome State Fault Refusal :=
  if s.dev.off then .next s
  else .next (s.onDev (fun d => ({ d with afsin.eid := eid }).answer [0, 0, eid, 0]))

/-- Get Endpoint ID: completion code, the EID, a simple endpoint with a dynamic EID, no medium-specific data. -/
def execGetEndpointId (s : State) : Host.Outcome State Fault Refusal :=
  .next (s.onDev (fun d => d.answer [0, d.afsin.eid, 0, 0]))

/-- Get MCTP Version Support: one version, 1.3. -/
def execGetMctpVersionSupport (s : State) : Host.Outcome State Fault Refusal :=
  .next (s.onDev (fun d => d.answer [0, 1, 0xF1, 0xF3, 0xFF, 0]))

/-- Get Message Type Support: the Afsin type 0x7F; none while Odtil runs unconfigured (R428, R453). -/
def execGetMessageTypeSupport (s : State) : Host.Outcome State Fault Refusal :=
  .next (s.onDev (fun d => d.answer (if d.start.mode == .unconfigured then [0, 0] else [0, 1, 0x7F])))

/-- Get Vendor Defined Message Support: the IANA enterprise number VENDOR_IANA; unconfigured, none (R428, R453). -/
def execGetVendorDefinedMessageSupport (s : State) : Host.Outcome State Fault Refusal :=
  .next (s.onDev (fun d => d.answer (if d.start.mode == .unconfigured then [2]
    else [0, 0xFF, 1] ++ Crypto.beBytes 4 d.cfg.vendorIana ++ [1, 0])))

/-! ## Messages (R429) -/

/-- STATUS of a message. -/
def stOK : Nat := 0
/-- BADAUTH. -/
def stBADAUTH : Nat := 1
/-- BADSEQ. -/
def stBADSEQ : Nat := 2
/-- NOSESSION. -/
def stNOSESSION : Nat := 3
/-- BADFRAG. -/
def stBADFRAG : Nat := 4
/-- LOCKED. -/
def stLOCKED : Nat := 5

/-- STATUS of a result code of the operation. -/
def stOf (result : Nat) : Nat := result + 16

/-- A response, with AUTH while a session is open (R429). -/
def Dev.respond (d : Dev) (code : Nat) (seq : Word) (status : Nat) (body : List Byte) : Dev :=
  d.answer (d.sendable code 2 seq status body)

/-- The request carries the tag that its message has under the session key. -/
def Dev.tagOk (d : Dev) (key : BitVec 256) (h : AfsHead) (code : Nat) (body : List Byte) : Bool :=
  h.auth && decide (authTag key (d.message code 17 h.seq 0 body) = Crypto.beBytes 16 h.tag.toNat)

/-- STATUS of a request before it acts: 0 where it may (R429, R431). -/
def Dev.examine (d : Dev) (h : AfsHead) (code : Nat) (body : List Byte) : Nat :=
  match d.afsin.session with
  | none => stNOSESSION
  | some key =>
    if !d.tagOk key h code body then stBADAUTH
    else if (d.afsin.lastSeq.map (fun n => decide (h.seq.toNat ≤ n))).getD false then stBADSEQ
    else stOK

/-- An authenticated request is noted (R431). -/
def Dev.noteRequest (d : Dev) (h : AfsHead) : Dev :=
  { d with afsin.lastSeq := some h.seq.toNat, afsin.lastAuth := d.clock.frame }

/-- What a request answers: STATUS and body, or nothing yet. -/
abbrev Answer := Option (Nat × List Byte)

/-- A request that may act. -/
def State.act (s : State) (h : AfsHead) (code : Nat) (f : State → State × Answer) : State :=
  let (s1, out) := f (s.onDev (fun d => d.noteRequest h))
  match out with
  | some (st, body) => s1.onDev (fun d => d.respond code h.seq st body)
  | none => s1

/-- A request that must carry AUTH (R429, R431): refused for its session, its tag or its SEQ, the last two counted; else it acts. -/
def State.request (s : State) (h : AfsHead) (code : Nat) (body : List Byte) (f : State → State × Answer) : State :=
  if !s.dev.afsOn then s
  else
    let st := s.dev.examine h code body
    if st = stOK then s.act h code f
    else s.onDev (fun d =>
      (if st = stNOSESSION then d else d.bumpZ Reg.ZN_AFS_CNT_BADAUTH).respond code h.seq st [])

/-- A request whose effect is on the part alone and whose answer has no body. -/
def State.requestDev (s : State) (h : AfsHead) (code : Nat) (body : List Byte) (f : Dev → Dev × Nat) : State :=
  s.request h code body (fun s =>
    let (d, st) := f s.dev
    ({ s with dev := d }, some (st, [])))

/-! ## Identity and sessions (R431) -/

/-- GET_ID: CHIP_ID, product code, device public key, UID; it needs no session. -/
def execGetId (seq : Word) (s : State) : Host.Outcome State Fault Refusal :=
  if !s.dev.afsOn then .next s
  else .next (s.onDev (fun d => d.respond 0x40 seq stOK
    (Crypto.chipBytes ++ leBytes 4 0x4F44C192 ++ Crypto.beBytes 97 Crypto.devicePublic.toNat ++ leBytes 8 d.ledger.uid.toNat)))

/-- What the operator signs: its ephemeral key, its nonce, and CHIP_ID. -/
def openRequest (pubKey : BitVec 776) (nonce : BitVec 256) : List Byte :=
  Crypto.beBytes 97 pubKey.toNat ++ Crypto.beBytes 32 nonce.toNat

/-- SESSION_OPEN is signed under a management key of the image, and its key is a point of the curve. -/
def Dev.openOk (d : Dev) (pubKey : BitVec 776) (nonce : BitVec 256) (signature : BitVec 768) : Bool :=
  (Crypto.pointOf pubKey).isSome &&
    match d.imageKey 5 with
    | some k => Crypto.ecdsaVerify k (Crypto.digest (openRequest pubKey nonce ++ Crypto.chipBytes)) signature
    | none => false

/-- The session key: KDF(ECDH shared secret, "ODTL-SESSION", nonce_op ‖ nonce_odtil). -/
def sessionKey (scalar : Nat) (pubKey : BitVec 776) (nonce : BitVec 256) (own : List Byte) : BitVec 256 :=
  let x := (Crypto.mulP 384 scalar (Crypto.pointOf pubKey)).map Prod.fst
  BitVec.ofNat 256 (Crypto.beNat (Crypto.kdf (Crypto.beBytes 48 (x.getD 0)) "ODTL-SESSION"
    (Crypto.beBytes 32 nonce.toNat ++ own) 32))

/-- A session opens (R431): the old one is closed; the response carries Odtil's ephemeral key and nonce, signed by the device key over
the whole transcript. -/
def Dev.openSession (d : Dev) (seq : Word) (pubKey : BitVec 776) (nonce : BitVec 256) (signature : BitVec 768) : Dev :=
  let (a, d1) := d.draw
  let (b, d2) := d1.draw
  let (c, d3) := d2.draw
  let scalar := (Config.drbg a).toNat % (Crypto.n384 - 1) + 1
  let own := leBytes 32 (Config.drbg b).toNat
  let mine := Crypto.beBytes 97 (Crypto.ofPoint (Crypto.mulP 384 scalar (some Crypto.g384))).toNat ++ own
  let transcript := openRequest pubKey nonce ++ Crypto.beBytes 96 signature.toNat ++ mine
  let sig := Crypto.ecdsaSign Crypto.deviceScalar (Config.drbg c).toNat (Crypto.digest transcript)
  ({ d3 with
    afsin.session := some (sessionKey scalar pubKey nonce own)
    afsin.lastSeq := none
    afsin.lastAuth := d.clock.frame }).respond 0x41 seq stOK (mine ++ Crypto.beBytes 96 sig.toNat)

/-- SESSION_OPEN: accepted at every alarm level; a failure is counted and is no alarm source. -/
def execSessionOpen (seq : Word) (pubKey : BitVec 776) (nonce : BitVec 256) (signature : BitVec 768) (s : State) :
    Host.Outcome State Fault Refusal :=
  if !s.dev.afsOn then .next s
  else if s.dev.openOk pubKey nonce signature then .next (s.onDev (fun d => d.openSession seq pubKey nonce signature))
  else .next (s.onDev (fun d => (d.bumpZ Reg.ZN_AFS_CNT_BADAUTH).respond 0x41 seq stBADAUTH []))

/-- The session ends. -/
def Dev.closeSession (d : Dev) : Dev := { d with afsin.session := none, afsin.lastSeq := none }

/-- SESSION_CLOSE: the response leaves with no session open, so without AUTH. -/
def execSessionClose (h : AfsHead) (s : State) : Host.Outcome State Fault Refusal :=
  .next (s.requestDev h 0x42 [] (fun d => (d.closeSession, stOK)))

/-- SESSION_TIMEOUT: 2^30 F without an authenticated request (R431). -/
def execSessionTimeout (s : State) : Host.Outcome State Fault Refusal :=
  let d := s.dev
  if d.afsin.session.isNone || d.clock.frame < d.afsin.lastAuth + 2 ^ 30 then .next s
  else .next (s.onDev Dev.closeSession)

/-! ## Notices (R432) -/

/-- The notices up to a SEQ, in the serial order of 32-bit numbers, are acknowledged. -/
def Dev.ackNotices (d : Dev) (ack : Word) : Dev :=
  let left := d.afsin.notices.filter (fun n => !serLe (w32 n.seq) ack)
  let lost := if serLe (w32 d.afsin.lostSeq) ack then 0 else d.afsin.lostPending
  { d with afsin.notices := left, afsin.lostPending := lost, afsin.ibi := !left.isEmpty || decide (lost ≠ 0) }

/-- NOTICE_ACK. -/
def execNoticeAck (h : AfsHead) (ackSeq : Word) (s : State) : Host.Outcome State Fault Refusal :=
  .next (s.requestDev h 0x43 (leBytes 4 ackSeq.toNat) (fun d => (d.ackNotices ackSeq, stOK)))

/-- NOTICE_REOFFER: what is unacknowledged is offered again every 2^16 F. DEDUCED (log entry 148). -/
def execNoticeReoffer (s : State) : Host.Outcome State Fault Refusal :=
  let d := s.dev
  if !d.afsOn || (d.afsin.notices.isEmpty && decide (d.afsin.lostPending = 0)) || d.clock.frame < d.afsin.offeredAt + 65536 then .next s
  else .next (s.onDev (fun d => { d with afsin.ibi := true, afsin.offeredAt := d.clock.frame }))

/-! ## Registers (R430) -/

/-- The body of REG_READ and REG_WRITE. -/
def regBody (space : BitVec 8) (addr value : Word) : List Byte :=
  [space, 0, 0, 0] ++ leBytes 4 addr.toNat ++ leBytes 4 value.toNat

/-- A register read at P0 on the management path's own copies. -/
def Dev.mgmtRead (d : Dev) (space : BitVec 8) (addr : Word) : Dev × Nat :=
  let zero := { d with regs.readData := 0 }
  if space = 0 then
    if addr.toNat < 0x10000 then (d.readReg .mgmt (addr.toNat / 4 * 4), stOK) else (zero.bumpZ Reg.ZN_REG_CNT_HOLE, stOK)
  else if space = 1 then
    let (d1, r) := d.readInd_ .mgmt addr
    (d1, if r = 0 then stOK else stOf r)
  else (zero, stOf 5)

/-- REG_READ. -/
def execRegRead (h : AfsHead) (space : BitVec 8) (addr : Word) (s : State) : Host.Outcome State Fault Refusal :=
  .next (s.request h 0x44 (regBody space addr 0) (fun s =>
    let (d, st) := s.dev.mgmtRead space addr
    ({ s with dev := d }, some (st, regBody space addr d.regs.readData))))

/-- A register write at P0. -/
def State.mgmtWrite (s : State) (space : BitVec 8) (addr value : Word) : State × Nat :=
  if space = 0 then
    if addr.toNat < 0x10000 then (s.writeReg .mgmt (addr.toNat / 4 * 4) value, stOK)
    else (s.onDev (fun d => d.bumpZ Reg.ZN_REG_CNT_HOLE), stOK)
  else if space = 1 then
    let (s1, r, _) := s.writeInd .mgmt addr value
    (s1, if r = 0 then stOK else stOf r)
  else (s, stOf 5)

/-- REG_WRITE. -/
def execRegWrite (h : AfsHead) (space : BitVec 8) (addr value : Word) (s : State) : Host.Outcome State Fault Refusal :=
  .next (s.request h 0x45 (regBody space addr value) (fun s =>
    let (s1, st) := s.mgmtWrite space addr value
    (s1, some (st, []))))

/-! ## Requests of the operator (R254, R257, R283, R372, R422, R425) -/

/-- UNIT_SET: SET of R257. -/
def execUnitSet (h : AfsHead) (u : UnitId) (state : BitVec 3) (reason : BitVec 8) (s : State) : Host.Outcome State Fault Refusal :=
  .next (s.requestDev h 0x46 (leBytes 4 u.val ++ [state.setWidth 8, reason]) (fun d =>
    (d.setUnit u.val state.toNat reason.toNat, stOK)))

/-- TEST_REQ: START of an on-demand request (R254). -/
def execTestReq (h : AfsHead) (sel count : Word) (s : State) : Host.Outcome State Fault Refusal :=
  .next (s.requestDev h 0x47 (leBytes 4 sel.toNat ++ leBytes 4 count.toNat) (fun d =>
    let (d1, r) := d.startRequest sel count
    (d1, if r = 1 then stOK else stOf r)))

/-- SHUTDOWN from the fleet operator (R283). -/
def execAfsinShutdown (h : AfsHead) (s : State) : Host.Outcome State Fault Refusal :=
  .next (s.requestDev h 0x4A [] (fun d =>
    let (d1, r) := d.startShutdown false
    (d1, if r = 1 then stOK else stOf r)))

/-- REC_CLEAR: clears at once, with no ARM (R372). -/
def execRecClear (h : AfsHead) (bank : BitVec 8) (s : State) : Host.Outcome State Fault Refusal :=
  .next (s.requestDev h 0x4B [bank] (fun d =>
    if 192 ≤ bank.toNat && bank ≠ 0xFF then (d, stOf 5) else (d.markClear bank.toNat false, stOK)))

/-- EXPORT: an accepted one answers with its fragments once it is done (R422, R430). DEDUCED (log entry 147). -/
def execAfsinExport (h : AfsHead) (s : State) : Host.Outcome State Fault Refusal :=
  .next (s.request h 0x4C [] (fun s =>
    let (d, r) := s.dev.startExport false
    ({ s with dev := if r = 1 then { d with alarms.exportSeq := h.seq } else d }, if r = 1 then none else some (if r = 5 then stLOCKED else stOf r, []))))

/-- ALARM_CLEAR: the level falls to none; no effect of an Erase is undone (R425). -/
def execAlarmClear (h : AfsHead) (s : State) : Host.Outcome State Fault Refusal :=
  .next (s.requestDev h 0x50 [] (fun d => ({ d with aon.alarmLevel := 0, aon.raised := 0 }, stOK)))

/-- FORMAT: a FOREIGN module is formatted and bound; during a shutdown, and of any other module, STATE (R416, R417, R433). -/
def execFormat (h : AfsHead) (s : State) : Host.Outcome State Fault Refusal :=
  .next (s.requestDev h 0x4F [] (fun d =>
    if d.ledger.state ≠ .foreign || d.sdActive then (d, stOf 4)
    else ({ d with jnl.volatileRun := false }.format 2, stOK)))

/-! ## Fragments (R428, R430) -/

/-- The body of a fragment message. -/
def fragBody (offset : Word) (data : List Byte) : List Byte := leBytes 4 offset.toNat ++ data

/-- A fragment is the next one: contiguous, at most 976 bytes, and within the staging area. DEDUCED (log entry 146). -/
def fragOk (staged : List Byte) (offset : Word) (data : List Byte) (limit : Nat) : Bool :=
  decide (offset.toNat = staged.length) && decide (data.length ≤ 976) && decide (staged.length + data.length ≤ limit)

/-- PAT_FRAGMENT: assembled in the pattern staging area (R268). -/
def execPatFragment (h : AfsHead) (offset : Word) (data : List Byte) (s : State) : Host.Outcome State Fault Refusal :=
  .next (s.request h 0x48 (fragBody offset data) (fun s =>
    let st := s.dev.afsin.patStage
    if fragOk st offset data (9 * 2 ^ 20) then
      let mem := match s.dev.stageBase with
        | some base => s.mem.write (base + offset.toNat) data
        | none => s.mem
      ({ s with mem := mem, dev := { s.dev with afsin.patStage := st ++ data } }, some (stOK, []))
    else (s.onDev (fun d => { d with afsin.patStage := [] }), some (stBADFRAG, []))))

/-- PAT_COMMIT: the staged package is checked (R268, R269). -/
def execPatCommit (h : AfsHead) (length : Word) (s : State) : Host.Outcome State Fault Refusal :=
  .next (s.requestDev h 0x49 (leBytes 4 length.toNat) (fun d =>
    let l := d.afsin.patStage
    let d1 := { d with afsin.patStage := [] }
    if length.toNat ≠ l.length then (d1, stBADFRAG)
    else
      let (d2, staged) := d1.stagePackage l
      (d2, if staged then stOK else stOf (d2.zf Reg.ZN_PAT_STAT 3 0))))

/-! ## Import (R423) -/

/-- The bytes of an export. -/
def exportLen : Nat := 2294000

/-- IMPORT_FRAGMENT. -/
def execImportFragment (h : AfsHead) (offset : Word) (data : List Byte) (s : State) : Host.Outcome State Fault Refusal :=
  .next (s.requestDev h 0x4D (fragBody offset data) (fun d =>
    let st := d.afsin.impStage
    if fragOk st offset data exportLen then ({ d with afsin.impStage := st ++ data }, stOK)
    else ({ d with afsin.impStage := [] }, stBADFRAG)))

/-- Pieces of `size` bytes. -/
def pieces (size : Nat) : Nat → List Byte → List (List Byte)
  | 0, _ => []
  | n + 1, l => l.take size :: pieces size n (l.drop size)

/-- The repair entry that 8 bytes spell; an empty one is none (R297). -/
def repairOf (l : List Byte) : Option RepairRow :=
  let kind := fieldAt l 0 1 % 4
  let place := fieldAt l 2 2
  if kind = 0 then none
  else some { kind := kind, fused := bitOf (w32 (fieldAt l 0 1)) 2, badFuse := bitOf (w32 (fieldAt l 0 1)) 3,
              pos := place % 512, array := place / 512, frm := fieldAt l 4 2, dst := fieldAt l 6 2 }

/-- What an export holds: health entries, the entries of the maps, and the repair tables. -/
def importOf (body : List Byte) (digest : BitVec 384) (frame : Nat) : ImportPend where
  uht := (pieces 16 131072 body).map (toWords 4)
  maps := (pieces 512 192 (body.drop 2097152)).map (fun t => (pieces 2 256 t).map leNat)
  repairs := (pieces 512 192 (body.drop 2195456)).map (fun t => (pieces 8 64 t).filterMap repairOf)
  digest := digest
  acceptedAt := frame

/-- MAGIC, FORMAT and CHIP_ID of an export are this chip's (R423). -/
def importHeadOk (l : List Byte) : Bool :=
  decide (l.length = exportLen) && decide (fieldAt l 0 4 = 0x5850454C) && decide (fieldAt l 4 2 = 1) &&
    decide (fieldAt l 8 16 = Config.chipId.toNat)

/-- The encrypted body of an export. -/
def importCipher (l : List Byte) : List Byte := (l.drop 128).take 2293760

/-- The signature of an export verifies, and its tag authenticates (R422, R423). -/
def importSealOk (l : List Byte) : Bool :=
  Crypto.ecdsaVerify Crypto.devicePublic (Crypto.digest (l.take 2293904)) (BitVec.ofNat 768 (Crypto.beNat (l.drop 2293904))) &&
    decide (Crypto.gcmTag Crypto.exportKey ((l.drop 56).take 12) (l.take 128) (importCipher l) = (l.drop 2293888).take 16)

/-- Some context from 1 on is not FREE. -/
def Dev.ctxUsed (d : Dev) : Bool := d.ctxs.any (fun e => decide (e.1 ≠ 0) && decide (e.2.core.state ≠ .free))

/-- The code of an import that is refused, the first failing row deciding; 0 where it is accepted (R423, R435). -/
def Dev.importRefusal (d : Dev) (l : List Byte) : Nat :=
  if d.alarms.exportRunning.isSome || d.alarms.importPend.isSome then 2
  else if d.locked then 3
  else if d.ledger.state ≠ .bound || d.jnl.volatileRun || (d.ledger.header.map (fun h => h.imported)).getD false then 4
  else if !importHeadOk l then 5
  else if !importSealOk l then 6
  else if d.ctxUsed || d.sdActive then 7
  else 0

/-- An import ends with a status: ZN_EXP_STAT and the IMPORT event. -/
def Dev.importEnd (d : Dev) (r : Nat) : Dev := (d.setZf Reg.ZN_EXP_STAT 5 3 r).zEvent 5 0x7D 0 (w32 r) 0 0 0

/-- IMPORT_COMMIT (R423). An accepted import waits for its tick. -/
def execImportCommit (h : AfsHead) (length : Word) (s : State) : Host.Outcome State Fault Refusal :=
  .next (s.requestDev h 0x4E (leBytes 4 length.toNat) (fun d =>
    let l := d.afsin.impStage
    let d1 := { d with afsin.impStage := [] }
    if length.toNat ≠ l.length then (d1, stBADFRAG)
    else
      let r := d1.importRefusal l
      if r = 3 then (d1.importEnd r, stLOCKED)
      else if r ≠ 0 then (d1.importEnd r, stOf r)
      else
        let body := Crypto.gcmBody Crypto.exportKey ((l.drop 56).take 12) (importCipher l)
        ({ d1 with alarms.importPend := some (importOf body (Crypto.digest l) d.clock.frame) }, stOK)))

/-- One health entry replaced; a unit now in Eclipse stays in Eclipse (R423 step 1). -/
def Dev.importUnit (d : Dev) (u : Nat) (ws : List Word) : Dev :=
  if d.healthOf u = .eclipse then d else d.loadUnit u ws

/-- The health entries replaced. -/
def Dev.importUnits (d : Dev) (first : Nat) : List (List Word) → Dev
  | [] => d
  | ws :: l => (d.importUnit first ws).importUnits (first + 1) l

/-- The priors of Eclipse applied again (R256, R423). -/
def Dev.eclipsePriors (d : Dev) : Dev :=
  (d.cfg.priors.filter (fun (x : Prior) => decide (x.state = .eclipse))).foldl (fun (acc : Dev) (x : Prior) =>
    (List.range x.count).foldl (fun (acc : Dev) i => acc.applyPrior [] .eclipse (x.first + i)) acc) d

/-- One entry of a spare-remap table loaded: a changed mapping is posted as a REMAP request (R423 step 2). -/
def Dev.importCore (d : Dev) (b n v : Nat) : Dev :=
  let k := d.bank b
  let vacant := decide (v / 512 % 2 = 1)
  let pos := v % 512
  if vacant then
    if k.cc.vacant.contains n then d else d.modBank b (fun k => { k with cc.vacant := k.cc.vacant ++ [n] })
  else if k.cc.posOf n = some pos || 264 ≤ pos then d
  else d.mapCore b n pos true

/-- The spare-remap table of a Bank loaded. -/
def Dev.importMap (d : Dev) (b : Nat) (map : List Nat) : Dev :=
  (map.zipIdx).foldl (fun (acc : Dev) (x : Nat × Nat) => acc.importCore b x.2 x.1) d

/-- The repair table of a Bank stored: what the fuses of this chip hold stays (R297, R423 step 3). -/
def Dev.importRepairs (d : Dev) (b : Nat) (rows : List RepairRow) : Dev :=
  d.modBank b (fun k =>
    { k with repairs := (k.repairs.filter (fun (r : RepairRow) => r.fused) ++ rows.filter (fun (r : RepairRow) => !r.fused)).take 64 })

/-- An accepted import takes effect (R423 steps 1 to 4). -/
def Dev.applyImport (d : Dev) (x : ImportPend) : Dev :=
  let d1 := (d.importUnits 0 x.uht).eclipsePriors
  let fresh := (List.range 119232).filter (fun u => decide (d1.healthOf u = .eclipse) && decide (d.healthOf u ≠ .eclipse))
  let d2 := fresh.foldl (fun (acc : Dev) u => acc.settleEclipse u) d1
  let d3 := (x.maps.zipIdx).foldl (fun (acc : Dev) (m : List Nat × Nat) => acc.importMap m.2 m.1) d2
  let d4 := (x.repairs.zipIdx).foldl (fun (acc : Dev) (r : List RepairRow × Nat) => acc.importRepairs r.2 r.1) d3
  let d5 := (d4.checkpoint).jPush (.imported x.digest)
  let d6 := { d5 with
    ledger.header := d5.ledger.header.map (fun (g : LedgerHeader) => { g with imported := true })
    alarms.importPend := none }
  (d6.writeHeader).importEnd 1

/-- IMPORT_APPLY (R423): the import takes effect at the tick after its acceptance; in a global stop, in which the UHT and the tables stay as
they are (R57), after its end. DEDUCED (log entry 157). -/
def execImportApply (s : State) : Host.Outcome State Fault Refusal :=
  match s.dev.alarms.importPend with
  | some x =>
    if s.dev.off || s.dev.clock.stopped || s.dev.clock.frame ≤ x.acceptedAt then .next s else .next (s.onDev (fun d => d.applyImport x))
  | none => .next s

end Sys2Proof.Machine
end

