-- ==== Sys2Proof/Machine/Pins.lean ====
section
/-! DEFINITION. The pins of the cores and of Odtil itself (R17, R331, R503, R510, R515): a core's reset, the loss of its supply, the
park handshake, and the reset, power and power-on pins. -/

namespace Sys2Proof.Machine

/-! ## A core (R17, R250, R510) -/

/-- A Wisp's record and counters are lost (R17). DEDUCED (log entry 158). -/
def Wisp.loseRecord (w : Wisp) : Wisp := { w with hist := [], extremes := [], counters := [] }

/-- HOST_CORE_RESET (R17, R250): the pending samples are discarded and counted, and a test on the core ends VOID with reason ABORT. In a
stop the sample lists are frozen, and the event is counted alone (R57, R59). -/
def execHostCoreReset (bank : BankId) (pos : Pos) (s : State) : Host.Outcome State Fault Refusal :=
  if s.dev.off || s.dev.bankDown bank.val then .next s
  else .next (s.onDev (fun d =>
    (if d.clock.stopped then d.satZ Reg.ZN_STOP_LOST 1 else d.discard bank.val pos.val (fun _ => true)).abortTest bank.val pos.val))

/-- CORE_SUPPLY_LOSS (R17, R261): without a completed park the Wisp's record and counters are lost, and its next GAP record says so; what
the image store holds afterwards is not known. -/
def execCoreSupplyLoss (bank : BankId) (pos : Pos) (s : State) : Host.Outcome State Fault Refusal :=
  .next (s.onDev (fun d =>
    let b := bank.val
    let p := pos.val
    let d1 := d.modWisp b p (fun w => { w with pat.unpowered := w.pat.valid || !w.pat.bitmap.isEmpty })
    if (d.wisp b p).parked then d1
    else (d1.discard b p (fun _ => true)).modWisp b p (fun w => { w.loseRecord with supplyLost := true })))

/-- Write the words of the `n` blocks that closed first. -/
def writeAllClosed (b p : Nat) : Nat → State → State
  | 0, s => s
  | n + 1, s => writeAllClosed b p n (writeClosed s b p)

/-- The park of a Wisp whose Bank answers (R510 steps 2 and 3): open blocks closed and their words written, pending candidates
discarded, record and counters copied, WS_PARK_ACK; the parked core has no command in progress. -/
def State.parkNow (s : State) (b p : Nat) : State :=
  let s1 := s.onDev (fun d => d.closeAll s.mem b p)
  let s2 := writeAllClosed b p (s1.dev.wisp b p).closed.length s1
  s2.onDev (fun d =>
    let d1 := d.discard b p (fun _ => true)
    let w := d1.wisp b p
    (d1.modBank b (fun k =>
      { k with parkCopies := Tbl.set none k.parkCopies p (some { hist := w.hist, extremes := w.extremes, counters := w.counters }) })).modWisp
      b p (fun w => { w with parked := true, busy := false, inProgress := false }))

/-- The park of a Wisp that no Bank answers: acknowledged, with its record and counters lost (R515). -/
def Dev.parkLost (d : Dev) (b p : Nat) : Dev :=
  d.modWisp b p (fun w => { w.loseRecord with parkReq := true, parked := true, supplyLost := true, busy := false, inProgress := false })

/-- The position is under a test, its save and restore included. -/
def Dev.testedAt (d : Dev) (b p : Nat) : Bool := d.testing (coreUnit b p)

/-- PARK_REQUEST (R510, R515). A test on the core ends VOID, and the acknowledgement waits for the end of its restore. DEDUCED (log entry 159). -/
def execParkRequest (bank : BankId) (pos : Pos) (s : State) : Host.Outcome State Fault Refusal :=
  let b := bank.val
  let p := pos.val
  if (s.dev.wisp b p).parkReq then .next s
  else if s.dev.off || s.dev.bankDown b then .next (s.onDev (fun d => d.parkLost b p))
  else
    let s1 := s.onDev (fun d => d.modWisp b p (fun w => { w with parkReq := true }))
    if s.dev.testedAt b p then .next (s1.onDev (fun d => d.abortTest b p)) else .next (s1.parkNow b p)

/-- Parks that waited for a restore, taken at a tick (R510 step 4). -/
def State.latePark (s : State) (u : Nat) : State :=
  let w := s.dev.wisp (u / 264) (u % 264)
  if w.parkReq && !w.parked && !s.dev.testing u then s.parkNow (u / 264) (u % 264) else s

/-- Every park that waits. -/
def State.lateParks (s : State) : State := (s.dev.wisps.map Prod.fst).foldl State.latePark s

/-- PARK_RELEASE (R510 step 5): supply and clock are back; the Bank restores its copy. The GAP record of the ticks missed while the core
was parked follows with the tick that the Wisp receives, or with its restart. -/
def execParkRelease (bank : BankId) (pos : Pos) (s : State) : Host.Outcome State Fault Refusal :=
  let b := bank.val
  let p := pos.val
  .next (s.onDev (fun d =>
    let d1 := match Tbl.get none (d.bank b).parkCopies p with
      | some c => (d.modWisp b p (fun w => { w with hist := c.hist, extremes := c.extremes, counters := c.counters })).modBank b
          (fun k => { k with parkCopies := Tbl.erase k.parkCopies p })
      | none => d
    d1.modWisp b p (fun w => { w with
      parkReq := false
      parked := false
      missed := w.missed || (w.parked && decide (w.lastRx ≠ some d.clock.frame)) })))

/-! ## Odtil (R331, R448, R503, R504) -/

/-- Odtil is held: the clamps engage at once, and the Zenith domain is in reset. -/
def Dev.hold (d : Dev) (pins : Pins) : Dev := d.resetZenith { pins with swChecker := false } 0

/-- ODT_RESET_ASSERT (R503, R504). -/
def execOdtResetAssert (s : State) : Host.Outcome State Fault Refusal :=
  if s.dev.pins.resetHeld then .next s
  else .next (s.onDev (fun d => d.hold { d.pins with resetHeld := true }))

/-- ODT_PWR_OK_FALL (R504). -/
def execOdtPwrOkFall (s : State) : Host.Outcome State Fault Refusal :=
  if !s.dev.pins.pwrOk then .next s
  else .next (s.onDev (fun d => d.hold { d.pins with pwrOk := false }))

/-- AON_POR (R331, R409, R503): the always-on slice is powered up. Everything in it is cleared but the vault's store and the fuses; the
rest of Odtil is held until ODT_RST_N is released, and that start is cold. -/
def execAonPor (s : State) : Host.Outcome State Fault Refusal :=
  .next (s.onDev (fun d =>
    let aon : AlwaysOn := { AlwaysOn.cold with
      salt := d.aon.salt, saltValid := d.aon.saltValid, floor := d.aon.floor, cacheValid := d.aon.cacheValid,
      cacheVersion := d.aon.cacheVersion, cacheDigest := d.aon.cacheDigest, fuses := d.aon.fuses, powered := true }
    ({ d with aon := aon }).hold { d.pins with resetHeld := true, hostCoresUp := false }))

end Sys2Proof.Machine
end

