-- ==== Sys2Proof/Machine/Arbiter.lean ====
section
/-! DEFINITION. The Bank record arbiter at work (R23, R46, R55, R367 to R370): one presented event is accepted. -/

namespace Sys2Proof.Machine

/-- What an accepted event sends on to Zenith (R23, R55). -/
def Dev.forward (d : Dev) (b : Nat) (f : Forward) (nosent : Bool) (x : Rec) : Dev :=
  match f with
  | .nothing => d
  | .journal => d.jPush (.event b x)
  | _ => d.arbPush (.cw b f nosent)

/-- The event at place `i` of those presented is accepted at an offset of the frame. -/
def Dev.acceptAt (d : Dev) (b i zc : Nat) : Dev :=
  let r := (d.bank b).ring
  match r.presented[i]? with
  | none => d
  | some x =>
    let f := d.bankFrame b
    let y := x.toRec f zc
    let r1 := { r with presented := r.presented.eraseIdx i, lastSource := x.source }
    (d.modBank b (fun k => { k with ring := r1.take f zc y x.ev.detail })).forward b x.fwd x.ev.nosent y

/-- BANK_RECORD_ACCEPT (R46): the arbiter serves the next source in round-robin order. Nothing is accepted in a stop (R57), and a Bank
that takes no part has no arbiter. DEDUCED (log entry 100). -/
def execBankRecordAccept (bank : BankId) (zc : Zc) (s : State) : Host.Outcome State Fault Refusal :=
  let d := s.dev
  if d.clock.stopped || d.bankDown bank.val then .next s
  else match (d.bank bank.val).ring.next with
    | none => .next s
    | some i => .next { s with dev := d.acceptAt bank.val i zc.val }

end Sys2Proof.Machine
end

