-- ==== Sys2Proof/Machine/Sampling.lean ====
section
/-! DEFINITION. Sampling at a tick (R21, R124, R127, R128, R150, R166, R190, R240): the draw, the candidate that a drawn tile makes, and
where it goes. -/

namespace Sys2Proof.Machine

/-- The multiply-high of R128. -/
def mulhi (x : Word) (e : Nat) : Nat := x.toNat * e / 2 ^ 32

/-- The number that the draw of a tile rests on: seed, position and ordinal (R127). -/
def drawWord (seed : DWord) (pos d : Nat) : DWord :=
  mix64 (seed ^^^ BitVec.ofNat 64 (pos * 2 ^ 52) ^^^ BitVec.ofNat 64 (d * 2 ^ 44))

/-- The tile is drawn at exponent `n` (R127). -/
def drawn (r : DWord) (n : Nat) : Bool := decide (n = 0) || decide (r >>> (64 - n) = 0)

/-- The effective sample exponent of a core for a context; none where nothing is drawn: below Sample, of a context that has failed
or ended, of a shadow core, or of a unit in Eclipse (R166, R170, R178). -/
def Dev.exponent (d : Dev) (b p c : Nat) : Option Nat :=
  let x := d.ctx c
  let role := match (d.bank b).cc.logicalOf p with
    | some n => ((d.bank b).cc.owner n).2
    | none => 0
  if x.core.state ≠ .active || x.core.level < 2 || role = 1 then none
  else
    let n := d.floored x.core.srate
    match d.healthOf (coreUnit b p) with
    | .eclipse => none
    | .clear => some n
    | .dawn => some (n - 2)
    | .haze => some (n - 2)
    | .overcast => some (n - 2)

/-- A candidate of a drawn tile with its operation and coordinates. -/
def tileCand (t : Tile) (pos chan op : Nat) (row col : Word) (count : Nat) (twoVec : Bool) : Cand where
  op := op
  src := 0
  chan := chan
  second := false
  validA := false
  validB := false
  ctx := t.ctx
  pos := pos
  oper := t.oper
  step := t.step
  decl := t.tag.decl
  row := row
  col := col
  count := BitVec.ofNat 16 count
  blocks := 0
  sigA := 0
  sigB := 0
  handle := 0
  twoVec := twoVec
  epoch := t.epoch
  tagNo := 0

/-- The candidate that a drawn tile makes of the first bytes of its declaration; none where the tile is not drawable (R124, R128). -/
def drawnCand (t : Tile) (c : Decl) (pos chan : Nat) (r : DWord) : Option Cand :=
  let r2 := mix64 (r + 1)
  let o0 := t.tag.origin0
  let e0 := t.tag.extent0.toNat
  let e1 := t.tag.extent1.toNat
  let first := o0 + w32 (mulhi (lo32 r2) e0)
  let col := t.tag.origin1 + w32 (mulhi (hi32 r2) e1)
  let dot := tileCand t pos chan opDOT first col 0 c.twoVec
  let rowsum := tileCand t pos chan opROWSUM o0 col e0 c.twoVec
  match c.cls with
  | 1 =>
    if e1 = 0 then none
    else match c.mix with
      | 0 => some dot
      | 1 => some rowsum
      | 2 => some (if r.getLsbD 0 then rowsum else dot)
      | _ => none
  | 2 => some (tileCand t pos chan opCONSERVE first 0 0 c.twoVec)
  | 3 => some (tileCand t pos chan opSETHASH first 0 0 c.twoVec)
  | 4 =>
    if c.func = fnSOFTMAX then some (tileCand t pos chan opELEMWISE first 0 1 c.twoVec)
    else
      let n := min 16 e0
      some (tileCand t pos chan opELEMWISE (o0 + w32 (mulhi (lo32 r2) (e0 - n + 1))) 0 n c.twoVec)
  | _ => some (tileCand t pos chan opDOT o0 t.tag.origin1 0 c.twoVec)

/-- Where a drawn candidate goes: a pending entry, or DROPPED below Gate and deferred at Gate (R150); at Gate every candidate of a core in
Overcast is deferred as well (R240). -/
def Dev.placeCand (d : Dev) (b p : Nat) (x : Cand) : Dev :=
  let full := decide (4 ≤ (d.wisp b p).pend.length)
  let gate := (d.ctx x.ctx).gate
  let overcast := d.healthOf (coreUnit b p) == .overcast
  let d1 := if gate && (full || overcast) then d.wispEvent b p 0x23 x.ctx x.step 0 0 0 (.defer x.ctx x.step x.epoch p full) else d
  if !full then d1.modWisp b p (fun w => { w with pend := w.pend ++ [x] })
  else if gate then d1.modWisp b p (fun w => { (w.add Reg.WS_SMP_DEFERRED 1) with holdReq := true })
  else ((d1.modWisp b p (fun w => { (w.add Reg.WS_SMP_DROPPED 1) with drops := w.drops + 1 })).bumpZ Reg.ZN_ANV_CNT_DROPPED).uncount x

/-- A candidate is drawn: counted, and known to its epoch, as the draw notice tells the horizon engine (R190). DEDUCED (log entry 36). -/
def Dev.takeDraw (d : Dev) (b p : Nat) (x : Cand) : Dev :=
  let d1 := d.modWisp b p (fun w => w.add Reg.WS_SMP_DRAWN 1)
  let d2 := match x.epoch with
    | some e => d1.modEpoch x.ctx e (fun y => { y with outstanding := y.outstanding + 1 })
    | none => d1
  d2.placeCand b p x

/-- One tile considered, with its ordinal (R127); a frame without a seed draws nothing. -/
def Dev.drawTile (mem : HostMem) (seed : Option DWord) (b p : Nat) (d : Dev) (e : Tile × Nat) : Dev :=
  let t := e.1
  let d1 := d.modWisp b p (fun w => w.add Reg.WS_SMP_TILES 1)
  let undrawable := d1.modWisp b p (fun w => w.add Reg.WS_SMP_UNDRAWABLE 1)
  if t.tag.decl = 0 || t.tag.extent0 = 0 then undrawable
  else match seed, d.exponent b p t.ctx with
    | some f, some n =>
      let r := drawWord f p e.2
      if !drawn r n then d1
      else match drawnCand t (Decl.parse (mem.read t.tag.decl.toNat 16)) p (((d.bank b).cc.chanOf p).getD 0) r with
        | none => undrawable
        | some x => d1.takeDraw b p x
    | _, _ => d1

/-- The draws of a Wisp at a tick that it received: at most 8 of the tiles finished since the previous one, in order; none while both
Anvils of the pair are isolated, or in a frame without a seed (R21, R127). -/
def Dev.sampleWisp (d : Dev) (mem : HostMem) (b p : Nat) : Dev :=
  let tiles := ((d.wisp b p).tiles).filter (fun t => decide (d.ownerAt b p = t.ctx) && (d.exponent b p t.ctx).isSome)
  let d1 := d.modWisp b p (fun w => { w with tiles := [] })
  if tiles.isEmpty || d.pairLost b then d1
  else
    let d2 := d1.modWisp b p (fun w => w.add Reg.WS_SMP_UNCONSIDERED (tiles.length - 8))
    ((tiles.take 8).zipIdx).foldl (Dev.drawTile mem (d.bankSeed b) b p) d2

end Sys2Proof.Machine
end

