-- ==== Sys2Proof/Machine/Tick.lean ====
section
/-! DEFINITION. The frame tick (R35 to R42, R53) and everything that the manual lets happen at a tick: headers, launches, what each Wisp
brings and receives, quiet counts, holds, owners, verdicts, retries and the engines' per-frame work. -/

namespace Sys2Proof.Machine

/-! ## The frame and the launch table (R35, R51 to R53, R61) -/

/-- The first tick after a Zenith reset begins frame 0, every later one the next frame. -/
def Dev.beginFrame (d : Dev) : Dev :=
  { d with clock.frame := if d.clock.ticked then (d.clock.frame + 1) % frameMod else 0, clock.ticked := true }

/-- The actions of this tick leave the launch table; a GRESUME waits while a Bank still captures (R61). DEDUCED (log entry 27). -/
def Dev.takeLaunches (d : Dev) : Dev :=
  let f := d.clock.frame
  let capturing := d.clock.capturing.filter (fun b => !d.bankDown b)
  let wait := d.clock.stopped && !capturing.isEmpty
  let due (e : Launch) : Bool := decide (e.frame ≤ f)
  let late (e : Launch) : Bool := wait && decide (e.action = 2)
  { d with
    clock.capturing := capturing
    clock.now := (d.clock.launch.map Prod.snd).filter (fun e => due e && !late e)
    clock.launch := (d.clock.launch.filter (fun e => !due e.2 || late e.2)).map (fun e =>
      if due e.2 then (e.1, { e.2 with frame := f + 1 }) else e) }

/-- The checking state is frozen at this tick: a stop is in force, or begins here (R57). DEDUCED (log entry 29). -/
def Dev.frozenTick (d : Dev) : Bool := d.clock.stopped || d.clock.now.any (fun e => decide (e.action = 1))

/-! ## Tick headers (R40, R41) -/

/-- A Bank adopts the frame number `f` of a good header: TICK_SLIP where its own was another (R40). The manual does not say which of the
Bank's internal sources presents it: a free choice. -/
def Dev.slip (d : Dev) (b f : Nat) : Dev :=
  let mine := d.bankFrame b
  let (n, d1) := d.draw
  let d2 := d1.modBank b (fun k => { k with frameOff := BitVec.ofNat 53 (f + frameMod - d.clock.frame) })
  let d3 := d2.setZf Reg.ZN_TICK_FAULT 31 16 (min 0xFFFF (d2.zf Reg.ZN_TICK_FAULT 31 16 + 1))
  d3.bankEvent b (264 + Config.freeChoice n % 8) 0x02 0 (w32 mine) (w32 (mine / 2 ^ 32)) (w32 f) (w32 (f / 2 ^ 32)) .journal

/-- The header reaches a Bank, with `flips` of its bits inverted on the way: with a CRC error its seed is absent and two in a row ask for a
chip reset; a good one is compared with the Bank's own frame number (R40, R41). DESIGN CHOICE (log entry 174). -/
def Dev.bankHeader (d : Dev) (flips : BitVec 256) (b : Nat) : Dev :=
  let clean (k : Bank) : Bank := { k with headerBad := false, seedAbsent := false, seedFlip := 0 }
  if d.bankDown b then d.modBank b clean
  else
    match if flips = 0 then some (d.clock.frame, d.seed.getD 0) else readHeader (BitVec.ofNat 256 (leWordNat d.header) ^^^ flips) with
    | none =>
      let d1 := d.setZf Reg.ZN_TICK_FAULT 15 0 (min 0xFFFF (d.zf Reg.ZN_TICK_FAULT 15 0 + 1))
      let d2 := if (d.bank b).headerBad then d1.wantChipReset 4 else d1
      d2.modBank b (fun k => { k with headerBad := true, seedAbsent := true })
    | some (f, seed) =>
      let d1 := d.modBank b (fun k => { clean k with seedFlip := seed ^^^ d.seed.getD 0 })
      if d1.bankFrame b = f then d1 else d1.slip b f

/-- The headers of this tick, with the upsets of the frame copies before it, the skew measured and the Banks that returned no
summary. -/
def Dev.headers (d : Dev) (inp : TickIn) : Dev :=
  let flipped (b : Nat) : BitVec 256 := inp.headerFlips.foldl (fun (x : BitVec 256) e => if e.1.val = b then x ^^^ e.2 else x) 0
  let bad := (inp.headerFlips.map (fun e => e.1.val)).eraseDups
  let d1 := inp.upsets.foldl (fun (acc : Dev) (x : BankId × BitVec 53) =>
    acc.modBank x.1.val (fun k => { k with frameOff := k.frameOff + x.2 })) d
  let odd := (d1.banks.filter (fun (e : Nat × Bank) =>
    e.2.headerBad || e.2.seedAbsent || decide (e.2.seedFlip ≠ 0) || decide (e.2.frameOff ≠ 0))).map Prod.fst
  let d2 := (odd ++ bad.filter (fun b => !odd.contains b)).foldl (fun (acc : Dev) b => acc.bankHeader (flipped b) b) d1
  let d3 := d2.setZf Reg.ZN_TICK_LAT 15 8 (max (d2.zf Reg.ZN_TICK_LAT 15 8) inp.skew.toNat)
  let silent := inp.noSummary.map (fun b => b.val)
  let d4 := silent.foldl (fun (acc : Dev) b => acc.modBank b (fun k => { k with missing := k.missing + 1 })) d3
  { d4 with banks := Tbl.mapAll Bank.init (fun b (k : Bank) => if silent.contains b then k else { k with missing := 0 }) d4.banks }

/-! ## Parity hits (R465, R466) -/

/-- A hit in an array of a Wisp. -/
def Dev.wispParity (d : Dev) (b p : Nat) (f : Wisp → Wisp) : Dev := d.modWisp b p (fun w => (f w).add Reg.WS_PAR_ERR 1)

/-- An array that a global stop freezes is not read in one (R57). -/
def arrayFrozen : ParityHit → Bool
  | .histogram _ _ _ => true
  | .counter _ _ _ => true
  | .extreme _ _ _ => true
  | .pending _ _ _ => true
  | .anvilContext _ => true
  | _ => false

/-- What a parity hit does (R465). DEDUCED (log entry 135). -/
def Dev.parityHit (d : Dev) : ParityHit → Dev
  | .histogram b p bin => d.wispParity b.val p.val (fun w => { w with hist := Tbl.set 0 w.hist bin.toNat 0 })
  | .counter b p n => d.wispParity b.val p.val (fun w => { w with counters := Tbl.set 0 w.counters n.val 0 })
  | .extreme b p n => d.wispParity b.val p.val (fun w => { w with extremes := Tbl.set none w.extremes n.val none })
  | .pending b p n =>
    match (d.wisp b.val p.val).pend[n.val]? with
    | some x => (d.wispParity b.val p.val id).discard b.val p.val (fun y => decide (y = x))
    | none => d.wispParity b.val p.val id
  | .packet b p => d.wispParity b.val p.val (fun w => { w with pat.bufferHit := true })
  | .bitmap b p => d.wispParity b.val p.val (fun w => { w with pat.bitmap := [], pat.valid := false })
  | .anvilContext b =>
    let k := d.bank b.val
    if d.bankDown b.val || k.anv.isolated || k.anv.resetAt.isSome then d else d.startAnvilReset b.val 2 none
  | .remap b n => d.modBank b.val (fun k =>
      { k with cc.remapBad := if k.cc.remapBad.contains n.val then k.cc.remapBad else k.cc.remapBad ++ [n.val] })
  | .sessionKey => d.closeSession
  | .vault both => if both then { d with aon.saltValid := false } else d
  | .seedKey period =>
    let n := period.toNat
    ({ d with clock.seedKeys := Tbl.erase d.clock.seedKeys n
              clock.seedLost := if d.clock.seedLost.contains n then d.clock.seedLost else d.clock.seedLost ++ [n] }).ensureSeedKey

/-- A parity hit on a datapath (R466): the transfer is repeated, and its third hit counts against its destination. -/
def Dev.pathHit (d : Dev) (transfer : Nat) (lost : Dev → Dev) : Dev :=
  let d1 := d.bumpZ Reg.ZN_PROT_CNT_PAR
  let n := Tbl.get 0 d.prot.transfers transfer + 1
  if 3 ≤ n then lost { d1 with prot.transfers := Tbl.erase d1.prot.transfers transfer }
  else { d1 with prot.transfers := Tbl.set 0 d1.prot.transfers transfer n }

/-- A byte read with its parity bit (R457, R465, R466): without a hit a transfer has ended. A hit on a datapath inside an Anvil counts as
one in its channel contexts. DEDUCED (log entry 176). -/
def Dev.byteRead (d : Dev) (x : ByteRead) : Dev :=
  let hit := readHits x.bits
  let ended (n : Nat) : Dev := { d with prot.transfers := Tbl.erase d.prot.transfers n }
  let frozen (a : ParityHit) (f : Dev) : Dev := if d.clock.stopped && arrayFrozen a then d.satZ Reg.ZN_STOP_LOST 1 else f
  match x.place with
  | .array a => if hit then frozen a (d.parityHit a) else d
  | .toArray n a =>
    if !hit then ended n
    else frozen a (match a with
      | .anvilContext _ => (d.bumpZ Reg.ZN_PROT_CNT_PAR).parityHit a
      | _ => d.pathHit n (fun d => d.parityHit a))
  | .toPage n st page => if hit then d.pathHit n (fun d => d.pageLost st page) else ended n

/-- The spare-remap tables that showed a hit are reloaded from Zenith's copy (R465). -/
def Dev.reloadMaps (d : Dev) : Dev :=
  { d with banks := Tbl.mapAll Bank.init (fun _ (k : Bank) =>
      if k.cc.remapBad.isEmpty then k
      else
        let v := k.reg Reg.BK_PROT_PAR
        { (k.setReg Reg.BK_PROT_PAR (setBits v 31 16 (min 0xFFFF (bitsOf v 31 16 + 1)))) with cc.remapBad := [] }) d.banks }

/-! ## Pins (R425, R504) -/

/-- The supply inputs as sampled, and the alarm sources still asserted: one whose level has been cleared raises it again (R425). -/
def Dev.samplePins (d : Dev) (inp : TickIn) : Dev :=
  let d1 := { d with
    pins.odtSupplyOk := inp.odtSupply
    pins.supplyBad := inp.supplyBad.map (fun b => b.val)
    pins.fusePwrOk := inp.fusePwr
    alarms.asserted := inp.alarms }
  (List.range 6).foldl (fun (acc : Dev) n =>
    if inp.alarms.getLsbD n && !acc.aon.raised.getLsbD n then acc.alarmSource n else acc) d1

/-! ## What a Wisp brings and receives (R47, R48, R250, R309, R311, R321, R360, R386) -/

/-- The per-frame samples of the frame whose tick the Wisp received before, and a sample of each stall that ended (R360). -/
def Wisp.frameSamples (w : Wisp) (x : WispTick) (level frame : Nat) (counted : Bool) : Wisp :=
  let w1 := x.stalls.foldl (fun (acc : Wisp) v => acc.sampleNat 2 v.toNat frame) w
  if counted then w1.frameSet x.droop level frame else w1

/-- The operation counters advance, modulo 2^48 (R386, R387). -/
def Wisp.count (w : Wisp) (counts : List Nat) : Wisp :=
  { w with counters := (List.range 32).foldl (fun (t : Tbl (BitVec 48)) i =>
      Tbl.set 0 t i (Tbl.get 0 t i + BitVec.ofNat 48 (if i = 28 then w.beacons else counts.getD i 0))) w.counters }

/-- The Wisp after the values it brings; its record and counters take nothing in a stop, nor while its core is fenced (R57, R241). DEDUCED
(log entry 177). -/
def Dev.bring (d : Dev) (stopped : Bool) (x : WispTick) (w : Wisp) : Wisp :=
  let last := w.lastRx.getD (d.clock.frame - 1)
  let est := { d.measure x.acts w with
    droop := x.droop.toNat
    busy := x.busy
    inProgress := x.inProgress
    wait := x.wait }
  let level := if d.aon.thermTrip then 15 else w.level
  let w1 := if stopped || d.fenced x.bank.val x.pos.val then est
    else { ((est.frameSamples x level last (w.lastRx.isSome && !w.rejoined)).count x.counts) with drops := 0, skips := 0 }
  { w1 with beacons := 0 }

/-- The throttle level that a Wisp takes at a tick: a new one after an update, 0 where its position is unmapped (R321). -/
def Dev.deliverLevel (d : Dev) (b p : Nat) (w : Wisp) : Wisp :=
  if d.thm.pending then
    { w with level := match d.tileOf b p with
        | some t => Tbl.get 0 d.thm.levels t
        | none => 0 }
  else w

/-- A running test judges the frame that has ended, its edges where the Wisp has counted them (R250). -/
def Dev.judgeFrame (d : Dev) (b p : Nat) (w : Wisp) (edges : Option Nat) : Dev :=
  match d.testOn b p with
  | some t =>
    let f := d.clock.frame
    if t.phase = .running && decide (t.startFrame < f) then
      let clockOk := edges.all (fun n => edgesOk n w.pat.khz d.clock.zclkNow)
      let r := frameReason clockOk (d.pins.supplyBad.contains b) (d.aon.thermTrip || decide (0 < w.level)) w.missed
      d.modBank b (fun k => k.setTest p (some (t.invalid r (f - 1))))
    else d
  | none => d

/-- A Wisp receives the tick; the blocks of a storing command that has ended close (R77). -/
def Dev.receiveTick (mem : HostMem) (stopped : Bool) (d : Dev) (x : WispTick) : Dev :=
  let b := x.bank.val
  let p := x.pos.val
  let w := d.wisp b p
  if d.bankDown b || w.parked then d
  else
    let d0 := (d.judgeFrame b p w (some x.edges)).modWisp b p (fun w => d.deliverLevel b p (d.bring stopped x w))
    let d1 := if x.inProgress then d0 else d0.closeAll mem b p
    if w.missed then d1.rejoin b p false
    else d1.modWisp b p (fun w => { w with lastRx := some d.clock.frame, rejoined := false })

/-- A running test finds the frame that begins invalid. -/
def Dev.spoilTest (d : Dev) (b p reason : Nat) : Dev :=
  match d.testOn b p with
  | some t => if t.phase = .running then d.modBank b (fun k => k.setTest p (some (t.invalid reason d.clock.frame))) else d
  | none => d

/-- A Wisp that has received ticks misses this one: a test on it judges the frame before, and has no core clock in this one (R47, R250).
DEDUCED (log entry 33). -/
def Dev.missTick (d : Dev) (b p : Nat) : Dev :=
  ((d.judgeFrame b p (d.wisp b p) none).modWisp b p (fun w => { w with missed := true })).spoilTest b p 1

/-- The tests of a Bank that takes no tick: the frame before is judged, and this one is a gap (R250, R352). -/
def Dev.bankGap (d : Dev) (b : Nat) : Dev :=
  ((d.bank b).testList.map Prod.fst).foldl (fun (acc : Dev) p => (acc.judgeFrame b p (acc.wisp b p) none).spoilTest b p 4) d

/-- The Wisps at this tick: one whose core clock brings at least 4 edges before the next tick arrives receives it, the others miss it
(R47). -/
def Dev.wispTicks (d : Dev) (mem : HostMem) (inp : TickIn) (stopped : Bool) : Dev :=
  let received := inp.wisps.filter (fun x => decide (4 ≤ x.sync))
  let got := received.map (fun x => coreUnit x.bank.val x.pos.val)
  let gone := (d.wisps.filter (fun (e : Nat × Wisp) => e.2.lastRx.isSome && !e.2.parked && !d.bankDown (e.1 / 264) && !got.contains e.1)).map Prod.fst
  let d1 := received.foldl (Dev.receiveTick mem stopped) d
  let down := (d.banks.filter (fun (e : Nat × Bank) => d.bankDown e.1 && !e.2.tests.isEmpty)).map Prod.fst
  down.foldl Dev.bankGap (gone.foldl (fun (acc : Dev) u => acc.missTick (u / 264) (u % 264)) d1)

/-! ## Held frames and quiet counts (R151, R189, R203, R245, R332 to R334) -/

/-- The held frames of the frame that has ended are counted. DEDUCED (log entry 43). -/
def Dev.countHeld (d : Dev) : Dev :=
  let held := d.ctxs.flatMap (fun (e : Nat × Ctx) => e.2.core.held)
  let count (off : Nat) (banks : List Nat) (d : Dev) : Dev :=
    banks.foldl (fun (acc : Dev) b => acc.modBank b (fun k => k.add off 1)) d
  let deferred := ((held.filter (fun (e : Nat × Nat) => decide (e.2 = 0))).map Prod.fst).eraseDups
  let tested := (d.banks.filter (fun (e : Nat × Bank) => !e.2.testHold.isEmpty)).map Prod.fst
  let d1 := count Reg.BK_TST_HOLD_FRAMES tested (count Reg.BK_ANV_HOLD_FRAMES deferred d)
  let full := held.any (fun e => decide (e.2 = 4))
  let d2 := if full then d1.bumpZ Reg.ZN_HZ_CNT_LOGFULL else d1
  { d2 with ctxs := Tbl.mapAll Ctx.init (fun _ (x : Ctx) => if x.hz.stall then { x with hz.stallFrames := x.hz.stallFrames + 1 } else x) d2.ctxs }

/-- The isolated Banks in which busy cores of the context lie. -/
def Dev.busyIsolated (d : Dev) (c : Nat) : List Nat :=
  ((d.wisps.filter (fun (e : Nat × Wisp) => e.2.busy && (d.bank (e.1 / 264)).isolated && (match (d.bank (e.1 / 264)).cc.logicalOf (e.1 % 264) with
    | some n => decide (((d.bank (e.1 / 264)).cc.owner n).1 = c)
    | none => false))).map (fun e => e.1 / 264)).eraseDups

/-- A frame that counts toward no hang of the context (R333); one of a breakpoint only while the context is halted, a dump's copy included
(R396, R399). -/
def Dev.quietFrozen (d : Dev) (stopped : Bool) (c : Nat) : Bool :=
  stopped || d.suppressed c || decide ((d.ctx c).dbgState = 2) ||
    !(d.ctx c).core.held.isEmpty || (d.ctx c).hz.stall || d.sd.hold || d.banks.any (fun e => e.2.testHold.contains c)

/-- The quiet count of a context at a tick; HANG_BLIND once per isolation (R332 to R334). DEDUCED (log entry 122). -/
def Dev.quietTick (stopped : Bool) (d : Dev) (c : Nat) : Dev :=
  let x := d.ctx c
  if x.core.state ≠ .active then d.modCtx c (fun x => { x with hang.beacon := false, hang.busy := false })
  else
    let busy := !(d.busyCores c).isEmpty
    let away := if busy then [] else d.busyIsolated c
    let known := x.hang.blind.filter (fun b => (d.bank b).isolated)
    let quiet := if d.quietFrozen stopped c || !away.isEmpty then x.hang.quiet
      else if x.hang.beacon || !busy then 0 else x.hang.quiet + 1
    let d1 := if away.any (fun b => !known.contains b) then d.zEvent 3 0x61 c 0 0 0 0 else d
    d1.modCtx c (fun x =>
      { x with hang := { x.hang with
          quiet := quiet
          beacon := false
          busy := busy
          blind := known ++ away.filter (fun b => !known.contains b)
          beaconAt := if x.hang.beacon then d.clock.frame - 1 else x.hang.beaconAt } })

/-! ## Contexts at a tick (R151, R167, R180, R187, R189, R202, R224, R403) -/

/-- A context that closes lets go of its breakpoint hits and its dump hold (R403). -/
def Dev.dropHalts (d : Dev) (c : Nat) : Dev :=
  { d with
    dbg.hits := d.dbg.hits.map (fun (h : BrkHit) => if h.ctx = c then { h with releasing := true } else h)
    dbg.dumps := Tbl.mapAll Dump.init (fun _ (x : Dump) =>
      if x.ctx = c && x.halting then { x with halting := false, state := if x.state = 2 then 5 else x.state } else x) d.dbg.dumps }

/-- What a tick does for one context outside a stop. -/
def Dev.ctxTick (d : Dev) (c : Nat) : Dev :=
  let d1 := if (d.ctx c).core.closePend then (d.closeCtx c).dropHalts c else d
  let d2 := d1.modCtx c (fun x =>
    let lowering := x.core.pend.any (fun q => decide (q.level < 3) && q.boundaryAt.isSome)
    let opened := if x.hz.openNext && !x.hz.stall && !x.hz.retractPend && x.gate && !lowering then { x with hz := x.hz.openOrStall } else x
    { opened with
      core.srate := opened.core.sratePend.getD opened.core.srate
      core.sratePend := none
      core.held := opened.core.held.filter (fun e => d1.holdWanted e.1 c e.2) })
  ((d2.lostBoundary c).tryCap c).emitExpose c

/-! ## Banks at a tick (R141, R147, R156, R160, R251, R372) -/

/-- The margin of a verdict on a core's work goes to the metric of the Wisp at its position (R147, R360). DEDUCED (log entry 37). -/
def Dev.marginSample (b : Nat) (d : Dev) (x : Desc) : Dev :=
  let v := verdictOf x.verdict
  if x.cand.op = opSIGCMP || x.cand.src = 1 || !(decide (v = vMATCH) || decide (v = vWITHIN) || decide (v = vBEYOND)) then d
  else
    let m := marginOf x.verdict
    d.modWisp b x.cand.pos (fun w => w.sample 3 (marginBin (decide (v = vBEYOND)) (decide (v = vMATCH)) m) m d.clock.frame)

/-- The verdicts of the frame that has ended go to Zenith, which frees their entries (R147). -/
def Dev.forwardVerdicts (d : Dev) (b : Nat) : Dev :=
  let done := (d.bank b).anv.done
  if done.isEmpty then d
  else
    let d1 := (done.foldl (Dev.marginSample b) d).modBank b (fun k =>
      { (k.add Reg.BK_ANV_VERDICTS done.length) with anv.done := [] })
    done.foldl (fun (acc : Dev) x => acc.arbPush (.verdict b x)) d1

/-- The Anvil's frame begins: slot 0, the table as rewritten, and the slots that each channel ran (R141, R156); the tick restores the table of
an Anvil whose partner has returned (R148). -/
def BankAnv.newFrame (a : BankAnv) : BankAnv :=
  { a with
    slotNo := 0
    slotsLast := a.slotsRun
    slotsRun := []
    slots := a.slotsStaged.foldl (fun (t : Tbl Nat) (e : Nat × Nat) => Tbl.setK (fun s => s / 4) t e.1 e.2) a.slots
    slotsStaged := [] }

/-- A field test that waited for its tick starts, where its Wisp acts at the tick (R247, R50). -/
def Bank.startWaiting (k : Bank) (frame : Nat) (acts : Nat → Bool) : Bank :=
  (k.testList.filter (fun e => decide (e.2.phase = .starting) && acts e.1)).foldl (fun (acc : Bank) (e : Nat × Test) =>
    acc.setTest e.1 (some { e.2 with phase := .running, since := frame, startFrame := frame })) k

/-- What a tick does for one Bank outside a stop. -/
def Dev.bankTick (d : Dev) (b : Nat) : Dev :=
  if d.bankDown b then d
  else
    let d1 := (d.forwardVerdicts b).modBank b (fun k =>
      let k1 := (if d.pairLost b then k.add Reg.BK_ANV_SUPPRESS 1 else k).startWaiting d.clock.frame
        (fun p => (d.wisp b p).acts d.clock.frame)
      { k1 with anv := { k1.anv.newFrame with hostTable := d.hosting b } })
    let d2 := d1.applyIdleOwners b
    let d3 := d2.readyRemaps b (fun n => decide (((d2.bank b).cc.owner n).1 = 0) && (match (d2.bank b).cc.posOf n with
      | some p => d2.idle b p
      | none => true))
    d3.applyClear b

/-! ## The tick -/

/-- What waits to be tried again at a tick: descriptors that Zenith submits, steps under resolution, resets asked of the host. -/
def Dev.retries (d : Dev) : Dev :=
  let again := d.hz.sigRetry
  let d1 := again.foldl Dev.zSubmit { d with hz.sigRetry := [] }
  d1.advanceSuspects

/-- The checking state at a tick outside a stop (R57): contexts, Banks, draws of the Wisps that act, the sweep and the streams. -/
def Dev.liveTick (d : Dev) (mem : HostMem) : Dev :=
  let d1 := (d.ctxs.map Prod.fst).foldl Dev.ctxTick d
  let acting := (d1.wisps.filter (fun (e : Nat × Wisp) =>
    e.2.acts d1.clock.frame && !d1.bankDown (e.1 / 264) && !e.2.parked)).map Prod.fst
  let d2 := acting.foldl (fun (acc : Dev) u => acc.sampleWisp mem (u / 264) (u % 264)) d1
  let d3 := (d2.banks.map Prod.fst).foldl Dev.bankTick d2
  let d4 := { d3 with health.sweepNo := d3.health.sweepNo + 1 }
  (d4.retries).releaseHalts.periodicSamples.channelTick

/-- GRESUME (R53, R61): the stop ends at a tick at which every Bank has finished its capture, and the frozen state goes on from the cut
with that tick; NULL where no stop is in force. DEDUCED (log entry 30). -/
def execGresume (s : State) : Host.Outcome State Fault Refusal :=
  match s.dev.launched 2 with
  | none => .next s
  | some _ =>
    let d := s.dev.taken 2
    if !d.clock.stopped then .next { s with dev := d.launchNull }
    else
      let d1 := d.resumeStop
      .next { s with dev := if d1.clock.now.any (fun e => decide (e.action = 1)) then d1 else d1.liveTick s.mem }

/-- What runs at a tick whether or not a stop is in force (R58): the engines, the watchdog, resets, the steward's work. -/
def Dev.engineTick (d : Dev) (mem : HostMem) : Dev :=
  let d1 := d.endCaptures.requestResets
  let d2 := (d1.banks.map Prod.fst).foldl Dev.anvilBack d1
  let d3 := match d2.hang.chipCause with
    | some c => ({ d2 with hang.chipCause := none }).chipReset c
    | none => d2
  let running := decide (5 ≤ d3.start.step) && decide (d3.start.mode ≠ .unconfigured)
  let d4 := if running then { d3 with hang.wdog := d3.hang.wdog + 1 } else d3
  let d5 := if d4.thm.started then d4.takeEstimates else d4
  let d6 := if d5.locked then d5.closeDebug else d5
  (((d6.sdTick).startTick).patrolTick.scrubTick mem).drainContexts.snapExport

/-- The part at a tick. -/
def Dev.tick (d : Dev) (mem : HostMem) (inp : TickIn) : Dev :=
  let stopped := d.clock.stopped
  let d1 := ((d.beginFrame).takeLaunches).ensureSeedKey
  let d2 := ((inp.parity.foldl Dev.byteRead d1.reloadMaps).pageTick inp).headers inp
  let d3 := inp.diodes.foldl Dev.takeReading (d2.samplePins inp)
  let d4 := (d3.thermalTick).wispTicks mem inp stopped
  let d5 := { d4 with thm.pending := false }
  let d6 := if stopped then d5 else { d5.countHeld with health.graceClock := d5.health.graceClock + 1 }
  let d7 := (d6.ctxs.map Prod.fst).foldl (Dev.quietTick stopped) d6
  let d8 := if d7.frozenTick then d7.channelPause else d7.liveTick mem
  d8.engineTick mem

/-- The state at a tick: the part, the trace that its stagers write, and the parks that waited. -/
def State.tick (s : State) (inp : TickIn) : State :=
  let s1 := s.onDev (fun d => d.tick s.mem inp)
  let s2 := (s1.dev.banks.map Prod.fst).foldl drainTrace s1
  s2.lateParks

/-- TICK (R35): the frame tick. Zenith held in reset makes none. DESIGN CHOICE (log entry 7). -/
def execTick (inp : TickIn) (s : State) : Host.Outcome State Fault Refusal :=
  if s.dev.off then .next s else .next (s.tick inp)

end Sys2Proof.Machine
end

