-- ==== Sys2Proof/Machine/Dispatch.lean ====
section
/-! DEFINITION. The dispatcher: one arm per command, each one direct call of its meaning. -/

namespace Sys2Proof.Machine

/-- The effect of a command on everything but the queue of waiting commands. -/
def exec (i : Instr) (s : State) : Host.Outcome State Fault Refusal :=
  match i with
  | .tick inp => Sys2Proof.Machine.execTick inp s
  | .seedPeriod => Sys2Proof.Machine.execSeedPeriod s
  | .zclkMeasure khz => Sys2Proof.Machine.execZclkMeasure khz s
  | .zclkChange khz => Sys2Proof.Machine.execZclkChange khz s
  | .coreClockRestart bank pos restart => Sys2Proof.Machine.execCoreClockRestart bank pos restart s
  | .launchArm p => Sys2Proof.Machine.execLaunchArm p s
  | .launchCancel p entry => Sys2Proof.Machine.execLaunchCancel p entry s
  | .gstop => Sys2Proof.Machine.execGstop s
  | .stopCaptureDone bank reads => Sys2Proof.Machine.execStopCaptureDone bank reads s
  | .gresume => Sys2Proof.Machine.execGresume s
  | .sigcap => Sys2Proof.Machine.execSigcap s
  | .ctrsnap => Sys2Proof.Machine.execCtrsnap s
  | .timeSnap p zc => Sys2Proof.Machine.execTimeSnap p zc s
  | .seedRead p => Sys2Proof.Machine.execSeedRead p s
  | .commandTap bank pos cmd => Sys2Proof.Machine.execCommandTap bank pos cmd s
  | .carriedStore bank pos addr data => Sys2Proof.Machine.execCarriedStore bank pos addr data s
  | .checkWordWrite bank pos => Sys2Proof.Machine.execCheckWordWrite bank pos s
  | .carriedLoad bank pos addr data => Sys2Proof.Machine.execCarriedLoad bank pos addr data s
  | .cwOutcomeAccept => Sys2Proof.Machine.execCwOutcomeAccept s
  | .candidatePresent bank pos => Sys2Proof.Machine.execCandidatePresent bank pos s
  | .descriptorAccept bank => Sys2Proof.Machine.execDescriptorAccept bank s
  | .operandFetch bank chan => Sys2Proof.Machine.execOperandFetch bank chan s
  | .slot bank => Sys2Proof.Machine.execSlot bank s
  | .submit p bank => Sys2Proof.Machine.execSubmit p bank s
  | .verdictAccept => Sys2Proof.Machine.execVerdictAccept s
  | .endStep p bank epoch ctx => Sys2Proof.Machine.execEndStep p bank epoch ctx s
  | .levelChangeApply ctx => Sys2Proof.Machine.execLevelChangeApply ctx s
  | .create p => Sys2Proof.Machine.execCreate p s
  | .setlvl p => Sys2Proof.Machine.execSetlvl p s
  | .teardown p => Sys2Proof.Machine.execTeardown p s
  | .drainComplete ctx => Sys2Proof.Machine.execDrainComplete ctx s
  | .coolingExpire ctx => Sys2Proof.Machine.execCoolingExpire ctx s
  | .epochCounted ctx epoch => Sys2Proof.Machine.execEpochCounted ctx epoch s
  | .epochSettle ctx => Sys2Proof.Machine.execEpochSettle ctx s
  | .tokenEmit => Sys2Proof.Machine.execTokenEmit s
  | .swIssue ctx => Sys2Proof.Machine.execSwIssue ctx s
  | .nochkTransfer ctx epoch8 => Sys2Proof.Machine.execNochkTransfer ctx epoch8 s
  | .provisionalNotice peer tag link => Sys2Proof.Machine.execProvisionalNotice peer tag link s
  | .helloReceive link msg now => Sys2Proof.Machine.execHelloReceive link msg now s
  | .commitReceive link msg => Sys2Proof.Machine.execCommitReceive link msg s
  | .retractReceive link msg => Sys2Proof.Machine.execRetractReceive link msg s
  | .exposeReceive link msg => Sys2Proof.Machine.execExposeReceive link msg s
  | .periodicHello => Sys2Proof.Machine.execPeriodicHello s
  | .linkTrained link width => Sys2Proof.Machine.execLinkTrained link width s
  | .linkDown link => Sys2Proof.Machine.execLinkDown link s
  | .peerIdValid id => Sys2Proof.Machine.execPeerIdValid id s
  | .tokenRefresh => Sys2Proof.Machine.execTokenRefresh s
  | .entryExpire peer ctx incarn epoch8 => Sys2Proof.Machine.execEntryExpire peer ctx incarn epoch8 s
  | .replayWaitExpire ctx step => Sys2Proof.Machine.execReplayWaitExpire ctx step s
  | .resume p => Sys2Proof.Machine.execResume p s
  | .ccAnswerDone p bank ticket => Sys2Proof.Machine.execCcAnswerDone p bank ticket s
  | .ccAnswerNofit p bank ticket => Sys2Proof.Machine.execCcAnswerNofit p bank ticket s
  | .testDue u => Sys2Proof.Machine.execTestDue u s
  | .graceExpire u => Sys2Proof.Machine.execGraceExpire u s
  | .hazeClearAge u => Sys2Proof.Machine.execHazeClearAge u s
  | .dawnAgeQualify u => Sys2Proof.Machine.execDawnAgeQualify u s
  | .ceWindowRestart => Sys2Proof.Machine.execCeWindowRestart s
  | .testLaunch bank pos => Sys2Proof.Machine.execTestLaunch bank pos s
  | .stashSaveDone bank pos => Sys2Proof.Machine.execStashSaveDone bank pos s
  | .testDone bank pos ended => Sys2Proof.Machine.execTestDone bank pos ended s
  | .testLimit bank pos => Sys2Proof.Machine.execTestLimit bank pos s
  | .restoreDone bank pos upsetsA upsetsB => Sys2Proof.Machine.execRestoreDone bank pos upsetsA upsetsB s
  | .remapApply bank logical => Sys2Proof.Machine.execRemapApply bank logical s
  | .take p bank => Sys2Proof.Machine.execTake p bank s
  | .testReqStart p => Sys2Proof.Machine.execTestReqStart p s
  | .testReqCancel p => Sys2Proof.Machine.execTestReqCancel p s
  | .onDemandExpire => Sys2Proof.Machine.execOnDemandExpire s
  | .uhtRead p => Sys2Proof.Machine.execUhtRead p s
  | .uhtSet p => Sys2Proof.Machine.execUhtSet p s
  | .install p => Sys2Proof.Machine.execInstall p s
  | .packageCheckDone => Sys2Proof.Machine.execPackageCheckDone s
  | .rebcast p => Sys2Proof.Machine.execRebcast p s
  | .patSlotWriteDone ok => Sys2Proof.Machine.execPatSlotWriteDone ok s
  | .packetReceive bank pos packet => Sys2Proof.Machine.execPacketReceive bank pos packet s
  | .imageCheckDone bank pos => Sys2Proof.Machine.execImageCheckDone bank pos s
  | .broadcastTailEnd bank => Sys2Proof.Machine.execBroadcastTailEnd bank s
  | .lateRepair bank pos => Sys2Proof.Machine.execLateRepair bank pos s
  | .retryRound => Sys2Proof.Machine.execRetryRound s
  | .shutdown p => Sys2Proof.Machine.execShutdown p s
  | .sdCancel p => Sys2Proof.Machine.execSdCancel p s
  | .quiesceEnd => Sys2Proof.Machine.execQuiesceEnd s
  | .quiesceLimit => Sys2Proof.Machine.execQuiesceLimit s
  | .checkpointEnd ok => Sys2Proof.Machine.execCheckpointEnd ok s
  | .arrayTestEnd failures => Sys2Proof.Machine.execArrayTestEnd failures s
  | .coreTestGroupEnd bank => Sys2Proof.Machine.execCoreTestGroupEnd bank s
  | .fuseEntryDone bank ok => Sys2Proof.Machine.execFuseEntryDone bank ok s
  | .certDone ok => Sys2Proof.Machine.execCertDone ok s
  | .sdLimitExpire => Sys2Proof.Machine.execSdLimitExpire s
  | .thermalUpdate => Sys2Proof.Machine.execThermalUpdate s
  | .stopFramesExpire => Sys2Proof.Machine.execStopFramesExpire s
  | .hangDetect ctx => Sys2Proof.Machine.execHangDetect ctx s
  | .captureEnd incident reads => Sys2Proof.Machine.execCaptureEnd incident reads s
  | .recover p => Sys2Proof.Machine.execRecover p s
  | .rcDone ticket => Sys2Proof.Machine.execRcDone ticket s
  | .rcFail ticket => Sys2Proof.Machine.execRcFail ticket s
  | .recovLimitExpire ticket => Sys2Proof.Machine.execRecovLimitExpire ticket s
  | .suppressionEnd incident => Sys2Proof.Machine.execSuppressionEnd incident s
  | .anvReset p bank => Sys2Proof.Machine.execAnvReset p bank s
  | .anvilNoProgress bank => Sys2Proof.Machine.execAnvilNoProgress bank s
  | .anvilResetDone bank pass => Sys2Proof.Machine.execAnvilResetDone bank pass s
  | .anvRstLimitExpire bank => Sys2Proof.Machine.execAnvRstLimitExpire bank s
  | .bankReset p bank => Sys2Proof.Machine.execBankReset p bank s
  | .bankSummaryMissing bank => Sys2Proof.Machine.execBankSummaryMissing bank s
  | .bankResetEnd bank => Sys2Proof.Machine.execBankResetEnd bank s
  | .bankRstLimitExpire bank => Sys2Proof.Machine.execBankRstLimitExpire bank s
  | .kick p => Sys2Proof.Machine.execKick p s
  | .watchdogExpire => Sys2Proof.Machine.execWatchdogExpire s
  | .bankRecordAccept bank zc => Sys2Proof.Machine.execBankRecordAccept bank zc s
  | .journalAppend zc => Sys2Proof.Machine.execJournalAppend zc s
  | .journalEntryDurable => Sys2Proof.Machine.execJournalEntryDurable s
  | .sectorErase => Sys2Proof.Machine.execSectorErase s
  | .agesCheckpoint => Sys2Proof.Machine.execAgesCheckpoint s
  | .recRdWrite p bank value => Sys2Proof.Machine.execRecRdWrite p bank value s
  | .recFreeze p bank value => Sys2Proof.Machine.execRecFreeze p bank value s
  | .recFreezeExpire bank => Sys2Proof.Machine.execRecFreezeExpire bank s
  | .wsRecFreeze p bank pos value => Sys2Proof.Machine.execWsRecFreeze p bank pos value s
  | .wsRecFreezeExpire bank pos => Sys2Proof.Machine.execWsRecFreezeExpire bank pos s
  | .recClrArm p zc => Sys2Proof.Machine.execRecClrArm p zc s
  | .recClrClear p zc => Sys2Proof.Machine.execRecClrClear p zc s
  | .recW0Read p bank => Sys2Proof.Machine.execRecW0Read p bank s
  | .recW7Read p bank => Sys2Proof.Machine.execRecW7Read p bank s
  | .jnlSeqSnap p => Sys2Proof.Machine.execJnlSeqSnap p s
  | .counterSample stream bank => Sys2Proof.Machine.execCounterSample stream bank s
  | .syncWaitEnd bank pos clocks target zc => Sys2Proof.Machine.execSyncWaitEnd bank pos clocks target zc s
  | .commandOffer bank tag => Sys2Proof.Machine.execCommandOffer bank tag s
  | .contextHalted ctx => Sys2Proof.Machine.execContextHalted ctx s
  | .continueHit p ctx => Sys2Proof.Machine.execContinueHit p ctx s
  | .continueAll p => Sys2Proof.Machine.execContinueAll p s
  | .dumpArm p entry => Sys2Proof.Machine.execDumpArm p entry s
  | .dumpCancel p entry => Sys2Proof.Machine.execDumpCancel p entry s
  | .dumpCopyDone entry => Sys2Proof.Machine.execDumpCopyDone entry s
  | .graph p => Sys2Proof.Machine.execGraph p s
  | .graphDone => Sys2Proof.Machine.execGraphDone s
  | .counterRead p bank pos => Sys2Proof.Machine.execCounterRead p bank pos s
  | .extremeRead p bank pos => Sys2Proof.Machine.execExtremeRead p bank pos s
  | .drbgReseed healthy => Sys2Proof.Machine.execDrbgReseed healthy s
  | .exportCmd p => Sys2Proof.Machine.execExportCmd p s
  | .importApply => Sys2Proof.Machine.execImportApply s
  | .vglitch => Sys2Proof.Machine.execVglitch s
  | .cglitch => Sys2Proof.Machine.execCglitch s
  | .tamper => Sys2Proof.Machine.execTamper s
  | .debugChallenge => Sys2Proof.Machine.execDebugChallenge s
  | .debugUnlock signature => Sys2Proof.Machine.execDebugUnlock signature s
  | .entdaa addr => Sys2Proof.Machine.execEntdaa addr s
  | .setdasa addr => Sys2Proof.Machine.execSetdasa addr s
  | .setEndpointId eid => Sys2Proof.Machine.execSetEndpointId eid s
  | .getEndpointId => Sys2Proof.Machine.execGetEndpointId s
  | .getMctpVersionSupport => Sys2Proof.Machine.execGetMctpVersionSupport s
  | .getMessageTypeSupport => Sys2Proof.Machine.execGetMessageTypeSupport s
  | .getVendorDefinedMessageSupport => Sys2Proof.Machine.execGetVendorDefinedMessageSupport s
  | .getId seq => Sys2Proof.Machine.execGetId seq s
  | .sessionOpen seq pubKey nonce signature => Sys2Proof.Machine.execSessionOpen seq pubKey nonce signature s
  | .sessionClose h => Sys2Proof.Machine.execSessionClose h s
  | .sessionTimeout => Sys2Proof.Machine.execSessionTimeout s
  | .noticeAck h ackSeq => Sys2Proof.Machine.execNoticeAck h ackSeq s
  | .noticeReoffer => Sys2Proof.Machine.execNoticeReoffer s
  | .regRead h space addr => Sys2Proof.Machine.execRegRead h space addr s
  | .regWrite h space addr value => Sys2Proof.Machine.execRegWrite h space addr value s
  | .unitSet h u state reason => Sys2Proof.Machine.execUnitSet h u state reason s
  | .testReq h sel count => Sys2Proof.Machine.execTestReq h sel count s
  | .patFragment h offset data => Sys2Proof.Machine.execPatFragment h offset data s
  | .patCommit h length => Sys2Proof.Machine.execPatCommit h length s
  | .afsinShutdown h => Sys2Proof.Machine.execAfsinShutdown h s
  | .recClear h bank => Sys2Proof.Machine.execRecClear h bank s
  | .afsinExport h => Sys2Proof.Machine.execAfsinExport h s
  | .importFragment h offset data => Sys2Proof.Machine.execImportFragment h offset data s
  | .importCommit h length => Sys2Proof.Machine.execImportCommit h length s
  | .format h => Sys2Proof.Machine.execFormat h s
  | .alarmClear h => Sys2Proof.Machine.execAlarmClear h s
  | .odtResetRelease => Sys2Proof.Machine.execOdtResetRelease s
  | .startSelftestDone failures module => Sys2Proof.Machine.execStartSelftestDone failures module s
  | .imageReadDone image => Sys2Proof.Machine.execImageReadDone image s
  | .journalReplayDone bad readError => Sys2Proof.Machine.execJournalReplayDone bad readError s
  | .hostCoresUp => Sys2Proof.Machine.execHostCoresUp s
  | .hostwaitExpire => Sys2Proof.Machine.execHostwaitExpire s
  | .startupTestsDone => Sys2Proof.Machine.execStartupTestsDone s
  | .pageDecodeDone page => Sys2Proof.Machine.execPageDecodeDone page s
  | .patrol => Sys2Proof.Machine.execPatrol s
  | .patrolNow p => Sys2Proof.Machine.execPatrolNow p s
  | .hostMemoryReport ue consumed scrub loc => Sys2Proof.Machine.execHostMemoryReport ue consumed scrub loc s
  | .hmrDropCount n => Sys2Proof.Machine.execHmrDropCount n s
  | .scrubStart p => Sys2Proof.Machine.execScrubStart p s
  | .scrubCancel p => Sys2Proof.Machine.execScrubCancel p s
  | .scrubDone => Sys2Proof.Machine.execScrubDone s
  | .registerWrite p offset value byteEnables => Sys2Proof.Machine.execRegisterWrite p offset value byteEnables s
  | .indDataRead p => Sys2Proof.Machine.execIndDataRead p s
  | .indDataWrite p value => Sys2Proof.Machine.execIndDataWrite p value s
  | .bitAliasWrite bank addr value => Sys2Proof.Machine.execBitAliasWrite bank addr value s
  | .accumulatorRead p => Sys2Proof.Machine.execAccumulatorRead p s
  | .mailboxLastRead p offset => Sys2Proof.Machine.execMailboxLastRead p offset s
  | .hostCoreReset bank pos => Sys2Proof.Machine.execHostCoreReset bank pos s
  | .coreSupplyLoss bank pos => Sys2Proof.Machine.execCoreSupplyLoss bank pos s
  | .parkRequest bank pos => Sys2Proof.Machine.execParkRequest bank pos s
  | .parkRelease bank pos => Sys2Proof.Machine.execParkRelease bank pos s
  | .odtResetAssert => Sys2Proof.Machine.execOdtResetAssert s
  | .odtPwrOkFall => Sys2Proof.Machine.execOdtPwrOkFall s
  | .aonPor => Sys2Proof.Machine.execAonPor s
  | .packageSlotReadDone bytes => Sys2Proof.Machine.execPackageSlotReadDone bytes s
  | .exportDone => Sys2Proof.Machine.execExportDone s

end Sys2Proof.Machine
end

