-- ==== Sys2Proof/WellFormed.lean ====
section
/-! DEFINITION. Which commands a port can carry: the operands whose size the manual fixes. -/

namespace Sys2Proof

/-- The pages of 4,096 data bytes of a store (R31, R458): 44 of a Bank, 2,964 of Zenith. -/
def PageStore.pages : PageStore → Nat
  | .ring _ => 16
  | .queue _ => 16
  | .operand _ => 8
  | .stager _ => 4
  | .healthTable => 512
  | .pattern => 2048
  | .steward => 256
  | .journal => 64
  | .thermal => 36
  | .horizon => 32
  | .context => 16

/-- The tick inputs: eight activity counts per Wisp (R309), thirty-two operation counters (R386), and pages that their stores have. -/
def TickIn.wf (t : TickIn) : Bool :=
  t.wisps.all (fun w => decide (w.acts.length ≤ 8) && decide (w.counts.length ≤ 32)) &&
    t.pageUpsets.all (fun x => decide (x.1.page < x.1.store.pages)) && t.pageWrites.all (fun x => decide (x.page < x.store.pages))

/-- The operands of a command have the sizes the manual gives them: a load or a store brings at most two 16-byte units (R509), a horizon
message has 32 bytes (R196), a core has eight activity counts (R309), a page lies in its store (R458). -/
def Instr.wf : Instr → Bool
  | .tick t => t.wf
  | .coreClockRestart _ _ r => decide (r.last.acts.length ≤ 8)
  | .carriedStore _ _ _ data => decide (data.length ≤ 32)
  | .carriedLoad _ _ _ data => decide (data.length ≤ 32)
  | .helloReceive _ msg _ => decide (msg.length = 32)
  | .commitReceive _ msg => decide (msg.length = 32)
  | .retractReceive _ msg => decide (msg.length = 32)
  | .exposeReceive _ msg => decide (msg.length = 32)
  | .pageDecodeDone r => decide (r.page < r.store.pages)
  | _ => true

end Sys2Proof
end

