-- ==== Sys2Proof/Safety.lean ====
section
/-! DEFINITION. The terms in which claims are stated: what two states of the part share, what a command leaves alone, when
a register command is accepted, and the canonical form of host memory. -/

namespace Sys2Proof.Machine

/-! ## What a command leaves alone -/

/-- The pieces of the part that a frame names. `reg off` is one register of the Zenith window and `regs` all of them; `port` is
the rest of the register interface (the path copies, the word last read, the REG_REJECT limiter); the always-on slice is `fuses`,
`floor`, `alarm` (level and sources) and `aon`, the rest; the timebase is `frame` (with whether a tick has come), `stop` (whether a
global stop is in force) and `clock`, the rest. -/
inductive Part where
  | frame
  | stop
  | clock
  | reg (off : Nat)
  | regs
  | port
  | ctxs
  | hz
  | health
  | banks
  | wisps
  | thm
  | pat
  | sd
  | hang
  | jnl
  | dbg
  | fuses
  | floor
  | alarm
  | aon
  | ledger
  | afsin
  | alarms
  | cfg
  | start
  | prot
  | pins
  | draws
  deriving DecidableEq, Repr

/-- `b` holds in that piece what `a` holds. -/
def Dev.agree (a b : Dev) : Part → Prop
  | .frame => b.clock.frame = a.clock.frame ∧ b.clock.ticked = a.clock.ticked
  | .stop => b.clock.stopped = a.clock.stopped
  | .clock => { b.clock with frame := 0, ticked := false, stopped := false } =
              { a.clock with frame := 0, ticked := false, stopped := false }
  | .reg off => b.zreg off = a.zreg off
  | .regs => b.regs.zn = a.regs.zn
  | .port => { b.regs with zn := [] } = { a.regs with zn := [] }
  | .ctxs => b.ctxs = a.ctxs
  | .hz => b.hz = a.hz
  | .health => b.health = a.health
  | .banks => b.banks = a.banks
  | .wisps => b.wisps = a.wisps
  | .thm => b.thm = a.thm
  | .pat => b.pat = a.pat
  | .sd => b.sd = a.sd
  | .hang => b.hang = a.hang
  | .jnl => b.jnl = a.jnl
  | .dbg => b.dbg = a.dbg
  | .fuses => b.aon.fuses = a.aon.fuses
  | .floor => b.aon.floor = a.aon.floor
  | .alarm => b.aon.alarmLevel = a.aon.alarmLevel ∧ b.aon.raised = a.aon.raised
  | .aon => { b.aon with fuses := [], floor := 0, alarmLevel := 0, raised := 0 } =
            { a.aon with fuses := [], floor := 0, alarmLevel := 0, raised := 0 }
  | .ledger => b.ledger = a.ledger
  | .afsin => b.afsin = a.afsin
  | .alarms => b.alarms = a.alarms
  | .cfg => b.cfg = a.cfg
  | .start => b.start = a.start
  | .prot => b.prot = a.prot
  | .pins => b.pins = a.pins
  | .draws => b.draws = a.draws

/-- The piece is a register, or all of them. -/
def Part.isReg : Part → Bool
  | .reg _ => true
  | .regs => true
  | _ => false

/-- A list of pieces takes in a piece: `regs` takes in every register, and a list that takes in any register takes in `regs`. -/
def covers (l : List Part) : Part → Bool
  | .reg off => l.contains (.reg off) || l.contains .regs
  | .regs => l.any Part.isReg
  | f => l.contains f

/-- `b` differs from `a` at most in the pieces listed. -/
def Dev.SameBut (l : List Part) (a b : Dev) : Prop := ∀ f, covers l f = false → Dev.agree a b f

/-- The registers of the Zenith window read alike but for those at the offsets listed. -/
def Dev.RegsBut (l : List Nat) (a b : Dev) : Prop := ∀ off, off ∉ l → b.zreg off = a.zreg off

/-- The waiting commands and host memory are as before, and the part differs at most in the pieces listed. -/
def State.SameBut (l : List Part) (s t : State) : Prop :=
  t.pending = s.pending ∧ t.mem = s.mem ∧ Dev.SameBut l s.dev t.dev

/-! ## Host memory -/

/-- One byte of host memory. -/
def HostMem.byte (m : HostMem) (a : Nat) : Byte := Tbl.get 0 m.bytes a

/-- The canonical form of host memory: keys rising, no entry equal to what an unlisted one reads as (log entry 10), bytes below
2^48 and slots of 4 KiB blocks below 2^36. -/
def HostMem.wf (m : HostMem) : Bool :=
  Tbl.wf 0 m.bytes && Tbl.wf 0 m.slots && m.bytes.all (fun e => decide (e.1 < 2 ^ 48)) && m.slots.all (fun e => decide (e.1 < 2 ^ 36))

/-! ## When a register command is accepted -/

/-- A CMD write to a Zenith register is accepted: Odtil runs, the path is no control core's, and R481 refuses nothing. -/
def Dev.takesZ (d : Dev) (p : Path) (off : Nat) (v : Word) : Prop :=
  d.off = false ∧ pathCc p = false ∧ d.refuse p (.zn off) v = none

/-- A CMD write to a register of a Bank or a Wisp is accepted: over the Bank's own control-core port, or through the indirect window
of another path (R491, R494). -/
def Dev.takesAt (d : Dev) (p : Path) (t : Target) (v : Word) : Prop :=
  d.off = false ∧ d.refuse p t v = none ∧ d.reach t false ≠ 2 ∧ d.inReset t = false ∧
    (if pathCc p then ownBank p t = true else d.reach t false ≠ 3)

/-- A read of a register of a Bank or a Wisp reaches it: the port answers, and neither row 4 of R481 nor the target's state refuses it
(R491, R494, R504). -/
def Dev.readsAt (d : Dev) (p : Path) (t : Target) : Prop :=
  d.readClamped p = false ∧ t.row.isSome = true ∧
    (if pathCc p then ownBank p t = true ∧ d.reach t false ≠ 2 else d.privReadOk p t = true ∧ d.reach t false = 0)

/-! ## Afsin requests that carry AUTH (R429, R430) -/

/-- The header, the message code and the body of a request that must carry AUTH. -/
def afsRequest : Instr → Option (AfsHead × Nat × List Byte)
  | .sessionClose h => some (h, 0x42, [])
  | .noticeAck h ack => some (h, 0x43, leBytes 4 ack.toNat)
  | .regRead h space addr => some (h, 0x44, regBody space addr 0)
  | .regWrite h space addr value => some (h, 0x45, regBody space addr value)
  | .unitSet h u st reason => some (h, 0x46, leBytes 4 u.val ++ [st.setWidth 8, reason])
  | .testReq h sel count => some (h, 0x47, leBytes 4 sel.toNat ++ leBytes 4 count.toNat)
  | .patFragment h off data => some (h, 0x48, fragBody off data)
  | .patCommit h len => some (h, 0x49, leBytes 4 len.toNat)
  | .afsinShutdown h => some (h, 0x4A, [])
  | .recClear h bank => some (h, 0x4B, [bank])
  | .afsinExport h => some (h, 0x4C, [])
  | .importFragment h off data => some (h, 0x4D, fragBody off data)
  | .importCommit h len => some (h, 0x4E, leBytes 4 len.toNat)
  | .format h => some (h, 0x4F, [])
  | .alarmClear h => some (h, 0x50, [])
  | _ => none

/-- A request may act: Odtil answers messages, a session is open, the tag is the message's and SEQ is above the last (R429, R431). -/
def Dev.takesReq (d : Dev) (h : AfsHead) (code : Nat) (body : List Byte) : Prop :=
  d.afsOn = true ∧ d.examine h code body = 0

end Sys2Proof.Machine
end

