-- ==== Sys2Proof/Certificates/Slice0/Obligations.lean ====
section
/-! DEFINITION. The statements for the provers, each about every state and every operand that meets its hypotheses. Where a
docstring names a log entry, the clause it speaks of is the model's choice and no rule of the spec. -/

open Sys2Proof Sys2Proof.Machine

/-! ## The machine as a whole -/

/-- A step runs the command at the front of the queue on the state whose queue is the rest. That an empty queue idles is the model's
choice (log entry 1). -/
def Obligations.StepRunsFrontCommand : Prop :=
  (∀ (c : Instr) (rest : List Instr) (s : State), step { s with pending := c :: rest } = exec c { s with pending := rest }) ∧
  (∀ s : State, s.pending = [] → step s = .next s)

/-- The state right after reset. The empty queue and empty host memory are the model's (log entries 1 and 10).
The model's readings in it: log entries 8, 9, 11, 12, 13 and 14. -/
def Obligations.ResetState : Prop :=
  State.reset.pending = [] ∧ State.reset.mem.wf = true ∧
  State.reset.dev.clock.ticked = false ∧ State.reset.dev.clock.stopped = false ∧ State.reset.dev.clock.launch = [] ∧
  (State.reset.dev.ctx 0).core.state = .active ∧ (State.reset.dev.ctx 0).core.level = 0 ∧
  (∀ c : Nat, c ≠ 0 → (State.reset.dev.ctx c).core.state = .free) ∧
  State.reset.dev.zreg Reg.ZN_LVL_BUDGET = 24 ∧ State.reset.dev.zreg Reg.ZN_HZ_TIMEOUT = 0x10000 ∧
  State.reset.dev.zreg Reg.ZN_HZ_REPLAY_WAIT = 0x4000 ∧ State.reset.dev.zreg Reg.ZN_ANV_RST_LIMIT = 0x1000 ∧
  State.reset.dev.zreg Reg.ZN_BANK_RST_LIMIT = 0x4000 ∧ State.reset.dev.zreg Reg.ZN_WDOG = 0x40000 ∧
  State.reset.dev.zreg Reg.ZN_ZCLK_KHZ = 0 ∧ State.reset.dev.zreg Reg.ZN_STOP_LOST = 0

/-- No command touches the queue. -/
def Obligations.CommandsKeepTheQueue : Prop :=
  (∀ (c : Instr) (s t : State), exec c s = .next t → t.pending = s.pending) ∧
  (∀ (c : Instr) (rest : List Instr) (s t : State), s.pending = c :: rest → step s = .next t → t.pending = rest)

/-- No well-formed command ends a run; the only faults are those of commands that no port can carry (log entry 2). -/
def Obligations.WellFormedCommandsRun : Prop :=
  (∀ (c : Instr) (s : State), c.wf = true → ∃ t, exec c s = .next t) ∧
  (∀ (c : Instr) (s : State) (r : Refusal), exec c s ≠ .refused r) ∧
  (∀ (c : Instr) (s : State) (f : Fault), exec c s = .fault f →
    (∃ b p a l, c = .carriedStore b p a l ∧ 32 < l.length ∧ f = .illFormed "CARRIED_STORE") ∨
    (∃ b p a l, c = .carriedLoad b p a l ∧ 32 < l.length ∧ f = .illFormed "CARRIED_LOAD"))

/-- From every state whose host memory is in its canonical form, a step leaves it in it. -/
def Obligations.MemoryStaysCanonical : Prop :=
  ∀ s t : State, s.mem.wf = true → step s = .next t → t.mem.wf = true

/-- The fuses are written once and FLOOR is monotone, over every command and every reset. -/
def Obligations.FusesAndFloorOnlyGrow : Prop :=
  (∀ (c : Instr) (s t : State) (b : Nat), exec c s = .next t →
    (Tbl.get (0, []) s.dev.aon.fuses b).1 ≤ (Tbl.get (0, []) t.dev.aon.fuses b).1 ∧
    (Tbl.get (0, []) s.dev.aon.fuses b).2 <+: (Tbl.get (0, []) t.dev.aon.fuses b).2) ∧
  (∀ (c : Instr) (s t : State), exec c s = .next t → (∀ b ok, c ≠ .fuseEntryDone b ok) → t.dev.aon.fuses = s.dev.aon.fuses) ∧
  (∀ (c : Instr) (s t : State), exec c s = .next t → s.dev.aon.floor.toNat ≤ t.dev.aon.floor.toNat) ∧
  (∀ (c : Instr) (s t : State), exec c s = .next t → (∀ ok, c ≠ .patSlotWriteDone ok) → t.dev.aon.floor = s.dev.aon.floor)

/-- Every command but these two leaves the alarm level at least as high as it was. The model's readings in it: log entry 155. -/
def Obligations.AlarmLevelFallsOnlyByClear : Prop :=
  ∀ (c : Instr) (s t : State), exec c s = .next t → (∀ h, c ≠ .alarmClear h) → c ≠ .aonPor →
    s.dev.aon.alarmLevel ≤ t.dev.aon.alarmLevel

/-- A ZCLK change, a launch and every register command leave the frame number and the stop alone. -/
def Obligations.FrameAndStopMoveOnlyByTheirCommands : Prop :=
  (∀ (c : Instr) (s t : State), exec c s = .next t → (∀ inp, c ≠ .tick inp) → c ≠ .odtResetRelease → c ≠ .odtResetAssert →
    c ≠ .odtPwrOkFall → c ≠ .aonPor → t.dev.clock.frame = s.dev.clock.frame ∧ t.dev.clock.ticked = s.dev.clock.ticked) ∧
  (∀ (c : Instr) (s t : State), exec c s = .next t →
    (s.dev.clock.stopped = false → t.dev.clock.stopped = true → c = .gstop) ∧
    (s.dev.clock.stopped = true → t.dev.clock.stopped = false →
      c = .gresume ∨ c = .odtResetRelease ∨ c = .odtResetAssert ∨ c = .odtPwrOkFall ∨ c = .aonPor))

/-! ## Frame and time -/

/-- TICK completes wherever Zenith is not held; held, it makes no tick (R504). A header that arrives unharmed gives a Bank what Zenith put
into it. The model's readings in it: log entries 7, 33, 34 and 174. -/
def Obligations.TickBeginsFrame : Prop :=
  (∀ (inp : TickIn) (s : State), s.dev.off = false →
    ∃ t, exec (.tick inp) s = .next t ∧ t.pending = s.pending ∧ t.dev.clock.ticked = true ∧
      t.dev.clock.frame = (if s.dev.clock.ticked then (s.dev.clock.frame + 1) % 2 ^ 53 else 0) ∧
      Dev.SameBut [.frame, .clock, .regs, .ctxs, .hz, .health, .banks, .wisps, .thm, .pat, .sd, .hang, .jnl, .dbg, .alarm, .aon,
        .ledger, .afsin, .alarms, .start, .prot, .pins, .draws] s.dev t.dev) ∧
  (∀ (inp : TickIn) (s : State), s.dev.off = true → exec (.tick inp) s = .next s) ∧
  (∀ d : Dev, d.clock.frame < 2 ^ 53 →
    d.header.length = 8 ∧ readHeader (BitVec.ofNat 256 (leWordNat d.header)) = some (d.clock.frame, d.seed.getD 0)) ∧
  (∀ (d : Dev) (e : Launch), e ∈ d.clock.now → 1 ≤ e.action → e.action ≤ 15 → (d.header.getD 4 0).getLsbD (e.action - 1) = true) ∧
  (∀ (d : Dev) (k : Nat) (e : Launch), (k, e) ∈ d.clock.launch → e.frame = d.clock.frame + 1 → 1 ≤ e.action → e.action ≤ 15 →
    (d.header.getD 4 0).getLsbD (15 + e.action) = true)

/-- SEED_PERIOD, whose key is the next draw of the DRBG, a free value; SEED_READ where the write is accepted, P the period of frame F; TIME_SNAP,
ZCLK_MEASURE and ZCLK_CHANGE. The model's readings in it: log entries 11, 26 and 141. -/
def Obligations.ClockAndSeedCommands : Prop :=
  (∀ s : State, ∃ t, exec .seedPeriod s = .next t ∧
    (Tbl.find t.dev.clock.seedKeys (s.dev.clock.frame / 65536)).isSome = true ∧
    ((Tbl.find s.dev.clock.seedKeys (s.dev.clock.frame / 65536)).isSome = true → t = s) ∧
    (Tbl.find s.dev.clock.seedKeys (s.dev.clock.frame / 65536) = none →
      Tbl.find t.dev.clock.seedKeys (s.dev.clock.frame / 65536) = some ((Config.drbg s.dev.draws).setWidth 256) ∧
      t.dev.draws = s.dev.draws + 1 ∧
      ∀ q : Nat, q ≠ s.dev.clock.frame / 65536 →
        Tbl.find t.dev.clock.seedKeys q = if s.dev.clock.frame / 65536 < q + 1024 then Tbl.find s.dev.clock.seedKeys q else none) ∧
    State.SameBut [.clock, .draws] s t) ∧
  (∀ (p : Path) (s : State), s.dev.takesZ p Reg.ZN_SEED_CMD 1 → ∀ F P : Nat,
    F = s.dev.zf Reg.ZN_SEED_FRAME_LO 31 0 + 2 ^ 32 * s.dev.zf Reg.ZN_SEED_FRAME_HI 20 0 → P = F / 65536 →
    ∃ t, exec (.seedRead p) s = .next t ∧
      (s.dev.clock.frame < (P + 1) * 65536 + 65535 →
        t.dev.zf Reg.ZN_SEED_MB_STAT 3 1 = 2 ∧ (t.dev.path p).seed.valid = false) ∧
      ((P + 1) * 65536 + 65535 ≤ s.dev.clock.frame → P ∈ s.dev.clock.seedLost →
        t.dev.zf Reg.ZN_SEED_MB_STAT 3 1 = 4 ∧ (t.dev.path p).seed.valid = false) ∧
      ((P + 1) * 65536 + 65535 ≤ s.dev.clock.frame → P ∉ s.dev.clock.seedLost → Tbl.find s.dev.clock.seedKeys P = none →
        t.dev.zf Reg.ZN_SEED_MB_STAT 3 1 = 3 ∧ (t.dev.path p).seed.valid = false) ∧
      (∀ k, (P + 1) * 65536 + 65535 ≤ s.dev.clock.frame → P ∉ s.dev.clock.seedLost → Tbl.find s.dev.clock.seedKeys P = some k →
        t.dev.zf Reg.ZN_SEED_MB_STAT 3 1 = 1 ∧ (t.dev.path p).seed.valid = true ∧
        (t.dev.path p).seed.data = [lo32 ((Crypto.aes256 k (BitVec.ofNat 128 F)).setWidth 64),
          hi32 ((Crypto.aes256 k (BitVec.ofNat 128 F)).setWidth 64)]) ∧
      (∀ q : Path, pathNo q ≠ pathNo p → t.dev.path q = s.dev.path q) ∧
      State.SameBut [.port, .reg Reg.ZN_SEED_MB_STAT] s t) ∧
  (∀ (p : Path) (zc : Zc) (s : State), s.dev.takesZ p Reg.ZN_TIME_CMD 1 →
    ∃ t, exec (.timeSnap p zc) s = .next t ∧ (t.dev.path p).time.valid = true ∧
      (t.dev.path p).time.data = [w32 (s.dev.clock.frame * 2048 + zc.val), w32 ((s.dev.clock.frame * 2048 + zc.val) / 2 ^ 32)] ∧
      (∀ q : Path, pathNo q ≠ pathNo p → t.dev.path q = s.dev.path q) ∧ State.SameBut [.port] s t) ∧
  (∀ (khz : BitVec 21) (s : State), s.dev.clock.frame % 1024 = 0 → 1024 ≤ s.dev.clock.frame →
    s.dev.clock.measureAt ≠ s.dev.clock.frame →
    exec (.zclkMeasure khz) s = .next { s with dev := { s.dev with clock := { s.dev.clock with
      zclkKhz := khz.toNat, measureAt := s.dev.clock.frame } } }) ∧
  (∀ (khz : BitVec 21) (s : State), s.dev.clock.frame % 1024 ≠ 0 ∨ s.dev.clock.frame < 1024 →
    exec (.zclkMeasure khz) s = .next s) ∧
  (∀ (khz : BitVec 21) (s : State),
    exec (.zclkChange khz) s = .next { s with dev := { s.dev with clock := { s.dev.clock with zclkNow := khz.toNat } } })

/-- CORE_CLOCK_RESTART outside a global stop, `m` what the Wisp measured in its last frame. The model's readings in it: log entries 32, 33
and 187. -/
def Obligations.RejoinPresentsGap : Prop :=
  ∀ (bank : BankId) (pos : Pos) (mid : Bool) (m : LastFrame) (s : State) (last : Nat),
    (s.dev.wisp bank.val pos.val).missed = true → (s.dev.wisp bank.val pos.val).parked = false →
    s.dev.bankDown bank.val = false → s.dev.clock.stopped = false → (s.dev.wisp bank.val pos.val).lastRx = some last →
    last < s.dev.clock.frame →
    (last + 1 < s.dev.clock.frame ∨ mid = true ∨ (s.dev.wisp bank.val pos.val).supplyLost = true) →
    ∃ t, exec (.coreClockRestart bank pos ⟨mid, m⟩) s = .next t ∧
      (t.dev.wisp bank.val pos.val).lastRx = some s.dev.clock.frame ∧ (t.dev.wisp bank.val pos.val).missed = false ∧
      (t.dev.bank bank.val).ring.presented = (s.dev.bank bank.val).ring.presented ++
        [{ source := pos.val, frame := none, fwd := .nothing,
           ev := mkEvent 0x01 0 (w32 (last + 1))
             (w32 ((last + 1) / 2 ^ 32 % 2 ^ 21 + 2 ^ 30 * bit mid + 2 ^ 31 * bit (s.dev.wisp bank.val pos.val).supplyLost))
             (w32 (s.dev.clock.frame - last - 1)) (w32 ((s.dev.clock.frame - last - 1) / 2 ^ 32 % 2 ^ 21)) }] ∧
      (∀ b p : Nat, coreUnit b p ≠ coreUnit bank.val pos.val → t.dev.wisp b p = s.dev.wisp b p) ∧
      (∀ b : Nat, b ≠ bank.val → t.dev.bank b = s.dev.bank b) ∧ State.SameBut [.banks, .wisps] s t

/-- LAUNCH_ARM and LAUNCH_CANCEL where the write is accepted: `a` the action, `c` its context (only SIGCAP takes one), `F` the
effective frame. The model's readings in it: log entries 6, 16, 27 and 28. -/
def Obligations.LaunchTableFollowsItsRows : Prop :=
  (∀ (p : Path) (s : State), s.dev.takesZ p Reg.ZN_LAUNCH_CMD 1 → (∀ e ∈ s.dev.clock.launch, e.1 < 8) → ∀ a c T F ok : Nat,
    a = s.dev.zf Reg.ZN_LAUNCH_ACT 3 0 → c = (if a = 3 then s.dev.zf Reg.ZN_LAUNCH_ACT 13 4 else 0) →
    T = s.dev.zf Reg.ZN_LAUNCH_FRAME_LO 31 0 + 2 ^ 32 * s.dev.zf Reg.ZN_LAUNCH_FRAME_HI 20 0 →
    F = (if T < s.dev.clock.frame + 2 then s.dev.clock.frame + 2 else T) → ok = (if T < s.dev.clock.frame + 2 then 2 else 1) →
    ∃ t, exec (.launchArm p) s = .next t ∧
      (a = 0 → t.dev.zf Reg.ZN_LAUNCH_STAT 3 0 = 4 ∧ t.dev.clock.launch = s.dev.clock.launch) ∧
      (5 ≤ a → t.dev.zf Reg.ZN_LAUNCH_STAT 3 0 = 6 ∧ t.dev.clock.launch = s.dev.clock.launch) ∧
      (1 ≤ a → a ≤ 4 → (∃ e ∈ s.dev.clock.launch, e.2 = ⟨a, c, F⟩) →
        t.dev.zf Reg.ZN_LAUNCH_STAT 3 0 = ok ∧ t.dev.clock.launch = s.dev.clock.launch ∧
        (t.dev.zf Reg.ZN_LAUNCH_STAT 6 4, ⟨a, c, F⟩) ∈ s.dev.clock.launch) ∧
      (1 ≤ a → a ≤ 4 → (∀ e ∈ s.dev.clock.launch, e.2 ≠ ⟨a, c, F⟩) →
        ((a = 3 ∧ ∃ e ∈ s.dev.clock.launch, e.2.action = 3 ∧ e.2.frame = F) ∨ (∀ k < 8, (Tbl.find s.dev.clock.launch k).isSome = true)) →
        t.dev.zf Reg.ZN_LAUNCH_STAT 3 0 = 3 ∧ t.dev.clock.launch = s.dev.clock.launch) ∧
      (1 ≤ a → a ≤ 4 → (∀ e ∈ s.dev.clock.launch, e.2 ≠ ⟨a, c, F⟩) →
        (a = 3 → ∀ e ∈ s.dev.clock.launch, e.2.action = 3 → e.2.frame ≠ F) → (∃ k < 8, Tbl.find s.dev.clock.launch k = none) →
        t.dev.zf Reg.ZN_LAUNCH_STAT 3 0 = ok ∧ Tbl.find s.dev.clock.launch (t.dev.zf Reg.ZN_LAUNCH_STAT 6 4) = none ∧
        Tbl.find t.dev.clock.launch (t.dev.zf Reg.ZN_LAUNCH_STAT 6 4) = some ⟨a, c, F⟩ ∧
        (∀ k, k ≠ t.dev.zf Reg.ZN_LAUNCH_STAT 6 4 → Tbl.find t.dev.clock.launch k = Tbl.find s.dev.clock.launch k) ∧
        t.dev.zreg Reg.ZN_LAUNCH_FRAME_LO = w32 F ∧ t.dev.zreg Reg.ZN_LAUNCH_FRAME_HI = w32 (F / 2 ^ 32 % 2 ^ 21)) ∧
      State.SameBut [.clock, .reg Reg.ZN_LAUNCH_STAT, .reg Reg.ZN_LAUNCH_FRAME_LO, .reg Reg.ZN_LAUNCH_FRAME_HI] s t) ∧
  (∀ (p : Path) (entry : Fin 8) (s : State), s.dev.takesZ p Reg.ZN_LAUNCH_CMD (w32 (2 + 256 * entry.val)) →
    ∃ t, exec (.launchCancel p entry) s = .next t ∧
      (Tbl.find s.dev.clock.launch entry.val = none →
        t.dev.zf Reg.ZN_LAUNCH_STAT 3 0 = 4 ∧ t.dev.clock.launch = s.dev.clock.launch) ∧
      (∀ e, Tbl.find s.dev.clock.launch entry.val = some e → e.frame ≤ s.dev.clock.frame + 1 →
        t.dev.zf Reg.ZN_LAUNCH_STAT 3 0 = 1 ∧ t.dev.clock.launch = s.dev.clock.launch) ∧
      (∀ e, Tbl.find s.dev.clock.launch entry.val = some e → s.dev.clock.frame + 1 < e.frame →
        t.dev.zf Reg.ZN_LAUNCH_STAT 3 0 = 5 ∧
        ∀ k, Tbl.find t.dev.clock.launch k = if k = entry.val then none else Tbl.find s.dev.clock.launch k) ∧
      State.SameBut [.clock, .reg Reg.ZN_LAUNCH_STAT] s t)

/-- GSTOP, launched for this tick, after the other actions of the tick. STOP_CAPTURE_DONE, whose reads take the positions in order within 96 zc
each; the capture ring is the CAPTURE region but for the last 16 MiB. The model's readings in it: log entries 27, 29, 52 and 109. -/
def Obligations.GstopFreezesAndCaptures : Prop :=
  (∀ s : State, (∃ e ∈ s.dev.clock.now, e.action = 1) → (∀ e ∈ s.dev.clock.now, e.action ≠ 2 ∧ e.action ≠ 3 ∧ e.action ≠ 4) →
    ∃ t, exec .gstop s = .next t ∧ (∀ e ∈ t.dev.clock.now, e.action ≠ 1) ∧ t.dev.clock.stopped = true ∧
      (s.dev.clock.stopped = false →
        t.dev.clock.stopFrame = s.dev.clock.frame ∧ t.dev.zreg Reg.ZN_STOP_LOST = 0 ∧ t.dev.zf Reg.ZN_STOP_STAT 9 2 = 0 ∧
        (∀ b : Nat, b ∈ t.dev.clock.capturing ↔ b < 192 ∧ s.dev.bankDown b = false) ∧
        State.SameBut [.clock, .stop, .reg Reg.ZN_STOP_LOST, .reg Reg.ZN_STOP_STAT] s t) ∧
      (s.dev.clock.stopped = true → t.dev.clock.stopFrame = s.dev.clock.stopFrame ∧ t.dev.clock.capturing = s.dev.clock.capturing ∧
        t.dev.zf Reg.ZN_LAUNCH_STAT 3 0 = 4 ∧ State.SameBut [.clock, .reg Reg.ZN_LAUNCH_STAT] s t)) ∧
  (∀ (bank : BankId) (reads : List CapRead) (s : State), s.dev.clock.stopped = true → bank.val ∈ s.dev.clock.capturing →
    stopReads reads = true →
    ∃ t, exec (.stopCaptureDone bank reads) s = .next t ∧ t.pending = s.pending ∧
      (s.dev.zf Reg.ZN_STOP_STAT 9 2 < 192 → t.dev.zf Reg.ZN_STOP_STAT 9 2 = s.dev.zf Reg.ZN_STOP_STAT 9 2 + 1) ∧
      (∀ b : Nat, b ∈ t.dev.clock.capturing ↔ b ≠ bank.val ∧ b ∈ s.dev.clock.capturing) ∧
      (∀ a : Nat, (∀ i < s.dev.capSize, a ≠ (s.dev.capRegion.base + i) % 2 ^ 48) → t.mem.byte a = s.mem.byte a) ∧
      (∀ a : Nat, t.mem.slot a = s.mem.slot a) ∧
      Dev.SameBut [.clock, .hang, .reg Reg.ZN_HANG_CNT_CAPLOST, .reg Reg.ZN_STOP_STAT] s.dev t.dev) ∧
  (∀ (bank : BankId) (reads : List CapRead) (s : State), s.dev.clock.stopped = false ∨ bank.val ∉ s.dev.clock.capturing ∨
      stopReads reads = false →
    exec (.stopCaptureDone bank reads) s = .next s)

/-- GRESUME, SIGCAP and CTRSNAP, launched for this tick in the order of R53; a share that overflowed stays, invalid and empty (R87).
The model's readings in it: log entries 27, 28, 30, 31, 69, 110 and 163. -/
def Obligations.LaunchedActionsAct : Prop :=
  (∀ s : State, (∃ e ∈ s.dev.clock.now, e.action = 2) →
    ∃ t, exec .gresume s = .next t ∧ t.dev.clock.stopped = false ∧ t.pending = s.pending ∧ t.mem = s.mem ∧
      (s.dev.clock.stopped = true →
        t.dev.zreg Reg.ZN_LAUNCH_FRAME_LO = w32 s.dev.clock.frame ∧
        t.dev.zreg Reg.ZN_LAUNCH_FRAME_HI = w32 (s.dev.clock.frame / 2 ^ 32 % 2 ^ 21)) ∧
      (s.dev.clock.stopped = false → t.dev.zf Reg.ZN_LAUNCH_STAT 3 0 = 4 ∧ State.SameBut [.clock, .reg Reg.ZN_LAUNCH_STAT] s t) ∧
      Dev.SameBut [.afsin, .banks, .clock, .ctxs, .dbg, .health, .hz, .jnl, .pat, .regs, .stop, .wisps] s.dev t.dev) ∧
  (∀ (e : Launch) (s : State), s.dev.clock.now.find? (fun e => decide (e.action = 3)) = some e →
    (∀ e ∈ s.dev.clock.now, e.action ≠ 2) →
    ∃ t, exec .sigcap s = .next t ∧ t.pending = s.pending ∧ (∀ a : Nat, t.mem.slot a = s.mem.slot a) ∧
      ((s.dev.ctx e.ctx).gate = false → (s.dev.ctx e.ctx).hz.capWait = [] → t.mem = s.mem) ∧
      (∀ r, s.dev.cfg.regions[2]? = some r → ∀ a : Nat,
        (∀ i < 32 * (s.dev.sharesToLog e.ctx).length, a ≠ (r.base + (32 * s.dev.hz.logAt + i) % (r.size / 32 * 32)) % 2 ^ 48) →
        t.mem.byte a = s.mem.byte a) ∧
      (∀ b p : Nat, (s.dev.ctx e.ctx).hz.capWait = [] →
        ((s.dev.wisp b p).acts s.dev.clock.frame = true →
          ∀ h ∈ (t.dev.wisp b p).shares, h.ctx = e.ctx → h.replay = false → h.invalid = true ∧ h.blocks = 0 ∧ h.sum = 0) ∧
        (∀ h ∈ (s.dev.wisp b p).shares, h.ctx ≠ e.ctx ∨ h.replay = true → h ∈ (t.dev.wisp b p).shares)) ∧
      (t.dev.ctx e.ctx).hz.capStep = (s.dev.ctx e.ctx).hz.endedStep) ∧
  (∀ s : State, (∃ e ∈ s.dev.clock.now, e.action = 4) → (∀ e ∈ s.dev.clock.now, e.action ≠ 2 ∧ e.action ≠ 3) →
    s.dev.clock.stopped = false →
    ∃ t, exec .ctrsnap s = .next t ∧
      (∀ k b : Nat, k < 8 → b < 192 → s.dev.streamOn k = true → s.dev.zf (Reg.ZN_CTR_S_SIZE + 0x20 * k) 15 0 ≠ 0 →
        b ∈ s.dev.sampleBanks k → Tbl.get 0 t.dev.dbg.due (192 * k + b) = 2 * (s.dev.clock.frame + 1) + 1 ∧
          Tbl.get [] t.dev.dbg.snaps (192 * k + b) = s.dev.snapCores k b) ∧
      State.SameBut [.banks, .clock, .dbg, .regs] s t)

/-! ## Check words -/

/-- COMMAND_TAP at a Wisp that acts; a fenced core takes none (R241), nor does a core whose spare-remap entry waits to be reloaded (R465).
The model's readings in it: log entries 38, 51, 67, 70 and 177. -/
def Obligations.CommandTapLatches : Prop :=
  (∀ (bank : BankId) (pos : Pos) (cmd : Cmd) (s : State),
    s.dev.wispUp bank.val pos.val = true → s.dev.fenced bank.val pos.val = false →
    s.dev.reloading bank.val pos.val = false →
    ∃ t, exec (.commandTap bank pos cmd) s = .next t ∧ (t.dev.wisp bank.val pos.val).cmd = some cmd ∧
      (t.dev.wisp bank.val pos.val).opens = [] ∧
      (t.dev.wisp bank.val pos.val).cmdEpoch = (s.dev.ctx cmd.ctx.val).mark ∧
      ((s.dev.ctx cmd.ctx.val).gate = true →
        (t.dev.wisp bank.val pos.val).cmdEpoch = some (s.dev.ctx cmd.ctx.val).hz.epoch) ∧
      ((s.dev.ctx cmd.ctx.val).core.level < 3 → (t.dev.wisp bank.val pos.val).cmdEpoch = none) ∧
      (∀ old, (s.dev.wisp bank.val pos.val).cmd = some old → old.oper ≠ cmd.oper →
        (t.dev.wisp bank.val pos.val).loads = [] ∧
        (t.dev.wisp bank.val pos.val).beacons = (s.dev.wisp bank.val pos.val).beacons + 1 ∧
        (t.dev.ctx (s.dev.ownerAt bank.val pos.val)).hang.beacon = true) ∧
      (cmd.replay = false → s.dev.ownerAt bank.val pos.val = cmd.ctx.val → (t.dev.ctx cmd.ctx.val).core.step = cmd.step) ∧
      (cmd.replay = false → s.dev.ownerAt bank.val pos.val ≠ cmd.ctx.val → s.dev.clock.stopped = false →
        (t.dev.bank bank.val).reg Reg.BK_CTX_MISMATCH = (s.dev.bank bank.val).reg Reg.BK_CTX_MISMATCH + 1) ∧
      State.SameBut [.banks, .ctxs, .wisps, .reg Reg.ZN_STOP_LOST] s t) ∧
  (∀ (bank : BankId) (pos : Pos) (cmd : Cmd) (s : State),
    s.dev.fenced bank.val pos.val = true ∨ s.dev.reloading bank.val pos.val = true ∨ s.dev.wispUp bank.val pos.val = false →
    exec (.commandTap bank pos cmd) s = .next s)

/-- CARRIED_STORE and CHECK_WORD_WRITE. That a carried store writes host memory is the model's choice (log entry 23).
The model's readings in it: log entries 68, 72, 177 and 192. -/
def Obligations.StoresOpenBlocksAndWritesFillSlots : Prop :=
  (∀ (bank : BankId) (pos : Pos) (addr : Addr) (data : List Byte) (s : State), data.length ≤ 32 →
    ∃ t, exec (.carriedStore bank pos addr data) s = .next t ∧ t.pending = s.pending ∧
      (∀ i, i < data.length → t.mem.byte ((addr.toNat + i) % 2 ^ 48) = data.getD i 0) ∧
      (∀ a, (∀ i, i < data.length → a ≠ (addr.toNat + i) % 2 ^ 48) → t.mem.byte a = s.mem.byte a) ∧
      (∀ a, t.mem.slot a = s.mem.slot a) ∧ Dev.SameBut [.banks, .wisps, .reg Reg.ZN_STOP_LOST] s.dev t.dev) ∧
  (∀ (bank : BankId) (pos : Pos) (addr : Addr) (data : List Byte) (c : Cmd) (a i : Nat) (s : State), data.length = 16 →
    addr.toNat % 16 = 0 → (s.dev.wisp bank.val pos.val).cmd = some c → s.dev.checking bank.val pos.val = true →
    s.dev.runs bank.val pos.val = none → c.isStore = true → s.dev.carries bank.val pos.val c = true → blockAt c addr.toNat = some (a, i) → 16 < validBytes c.length.toNat i →
    (∀ x ∈ (s.dev.wisp bank.val pos.val).opens, x.blockAddr ≠ a) → (s.dev.wisp bank.val pos.val).opens.length < 8 →
    ∃ t, exec (.carriedStore bank pos addr data) s = .next t ∧
      (t.dev.wisp bank.val pos.val).opens = (s.dev.wisp bank.val pos.val).opens ++
        [{ blockAddr := a, index := i, cmd := c, epoch := (s.dev.wisp bank.val pos.val).cmdEpoch.orElse (fun _ => (s.dev.ctx c.ctx.val).mark),
           written := [((addr.toNat - a) / 16, data)], rewritten := false }]) ∧
  (∀ (bank : BankId) (pos : Pos) (x : ClosedBlk) (rest : List ClosedBlk) (s : State), s.dev.clamped = false →
    (s.dev.wisp bank.val pos.val).closed = x :: rest →
    ∃ t, exec (.checkWordWrite bank pos) s = .next t ∧ t.pending = s.pending ∧ t.mem.slot x.blockAddr = x.word ∧
      (∀ a, a / 4096 % 2 ^ 36 ≠ x.blockAddr / 4096 % 2 ^ 36 → t.mem.slot a = s.mem.slot a) ∧
      (∀ a, t.mem.byte a = s.mem.byte a) ∧ (t.dev.wisp bank.val pos.val).closed = rest ∧
      (s.dev.clock.stopped = false →
        (t.dev.wisp bank.val pos.val).reg Reg.WS_CW_GEN = (s.dev.wisp bank.val pos.val).reg Reg.WS_CW_GEN + 1) ∧
      (∀ b p : Nat, coreUnit b p ≠ coreUnit bank.val pos.val → t.dev.wisp b p = s.dev.wisp b p) ∧
      Dev.SameBut [.wisps] s.dev t.dev) ∧
  (∀ (bank : BankId) (pos : Pos) (s : State), (s.dev.wisp bank.val pos.val).closed = [] →
    exec (.checkWordWrite bank pos) s = .next s)

/-- CARRIED_LOAD of one whole unit outside a stop: `w` is the word in the block's slot. Where none of the five rows fails and the CRC
engine has room, it takes the block. A load of a block that is open in this Wisp is not verified, and its unit counts as skipped (R85). The model's readings in it: log entries 71, 72, 177, 178 and 191. -/
def Obligations.CarriedLoadChecksTheWord : Prop :=
  (∀ (bank : BankId) (pos : Pos) (addr : Addr) (data : List Byte) (c : Cmd) (a i : Nat) (w : DWord) (s : State), data.length = 16 →
    addr.toNat % 16 = 0 → (s.dev.wisp bank.val pos.val).cmd = some c → s.dev.checking bank.val pos.val = true → c.isStore = false →
    s.dev.runs bank.val pos.val = none → s.dev.carries bank.val pos.val c = true → s.dev.clock.stopped = false → blockAt c addr.toNat = some (a, i) →
    16 < validBytes c.length.toNat i → w = s.mem.slot a →
    bitOf ((s.dev.wisp bank.val pos.val).reg Reg.WS_CW_CTL) 1 = true →
    (∀ x ∈ (s.dev.wisp bank.val pos.val).opens, x.blockAddr ≠ a) → (∀ x ∈ (s.dev.wisp bank.val pos.val).loads, x.blockAddr ≠ a) →
    ∃ t, exec (.carriedLoad bank pos addr data) s = .next t ∧ t.pending = s.pending ∧ t.mem = s.mem ∧
      (∀ code : Nat,
        (w = 0 ∧ code = 0x10) ∨ (w ≠ 0 ∧ wordMalformed w = true ∧ code = 0x11) ∨
        (w ≠ 0 ∧ wordMalformed w = false ∧ wordTag w ≠ blockTag c.handle.toNat i ∧ code = 0x12) ∨
        (w ≠ 0 ∧ wordMalformed w = false ∧ wordTag w = blockTag c.handle.toNat i ∧
          wordLength w ≠ lengthField (validBytes c.length.toNat i) ∧ code = 0x13) ∨
        (w ≠ 0 ∧ wordMalformed w = false ∧ wordTag w = blockTag c.handle.toNat i ∧
          wordLength w = lengthField (validBytes c.length.toNat i) ∧ c.fmt.toNat < 0xC ∧ wordFmt w ≠ c.fmt.toNat ∧ code = 0x14) →
        ∃ ev, (t.dev.bank bank.val).ring.presented = (s.dev.bank bank.val).ring.presented ++ [ev] ∧ ev.source = pos.val ∧
          ev.ev.code = code ∧ ev.ev.ctx = c.ctx.val ∧ ev.ev.p0 = c.handle ∧ ev.ev.p1 = w32 i ∧ ev.ev.p2 = c.step ∧
          ev.ev.p3 = w32 c.oper.toNat) ∧
      (w ≠ 0 → wordMalformed w = false → wordTag w = blockTag c.handle.toNat i →
        wordLength w = lengthField (validBytes c.length.toNat i) → (0xC ≤ c.fmt.toNat ∨ wordFmt w = c.fmt.toNat) →
        ((s.dev.wisp bank.val pos.val).loads.filter (fun x => x.taken)).length < 2 →
        (t.dev.wisp bank.val pos.val).loads = (s.dev.wisp bank.val pos.val).loads ++
          [{ blockAddr := a, index := i, cmd := c, epoch := (s.dev.wisp bank.val pos.val).cmdEpoch, word := w,
             loaded := [((addr.toNat - a) / 16, data)], taken := true }]) ∧
      Dev.SameBut [.banks, .wisps, .ctxs, .reg Reg.ZN_STOP_LOST] s.dev t.dev) ∧
  (∀ (bank : BankId) (pos : Pos) (addr : Addr) (data : List Byte) (c : Cmd) (a i : Nat) (s : State), data.length = 16 →
    addr.toNat % 16 = 0 → (s.dev.wisp bank.val pos.val).cmd = some c → s.dev.checking bank.val pos.val = true →
    s.dev.runs bank.val pos.val = none → s.dev.carries bank.val pos.val c = true → s.dev.clock.stopped = false →
    blockAt c addr.toNat = some (a, i) → (∃ x ∈ (s.dev.wisp bank.val pos.val).opens, x.blockAddr = a) →
    ∃ t, exec (.carriedLoad bank pos addr data) s = .next t ∧ t.pending = s.pending ∧ t.mem = s.mem ∧
      (t.dev.wisp bank.val pos.val).reg Reg.WS_CW_SKIP_BYTES = (s.dev.wisp bank.val pos.val).reg Reg.WS_CW_SKIP_BYTES + 1 ∧
      (t.dev.wisp bank.val pos.val).loads = (s.dev.wisp bank.val pos.val).loads ∧ Dev.SameBut [.wisps] s.dev t.dev) ∧
  (∀ (bank : BankId) (pos : Pos) (addr : Addr) (data : List Byte) (s : State), data.length ≤ 32 →
    (s.dev.wisp bank.val pos.val).cmd = none ∨ s.dev.checking bank.val pos.val = false ∨ (s.dev.runs bank.val pos.val).isSome = true →
    exec (.carriedLoad bank pos addr data) s = .next s)

/-! ## Candidates, descriptors and verdicts -/

/-- CANDIDATE_PRESENT and DESCRIPTOR_ACCEPT outside a stop, at a Bank that takes part.
The model's readings in it: log entries 35, 62 and 64. -/
def Obligations.CandidatesBecomeDescriptors : Prop :=
  (∀ (bank : BankId) (pos : Pos) (x : Cand) (s : State),
    (s.dev.wisp bank.val pos.val).pend[(s.dev.wisp bank.val pos.val).presented]? = some x → s.dev.clock.stopped = false →
    s.dev.bankDown bank.val = false → (s.dev.bank bank.val).anv.room x.chan 0 x.entries = true →
    ∃ t, exec (.candidatePresent bank pos) s = .next t ∧
      (t.dev.wisp bank.val pos.val).presented = (s.dev.wisp bank.val pos.val).presented + 1 ∧
      (t.dev.wisp bank.val pos.val).pend = (s.dev.wisp bank.val pos.val).pend ∧
      (t.dev.bank bank.val).anv.presented = (s.dev.bank bank.val).anv.presented ++ [x] ∧
      (∀ b p : Nat, coreUnit b p ≠ coreUnit bank.val pos.val → t.dev.wisp b p = s.dev.wisp b p) ∧
      (∀ b : Nat, b ≠ bank.val → t.dev.bank b = s.dev.bank b) ∧ State.SameBut [.banks, .wisps] s t) ∧
  (∀ (bank : BankId) (x : Cand) (rest : List Cand) (s : State), s.dev.clock.stopped = false → s.dev.bankDown bank.val = false →
    (s.dev.bank bank.val).anv.held = [] → (s.dev.bank bank.val).anv.presented = x :: rest → x.op ≠ opSIGCMP → x.entries = 1 →
    (s.dev.bank bank.val).anv.room x.chan x.src 1 = true → (x.needsSeed = false ∨ (s.dev.bankSeed bank.val).isSome = true) →
    ∃ t y, exec (.descriptorAccept bank) s = .next t ∧
      (t.dev.bank bank.val).anv.chanQueue x.chan = (s.dev.bank bank.val).anv.chanQueue x.chan ++ [y] ∧
      y.cand = x ∧ y.seq = (s.dev.bank bank.val).anv.seq ∧ y.st = .fetching ∧ y.next = 0 ∧
      y.strict = (s.dev.ctx x.ctx).core.strict ∧ y.gate = (s.dev.ctx x.ctx).gate ∧
      (∀ seed, s.dev.bankSeed bank.val = some seed →
        y.key = mix64 (seed ^^^ BitVec.ofNat 64 (bank.val * 2 ^ 48) ^^^ (s.dev.bank bank.val).anv.seq.setWidth 64)) ∧
      (t.dev.bank bank.val).anv.seq = (s.dev.bank bank.val).anv.seq + 1 ∧
      (t.dev.bank bank.val).anv.presented = rest ∧
      (x.src = 0 → (t.dev.wisp bank.val x.pos).pend = (s.dev.wisp bank.val x.pos).pend.erase x) ∧
      (∀ b : Nat, b ≠ bank.val → t.dev.bank b = s.dev.bank b) ∧ State.SameBut [.banks, .wisps, .reg Reg.ZN_STOP_LOST] s t) ∧
  (∀ (bank : BankId) (x : Cand) (rest : List Cand) (s : State), s.dev.clock.stopped = false → s.dev.bankDown bank.val = false →
    (s.dev.bank bank.val).anv.presented = x :: rest → (x.op = opROWSUM ∨ x.op = opSETHASH) → s.dev.bankSeed bank.val = none →
    ∃ t, exec (.descriptorAccept bank) s = .next t ∧ (t.dev.bank bank.val).anv.held = (s.dev.bank bank.val).anv.held ++ [x] ∧
      (t.dev.bank bank.val).anv.presented = rest ∧ (t.dev.bank bank.val).anv.seq = (s.dev.bank bank.val).anv.seq ∧
      State.SameBut [.banks] s t)

/-- OPERAND_FETCH for the head descriptor `x` of the channel whose turn it is, outside a stop; for another channel it does nothing.
The model's readings in it: log entries 45, 55, 56, 57 and 181. -/
def Obligations.OperandFetchReads : Prop :=
  (∀ (bank : BankId) (chan : Chan) (x : Desc) (s : State), s.dev.clock.stopped = false → s.dev.bankDown bank.val = false →
    (s.dev.bank bank.val).anv.nextRead = some chan.val →
    headOf ((s.dev.bank bank.val).anv.chanQueue chan.val) = some x → x.st = .fetching → x.cand.chan = chan.val → x.decl = [] →
    ({ x with decl := s.mem.read x.cand.decl.toNat 128 } : Desc).decide_ = none →
    ({ x with decl := s.mem.read x.cand.decl.toNat 128 } : Desc).nextBlock.isSome = true →
    ∃ t, exec (.operandFetch bank chan) s = .next t ∧
      (t.dev.bank bank.val).anv.chanQueue chan.val = ((s.dev.bank bank.val).anv.chanQueue chan.val).map (fun z =>
        if z.seq = x.seq then { x with
          decl := s.mem.read x.cand.decl.toNat 128
          st := if ({ x with decl := s.mem.read x.cand.decl.toNat 128 } : Desc).ready = true then .runnable else .fetching } else z) ∧
      (t.dev.bank bank.val).anv.lastRead = chan.val ∧
      (∀ b : Nat, b ≠ bank.val → t.dev.bank b = s.dev.bank b) ∧ State.SameBut [.banks] s t) ∧
  (∀ (bank : BankId) (chan : Chan) (x : Desc) (key : Nat) (s : State), s.dev.clock.stopped = false →
    s.dev.bankDown bank.val = false → (s.dev.bank bank.val).anv.nextRead = some chan.val →
    headOf ((s.dev.bank bank.val).anv.chanQueue chan.val) = some x → x.cand.chan = chan.val → x.decl ≠ [] → x.nextBlock = some key → s.mem.slot (key % 2 ^ 48) ≠ 0 →
    wordMalformed (s.mem.slot (key % 2 ^ 48)) = true →
    ∃ t ev, exec (.operandFetch bank chan) s = .next t ∧
      (t.dev.bank bank.val).anv.done = (s.dev.bank bank.val).anv.done ++
        [{ x with verdict := x.plain vVOID voidOPERAND, st := .finished }] ∧
      (t.dev.bank bank.val).anv.chanQueue chan.val =
        ((s.dev.bank bank.val).anv.chanQueue chan.val).filter (fun z => decide (z.seq ≠ x.seq)) ∧
      (t.dev.bank bank.val).ring.presented[(s.dev.bank bank.val).ring.presented.length]? = some ev ∧
      ev.source = 265 ∧ ev.ev.code = 0x11 ∧ ev.ev.ctx = x.cand.ctx ∧
      (∃ handle index, ev.fwd = .cw 0x11 (key % 2 ^ 48) x.cand.ctx x.cand.step
        (if x.gate = true then s.dev.epochOf x.cand else none) x.cand.pos handle index none) ∧ State.SameBut [.banks] s t) ∧
  (∀ (bank : BankId) (chan : Chan) (s : State), s.dev.clock.stopped = true ∨ s.dev.bankDown bank.val = true ∨
    (s.dev.bank bank.val).anv.nextRead ≠ some chan.val → exec (.operandFetch bank chan) s = .next s)

/-- SLOT outside a stop, at an Anvil that runs. The model's readings in it: log entries 12, 63, 120 and 184. -/
def Obligations.SlotsSwitchChannels : Prop :=
  (∀ (bank : BankId) (s : State), s.dev.clock.stopped = false → s.dev.bankDown bank.val = false →
    (s.dev.bank bank.val).anv.isolated = false → (s.dev.bank bank.val).anv.resetAt = none → (s.dev.bank bank.val).anv.slotNo < 64 →
    (s.dev.bank (partner bank.val)).anv.hostTable = false →
    ∃ t, exec (.slot bank) s = .next t ∧ (t.dev.bank bank.val).anv.slotNo = (s.dev.bank bank.val).anv.slotNo + 1 ∧
      (∀ id, s.dev.slotChannel bank.val (s.dev.bank bank.val).anv.slotNo = some id →
        (t.dev.bank bank.val).anv.lastChan = id ∧
        (t.dev.bank bank.val).reg Reg.BK_ANV_SWITCHES = (s.dev.bank bank.val).reg Reg.BK_ANV_SWITCHES +
          (if id = (s.dev.bank bank.val).anv.lastChan then 0 else 1)) ∧
      (s.dev.slotChannel bank.val (s.dev.bank bank.val).anv.slotNo = none →
        (t.dev.bank bank.val).anv.queue = (s.dev.bank bank.val).anv.queue) ∧
      (∀ b : Nat, b ≠ bank.val → b ≠ partner bank.val → t.dev.bank b = s.dev.bank b) ∧
      State.SameBut [.banks, .reg Reg.ZN_STOP_LOST] s t) ∧
  (∀ (bank : BankId) (s : State), (s.dev.bank bank.val).anv.isolated = true ∨ (s.dev.bank bank.val).anv.resetAt.isSome = true ∨
    64 ≤ (s.dev.bank bank.val).anv.slotNo ∨ s.dev.clock.stopped = true ∨ s.dev.bankDown bank.val = true ∨
    (s.dev.bank (partner bank.val)).anv.hostTable = true → exec (.slot bank) s = .next s)

/-- SUBMIT where the write is accepted, outside a stop; `x` is the candidate that BK_SUB_D0 to BK_SUB_D7 hold.
The model's readings in it: log entries 6, 16 and 65. -/
def Obligations.SubmitAnswers : Prop :=
  ∀ (p : Path) (bank : BankId) (x : Cand) (s : State), s.dev.takesAt p (.bk bank.val Reg.BK_SUB_CMD) 1 → s.dev.clock.stopped = false →
    x = (s.dev.bank bank.val).subCand
      (Decl.parse (s.mem.read ((s.dev.bank bank.val).subCand false).decl.toNat 128)).twoVec →
    ∃ t, exec (.submit p bank) s = .next t ∧
      (x.src ≠ 2 ∨ x.op = opSIGCMP → bitsOf ((t.dev.bank bank.val).reg Reg.BK_SUB_STAT) 2 0 = 3) ∧
      (x.src = 2 → x.op ≠ opSIGCMP → (263 < x.pos ∨ (s.dev.bank bank.val).cc.chanOf x.pos = none) →
        bitsOf ((t.dev.bank bank.val).reg Reg.BK_SUB_STAT) 2 0 = 4) ∧
      (x.src = 2 → x.op ≠ opSIGCMP → x.pos ≤ 263 → ((s.dev.bank bank.val).cc.chanOf x.pos).isSome = true → (x.op = 0 ∨ 7 ≤ x.op) →
        bitsOf ((t.dev.bank bank.val).reg Reg.BK_SUB_STAT) 2 0 = 5) ∧
      (x.src = 2 → x.op ≠ opSIGCMP → x.pos ≤ 263 → ((s.dev.bank bank.val).cc.chanOf x.pos).isSome = true → 1 ≤ x.op → x.op ≤ 6 →
        (s.dev.bank bank.val).anv.room x.chan 2 x.entries = false → bitsOf ((t.dev.bank bank.val).reg Reg.BK_SUB_STAT) 2 0 = 2) ∧
      (x.src = 2 → x.op ≠ opSIGCMP → x.pos ≤ 263 → ((s.dev.bank bank.val).cc.chanOf x.pos).isSome = true → 1 ≤ x.op → x.op ≤ 6 →
        (s.dev.bank bank.val).anv.room x.chan 2 x.entries = true → x.entries = 1 → (x.needsSeed = false ∨ (s.dev.bankSeed bank.val).isSome = true) →
        bitsOf ((t.dev.bank bank.val).reg Reg.BK_SUB_STAT) 2 0 = 1 ∧
        bitsOf ((t.dev.bank bank.val).reg Reg.BK_SUB_STAT) 31 16 = (s.dev.bank bank.val).anv.seq.toNat % 65536 ∧
        ((t.dev.bank bank.val).anv.chanQueue x.chan).map (fun y => y.cand) =
          ((s.dev.bank bank.val).anv.chanQueue x.chan).map (fun y => y.cand) ++ [x]) ∧
      State.SameBut [.banks, .port, .reg Reg.ZN_STOP_LOST] s t

/-- VERDICT_ACCEPT outside a stop. The model's readings in it: log entries 37, 44, 45, 73 and 171. -/
def Obligations.VerdictsAreCountedAndCharged : Prop :=
  (∀ (b : Nat) (x : Desc) (rest : List ArbItem) (s : State), s.dev.clock.stopped = false →
    takeItem ArbItem.isVerdict [] s.dev.jnl.waiting = some (.verdict b x, rest) →
    ∃ t, exec .verdictAccept s = .next t ∧ t.mem = s.mem ∧ t.pending = s.pending ∧
      (s.dev.isLate x = true → t.dev.zreg Reg.ZN_ANV_CNT_LATE = s.dev.zreg Reg.ZN_ANV_CNT_LATE + 1 ∧
        (∃ more, t.dev.jnl.waiting = rest ++ more) ∧ (∀ u : Nat, t.dev.uht u = s.dev.uht u) ∧
        t.dev.zreg Reg.ZN_ANV_CNT_BEYOND = s.dev.zreg Reg.ZN_ANV_CNT_BEYOND) ∧
      (s.dev.isLate x = false →
        t.dev.zreg Reg.ZN_ANV_CNT_LATE = s.dev.zreg Reg.ZN_ANV_CNT_LATE ∧
        (verdictOf x.verdict = vMATCH → t.dev.zreg Reg.ZN_ANV_CNT_MATCH = s.dev.zreg Reg.ZN_ANV_CNT_MATCH + 1) ∧
        (verdictOf x.verdict = vWITHIN → t.dev.zreg Reg.ZN_ANV_CNT_WITHIN = s.dev.zreg Reg.ZN_ANV_CNT_WITHIN + 1) ∧
        (verdictOf x.verdict = vBEYOND → t.dev.zreg Reg.ZN_ANV_CNT_BEYOND = s.dev.zreg Reg.ZN_ANV_CNT_BEYOND + 1) ∧
        (verdictOf x.verdict = vVOID → t.dev.zreg Reg.ZN_ANV_CNT_VOID = s.dev.zreg Reg.ZN_ANV_CNT_VOID + 1))) ∧
  (∀ (b : Nat) (x : Desc) (rest : List ArbItem) (s : State), s.dev.clock.stopped = false →
    takeItem ArbItem.isVerdict [] s.dev.jnl.waiting = some (.verdict b x, rest) → s.dev.isLate x = false → verdictOf x.verdict = vBEYOND → x.cand.op ≠ opSIGCMP →
    x.cand.src ≠ 1 → coreUnit b x.cand.pos < 50688 → s.dev.healthOf (coreUnit b x.cand.pos) = .clear →
    ∃ t, exec .verdictAccept s = .next t ∧ t.dev.healthOf (coreUnit b x.cand.pos) = .haze ∧
      (t.dev.uht (coreUnit b x.cand.pos)).reason = 0x02 ∧ (∃ more, t.dev.jnl.waiting = rest ++ more))

/-- CW_OUTCOME_ACCEPT outside a stop; the slice is the one R516 finds. The model's readings in it: log entries 73 and 171. -/
def Obligations.CheckWordOutcomesCharge : Prop :=
  (∀ (ok : ArbItem → Bool) (l rest : List ArbItem) (i : ArbItem), takeItem ok [] l = some (i, rest) →
    ok i = true ∧ ∃ a b, l = a ++ i :: b ∧ rest = a ++ b ∧ ∀ x ∈ a, x.source ≠ i.source) ∧
  (∀ (b code addr ctx pos : Nat) (step handle index : Word) (epoch : Option Word) (replay : Option Nat) (nosent : Bool)
    (rest : List ArbItem) (s : State), s.dev.clock.stopped = false →
    takeItem ArbItem.isCw [] s.dev.jnl.waiting = some (.cw b (.cw code addr ctx step epoch pos handle index replay) nosent, rest) →
    code ≠ 0x11 → code ≠ 0x12 → code ≠ 0x13 → code ≠ 0x15 →
    exec .cwOutcomeAccept s = .next { s with dev := { s.dev with jnl := { s.dev.jnl with waiting := rest } } }) ∧
  (∀ (b code addr ctx pos : Nat) (step handle index : Word) (epoch : Option Word) (replay : Option Nat) (nosent : Bool)
    (rest : List ArbItem) (s : State), s.dev.clock.stopped = false →
    takeItem ArbItem.isCw [] s.dev.jnl.waiting = some (.cw b (.cw code addr ctx step epoch pos handle index replay) nosent, rest) →
    (code = 0x11 ∨ code = 0x12 ∨ code = 0x13 ∨ code = 0x15) → s.dev.cfg.t1Base ≤ addr →
    addr < s.dev.cfg.t1Base + 50688 * 4194304 →
    s.dev.healthOf (50688 + (addr - s.dev.cfg.t1Base) / 4194304) = .clear →
    ∃ t, exec .cwOutcomeAccept s = .next t ∧
      t.dev.healthOf (50688 + (addr - s.dev.cfg.t1Base) / 4194304) = .haze ∧
      (t.dev.uht (50688 + (addr - s.dev.cfg.t1Base) / 4194304)).reason = 0x03 ∧ (∃ more, t.dev.jnl.waiting = rest ++ more)) ∧
  (∀ (b ctx pos : Nat) (step : Word) (owed nosent : Bool) (rest : List ArbItem) (s : State), s.dev.clock.stopped = false →
    takeItem ArbItem.isCw [] s.dev.jnl.waiting = some (.cw b (.defer ctx step none pos owed) nosent, rest) →
    exec .cwOutcomeAccept s = .next { s with dev := { s.dev with jnl := { s.dev.jnl with waiting := rest } } })

/-! ## Contexts -/

/-- CREATE where the write is accepted; `c` the selected context and `cfg` its staged values.
The model's readings in it: log entries 6, 16, 17 and 39. -/
def Obligations.CreateFollowsTheTable : Prop :=
  ∀ (p : Path) (c : Nat) (cfg : Word) (s : State), s.dev.takesZ p Reg.ZN_CTX_CMD 1 → c = s.dev.zf Reg.ZN_CTX_SEL 9 0 →
    cfg = s.dev.zreg Reg.ZN_CTX_CFG →
    ∃ t, exec (.create p) s = .next t ∧
      (s.dev.sdActive = true ∨ s.dev.alarms.importPend.isSome = true → (t.dev.ctx c).core.result = 3 ∧
        (t.dev.ctx c).core.state = (s.dev.ctx c).core.state) ∧
      (s.dev.sdActive = false → s.dev.alarms.importPend = none → s.dev.clock.stopped = true →
        (t.dev.ctx c).core.result = 2 ∧ t.dev.clock.stopCmds = s.dev.clock.stopCmds ++ [(0, c, cfg)] ∧
        (t.dev.ctx c).core.state = (s.dev.ctx c).core.state) ∧
      (s.dev.sdActive = false → s.dev.alarms.importPend = none → s.dev.clock.stopped = false →
        (c = 0 → (t.dev.ctx c).core.result = 4) ∧
        (c ≠ 0 → badLevel cfg = true → (t.dev.ctx c).core.result = 0xA) ∧
        (c ≠ 0 → badLevel cfg = false → (s.dev.ctx c).core.state ≠ .free → (t.dev.ctx c).core.result = 3 ∧
          (t.dev.ctx c).core.state = (s.dev.ctx c).core.state) ∧
        (c ≠ 0 → badLevel cfg = false → (s.dev.ctx c).core.state = .free → s.dev.overBudget c (bitsOf cfg 2 0) = true →
          (t.dev.ctx c).core.result = 5 ∧ (t.dev.ctx c).core.state = .free) ∧
        (c ≠ 0 → badLevel cfg = false → (s.dev.ctx c).core.state = .free → s.dev.overBudget c (bitsOf cfg 2 0) = false →
          (t.dev.ctx c).core.result = 1 ∧ (t.dev.ctx c).core.state = .active ∧ (t.dev.ctx c).core.level = bitsOf cfg 2 0 ∧
          (t.dev.ctx c).core.incarn = ((s.dev.ctx c).core.incarn + 1) % 65536 ∧ (t.dev.ctx c).core.strict = bitOf cfg 3 ∧
          (t.dev.ctx c).core.srate = max (bitsOf cfg 10 6) (s.dev.zf Reg.ZN_LVL_BUDGET 12 8) ∧
          ((t.dev.ctx c).hz.opened = true ↔ 3 ≤ bitsOf cfg 2 0))) ∧
      (∀ e : Nat, e ≠ c → t.dev.ctx e = s.dev.ctx e) ∧ State.SameBut [.clock, .ctxs] s t

/-- SETLVL where the write is accepted, and LEVEL_CHANGE_APPLY: rising into Gate opens an epoch, or holds
the context while two are open (R189); lowering out of Gate closes the open one.
The model's readings in it: log entries 6, 16, 17, 40 and 41. -/
def Obligations.LevelsFollowTheTableAndTheBoundary : Prop :=
  (∀ (p : Path) (c l : Nat) (cfg : Word) (s : State), s.dev.takesZ p Reg.ZN_CTX_CMD 2 → c = s.dev.zf Reg.ZN_CTX_SEL 9 0 →
    cfg = s.dev.zreg Reg.ZN_CTX_CFG → l = bitsOf cfg 2 0 →
    ∃ t, exec (.setlvl p) s = .next t ∧
      (s.dev.clock.stopped = true →
        (t.dev.ctx c).core.result = 2 ∧ t.dev.clock.stopCmds = s.dev.clock.stopCmds ++ [(1, c, cfg)]) ∧
      (s.dev.clock.stopped = false →
        ((c = 0 ∧ 2 < l) ∨ badLevel cfg = true → (t.dev.ctx c).core.result = 0xA) ∧
        (¬ (c = 0 ∧ 2 < l) → badLevel cfg = false → (s.dev.ctx c).core.state = .failed → (t.dev.ctx c).core.result = 8) ∧
        (¬ (c = 0 ∧ 2 < l) → badLevel cfg = false → (s.dev.ctx c).core.state ≠ .failed → (s.dev.ctx c).core.state ≠ .active →
          (t.dev.ctx c).core.result = 4) ∧
        (¬ (c = 0 ∧ 2 < l) → badLevel cfg = false → (s.dev.ctx c).core.state = .active →
          (l = 4 → s.dev.shadowOk c (bitsOf cfg 5 4) = false → (t.dev.ctx c).core.result = 6) ∧
          (l = 5 → s.dev.pairOk c = false → (t.dev.ctx c).core.result = 7) ∧
          ((l = 4 → s.dev.shadowOk c (bitsOf cfg 5 4) = true) → (l = 5 → s.dev.pairOk c = true) →
            (s.dev.overBudget c l = true → (t.dev.ctx c).core.result = 5) ∧
            (s.dev.overBudget c l = false → (t.dev.ctx c).core.strict = bitOf cfg 3 ∧
              (l = (s.dev.ctx c).core.level → (t.dev.ctx c).core.result = 1 ∧ (t.dev.ctx c).core.pend = none ∧
                (t.dev.ctx c).core.shadowFrac = bitsOf cfg 5 4) ∧
              (l ≠ (s.dev.ctx c).core.level → (t.dev.ctx c).core.result = 2 ∧
                ∃ q, (t.dev.ctx c).core.pend = some q ∧ q.level = l ∧
                  ((s.dev.allCores c).isEmpty = false → q.boundaryAt = none)))))) ∧
      (t.dev.ctx c).core.level = (s.dev.ctx c).core.level ∧
      (∀ e : Nat, e ≠ c → t.dev.ctx e = s.dev.ctx e) ∧ State.SameBut [.clock, .ctxs] s t) ∧
  (∀ (c : CtxId) (q : PendLevel) (f : Nat) (s : State), (s.dev.ctx c.val).core.pend = some q →
    (s.dev.ctx c.val).core.state = .active → s.dev.clock.stopped = false → q.boundaryAt = some f → f < s.dev.clock.frame →
    ∃ t, exec (.levelChangeApply c) s = .next t ∧ (t.dev.ctx c.val).core.level = q.level ∧
      (t.dev.ctx c.val).core.pend = none ∧ (t.dev.ctx c.val).core.result = 1 ∧
      ((s.dev.ctx c.val).core.level < 3 → 3 ≤ q.level → (s.dev.ctx c.val).hz.epochs.length < 2 → (t.dev.ctx c.val).hz.opened = true) ∧
      ((s.dev.ctx c.val).core.level < 3 → 3 ≤ q.level → 2 ≤ (s.dev.ctx c.val).hz.epochs.length →
        (t.dev.ctx c.val).hz.stall = true ∧ (t.dev.ctx c.val).hz.epochs = (s.dev.ctx c.val).hz.epochs) ∧
      (3 ≤ (s.dev.ctx c.val).core.level → q.level < 3 → (t.dev.ctx c.val).hz.opened = false ∧ (t.dev.ctx c.val).hz.stall = false) ∧
      (3 ≤ (s.dev.ctx c.val).core.level → 3 ≤ q.level → (t.dev.ctx c.val).hz = (s.dev.ctx c.val).hz) ∧
      (∀ e : Nat, e ≠ c.val → t.dev.ctx e = s.dev.ctx e) ∧ State.SameBut [.ctxs] s t) ∧
  (∀ (c : CtxId) (s : State), (s.dev.ctx c.val).core.pend = none → exec (.levelChangeApply c) s = .next s) ∧
  (∀ (c : CtxId) (q : PendLevel) (s : State), (s.dev.ctx c.val).core.pend = some q →
    (q.boundaryAt = none ∨ q.boundaryAt = some s.dev.clock.frame) → exec (.levelChangeApply c) s = .next s)

/-- TEARDOWN where accepted, DRAIN_COMPLETE and COOLING_EXPIRE. The model's readings in it: log entries 6, 16 and 114. -/
def Obligations.ContextEnds : Prop :=
  (∀ (p : Path) (c : Nat) (s : State), s.dev.takesZ p Reg.ZN_CTX_CMD 4 → c = s.dev.zf Reg.ZN_CTX_SEL 9 0 →
    ∃ t, exec (.teardown p) s = .next t ∧
      (s.dev.clock.stopped = true →
        (t.dev.ctx c).core.result = 2 ∧ t.dev.clock.stopCmds = s.dev.clock.stopCmds ++ [(2, c, 0)]) ∧
      (s.dev.clock.stopped = false → c ≠ 0 → ((s.dev.ctx c).core.state = .active ∨ (s.dev.ctx c).core.state = .failed) →
        (t.dev.ctx c).core.result = 1 ∧ (t.dev.ctx c).core.closePend = true ∧ (t.dev.ctx c).core.pend = none) ∧
      (s.dev.clock.stopped = false → (c = 0 ∨ ((s.dev.ctx c).core.state ≠ .active ∧ (s.dev.ctx c).core.state ≠ .failed)) →
        (t.dev.ctx c).core.result = 4 ∧ (t.dev.ctx c).core.closePend = (s.dev.ctx c).core.closePend) ∧
      (t.dev.ctx c).core.state = (s.dev.ctx c).core.state ∧
      (∀ e : Nat, e ≠ c → t.dev.ctx e = s.dev.ctx e) ∧ State.SameBut [.clock, .ctxs] s t) ∧
  (∀ (c : CtxId) (s : State), (s.dev.ctx c.val).core.state = .closing → s.dev.drain c.val = 0 → s.dev.clock.stopped = false →
    ∃ t, exec (.drainComplete c) s = .next t ∧ (t.dev.ctx c.val).core.state = .cooling ∧
      (t.dev.ctx c.val).core.coolAt = s.dev.clock.frame ∧ (t.dev.ctx c.val).core.discarded = (s.dev.ctx c.val).core.discarded ∧
      (∀ e : Nat, e ≠ c.val → t.dev.ctx e = s.dev.ctx e) ∧ State.SameBut [.ctxs] s t) ∧
  (∀ (c : CtxId) (s : State), (s.dev.ctx c.val).core.state ≠ .closing ∨ s.dev.drain c.val ≠ 0 ∨ s.dev.clock.stopped = true →
    exec (.drainComplete c) s = .next s) ∧
  (∀ (c : CtxId) (s : State), (s.dev.ctx c.val).core.state = .cooling → (s.dev.ctx c.val).core.coolAt + 64 ≤ s.dev.clock.frame →
    s.dev.clock.stopped = false →
    ∃ t, exec (.coolingExpire c) s = .next t ∧ (t.dev.ctx c.val).core.state = .free ∧
      (t.dev.ctx c.val).core.incarn = (s.dev.ctx c.val).core.incarn ∧
      (∀ e : Nat, e ≠ c.val → t.dev.ctx e = s.dev.ctx e) ∧ State.SameBut [.ctxs] s t) ∧
  (∀ (c : CtxId) (s : State), s.dev.clock.frame < (s.dev.ctx c.val).core.coolAt + 64 → exec (.coolingExpire c) s = .next s)

/-- END_STEP where the write is accepted. The model's readings in it: log entries 22, 42, 43 and 168. -/
def Obligations.EndStepMarks : Prop :=
  ∀ (p : Path) (bank : BankId) (epoch : Bool) (c : CtxId) (s : State),
    s.dev.takesAt p (.bk bank.val Reg.BK_CC_MARK) (w32 (1 + 2 * bit epoch + 65536 * c.val)) →
    ∃ t, exec (.endStep p bank epoch c) s = .next t ∧
      (s.dev.clock.stopped = true → t.dev.ctx c.val = s.dev.ctx c.val ∧
        t.dev.zreg Reg.ZN_STOP_LOST = w32 (min 0xFFFFFFFF ((s.dev.zreg Reg.ZN_STOP_LOST).toNat + 1))) ∧
      (s.dev.clock.stopped = false → (s.dev.bank bank.val).owns c.val = false →
        t.dev.ctx c.val = s.dev.ctx c.val ∧ t.dev.zreg Reg.ZN_CFG_CNT_REJECT = s.dev.zreg Reg.ZN_CFG_CNT_REJECT + 1) ∧
      (s.dev.clock.stopped = false → (s.dev.bank bank.val).owns c.val = true → (s.dev.bank bank.val).cc.ownPend = [] →
        (∃ k ∈ s.dev.banksOf c.val, k ≠ bank.val ∧ (s.dev.bank k).isolated = false ∧ k ∉ (s.dev.ctx c.val).core.marks) →
        bank.val ∈ (t.dev.ctx c.val).core.marks ∧ (∀ k ∈ (s.dev.ctx c.val).core.marks, k ∈ (t.dev.ctx c.val).core.marks) ∧
        (t.dev.ctx c.val).hz = (s.dev.ctx c.val).hz) ∧
      (s.dev.clock.stopped = false → (s.dev.bank bank.val).owns c.val = true → (s.dev.bank bank.val).cc.ownPend = [] →
        (∀ k ∈ s.dev.banksOf c.val, k = bank.val ∨ (s.dev.bank k).isolated = true ∨ k ∈ (s.dev.ctx c.val).core.marks) →
        (t.dev.ctx c.val).core.marks = [] ∧ (t.dev.ctx c.val).core.boundaryAt = some s.dev.clock.frame ∧
        (t.dev.ctx c.val).hz.endedStep = some (s.dev.bank bank.val).cc.step) ∧
      State.SameBut [.banks, .clock, .ctxs, .dbg, .hz, .jnl, .port, .wisps, .reg Reg.ZN_CFG_CNT_REJECT,
        .reg Reg.ZN_STOP_LOST] s t

/-! ## The commit horizon -/

/-- EPOCH_COUNTED and EPOCH_SETTLE outside a stop. The model's readings in it: log entries 35 and 46. -/
def Obligations.EpochsSettleInOrder : Prop :=
  (∀ (c : CtxId) (e : Epoch) (b : Nat) (s : State), s.dev.clock.stopped = false → e ∈ (s.dev.ctx c.val).hz.epochs →
    e.counted = false → e.closing = some b → b + 2 ≤ s.dev.clock.frame →
    ∃ t, exec (.epochCounted c e.num) s = .next t ∧ (∀ x ∈ (t.dev.ctx c.val).hz.epochs, x.num = e.num → x.counted = true) ∧
      (t.dev.ctx c.val).core = (s.dev.ctx c.val).core ∧ (∀ k : Nat, k ≠ c.val → t.dev.ctx k = s.dev.ctx k) ∧
      State.SameBut [.ctxs] s t) ∧
  (∀ (c : CtxId) (n : Word) (s : State),
    (∀ e ∈ (s.dev.ctx c.val).hz.epochs, e.num = n → e.counted = true ∨ e.closing = none ∨
      ∃ b, e.closing = some b ∧ s.dev.clock.frame < b + 2) → exec (.epochCounted c n) s = .next s) ∧
  (∀ (c : CtxId) (e : Epoch) (rest : List Epoch) (s : State), s.dev.clock.stopped = false →
    (s.dev.ctx c.val).hz.epochs.filter (fun e => decide (e.fate = .live)) = e :: rest → e.counted = true → e.outstanding = 0 →
    e.suspects = [] → (∀ i ∈ s.dev.hz.inbound, i.ctx = c.val → serLe i.depend e.num = false) →
    (e.first = true ∨ ((s.dev.ctx c.val).hz.committedAny = true ∧ (s.dev.ctx c.val).hz.committed + 1 = e.num)) →
    ∃ t, exec (.epochSettle c) s = .next t ∧
      t.dev.hz.tokens = s.dev.hz.tokens ++ [(c.val, .commit e.num, s.dev.clock.frame)] ∧
      (∀ x ∈ (t.dev.ctx c.val).hz.epochs, x.num = e.num → x.fate = .committing) ∧
      (∀ k : Nat, k ≠ c.val → t.dev.ctx k = s.dev.ctx k) ∧ State.SameBut [.ctxs, .hz] s t) ∧
  (∀ (c : CtxId) (e : Epoch) (rest : List Epoch) (s : State),
    (s.dev.ctx c.val).hz.epochs.filter (fun e => decide (e.fate = .live)) = e :: rest →
    (e.counted = false ∨ e.outstanding ≠ 0 ∨ e.suspects ≠ [] ∨
      (∃ i ∈ s.dev.hz.inbound, i.ctx = c.val ∧ serLe i.depend e.num = true) ∨
      (e.first = false ∧ (s.dev.ctx c.val).hz.committedAny = false) ∨
      (e.first = false ∧ (s.dev.ctx c.val).hz.committed + 1 ≠ e.num)) →
    exec (.epochSettle c) s = .next s)

/-- TOKEN_EMIT. The model's readings in it: log entries 46 and 160. -/
def Obligations.TokensLeaveInOrder : Prop :=
  (∀ (c f : Nat) (k : Token) (rest : List (Nat × Token × Nat)) (s : State), s.dev.clock.stopped = false →
    s.dev.hz.tokens = (c, k, f) :: rest → f < s.dev.clock.frame →
    ∃ t, exec .tokenEmit s = .next t ∧ t.dev.hz.tokens = rest ∧
      ((s.dev.ctx c).hz.en = true → s.dev.clamped = false →
        t.dev.hz.out = s.dev.hz.out ++ [{ bytes := hzMessage k.type s.dev.selfId c (s.dev.ctx c).core.incarn k.body,
                                          dest := .group (s.dev.ctx c).hz.group }]) ∧
      ((s.dev.ctx c).hz.en = false ∨ s.dev.clamped = true → t.dev.hz.out = s.dev.hz.out) ∧
      (∀ e, k = .commit e → (t.dev.ctx c).hz.committed = e ∧ (∀ x ∈ (t.dev.ctx c).hz.epochs, x.num ≠ e) ∧
        t.dev.zreg Reg.ZN_HZ_CNT_COMMIT_OUT = s.dev.zreg Reg.ZN_HZ_CNT_COMMIT_OUT + 1) ∧
      (∀ a b r, k = .retract a b r → (t.dev.ctx c).hz.committed = (s.dev.ctx c).hz.committed ∧
        t.dev.zreg Reg.ZN_HZ_CNT_RETRACT_OUT = s.dev.zreg Reg.ZN_HZ_CNT_RETRACT_OUT + 1) ∧
      (∀ x : Nat, x ≠ c → t.dev.ctx x = s.dev.ctx x) ∧
      State.SameBut [.ctxs, .hz, .reg Reg.ZN_HZ_CNT_COMMIT_OUT, .reg Reg.ZN_HZ_CNT_RETRACT_OUT] s t) ∧
  (∀ s : State, s.dev.clock.stopped = true → exec .tokenEmit s = .next s)

/-- SW_ISSUE, NOCHK_TRANSFER, TOKEN_REFRESH, PEER_ID_VALID, LINK_TRAINED, LINK_DOWN and PERIODIC_HELLO.
The model's readings in it: log entries 48, 51 and 160. -/
def Obligations.TransfersAndRefresh : Prop :=
  (∀ (c : CtxId) (s : State), s.dev.clamped = false →
    ∃ t, exec (.swIssue c) s = .next t ∧
      t.dev.hz.transfers = s.dev.hz.transfers ++ [BitVec.ofNat 48 (c.val + 2 ^ 10 * (s.dev.ctx c.val).core.incarn +
        (if 3 ≤ (s.dev.ctx c.val).core.level ∧ ((s.dev.ctx c.val).core.state = .active ∨ (s.dev.ctx c.val).core.state = .failed ∨
          (s.dev.ctx c.val).core.state = .closing) then 2 ^ 26 * ((s.dev.ctx c.val).hz.epoch.toNat % 256) + 2 ^ 34 else 0))] ∧
      (t.dev.ctx c.val).hz.issued = some (s.dev.ctx c.val).core.step ∧
      (∀ k : Nat, k ≠ c.val → t.dev.ctx k = s.dev.ctx k) ∧ State.SameBut [.ctxs, .hz] s t) ∧
  (∀ (c : CtxId) (e8 : BitVec 8) (s : State),
    ∃ t, exec (.nochkTransfer c e8) s = .next t ∧
      (∀ e ∈ (t.dev.ctx c.val).hz.epochs, e.num.toNat % 256 = e8.toNat → e.exposed = true) ∧
      (t.dev.ctx c.val).hz.epochs.length = (s.dev.ctx c.val).hz.epochs.length ∧
      (∀ k : Nat, k ≠ c.val → t.dev.ctx k = s.dev.ctx k) ∧ State.SameBut [.ctxs] s t) ∧
  (∀ (l : List OutMsg) (s : State), s.dev.clock.stopped = false → s.dev.clamped = false →
    s.dev.zf Reg.ZN_HZ_REFRESH 15 0 ≠ 0 → s.dev.hz.refreshAt + s.dev.zf Reg.ZN_HZ_REFRESH 15 0 ≤ s.dev.clock.frame →
    Tbl.wf Ctx.init s.dev.ctxs = true →
    l = s.dev.ctxs.filterMap (fun x => match x.2.hz.lastToken with
      | some (k, f) =>
        if x.2.hz.en = true ∧ s.dev.clock.frame < f + s.dev.zf Reg.ZN_HZ_TIMEOUT 24 0 then
          some { bytes := hzMessage k.type s.dev.selfId x.1 x.2.core.incarn k.body, dest := .group x.2.hz.group }
        else none
      | none => none) →
    ∃ t, exec .tokenRefresh s = .next t ∧ t.dev.hz.refreshAt = s.dev.clock.frame ∧ t.dev.hz.out = s.dev.hz.out ++ l ∧
      t.dev.zreg Reg.ZN_HZ_CNT_REFRESH = s.dev.zreg Reg.ZN_HZ_CNT_REFRESH + w32 l.length ∧
      State.SameBut [.hz, .reg Reg.ZN_HZ_CNT_REFRESH] s t) ∧
  (∀ (id : BitVec 16) (s : State), ∃ t, exec (.peerIdValid id) s = .next t ∧ t.dev.hz.self = some id ∧
    t.dev.hz.inbound = s.dev.hz.inbound ∧ State.SameBut [.hz] s t) ∧
  (∀ (l : Fin 16) (width : Fin 65) (s : State), s.dev.clamped = false →
    ∃ t m, exec (.linkTrained l width) s = .next t ∧ (t.dev.link l.val).up = true ∧ (t.dev.link l.val).width = width.val ∧
      (t.dev.link l.val).measured = false ∧ t.dev.hz.out = s.dev.hz.out ++ [m] ∧ m.dest = .onLink l.val ∧
      (∀ k : Nat, k ≠ l.val → t.dev.link k = s.dev.link k) ∧ State.SameBut [.draws, .hz] s t) ∧
  (∀ (l : Fin 16) (s : State), ∃ t, exec (.linkDown l) s = .next t ∧ (t.dev.link l.val).up = false ∧
    (t.dev.link l.val).width = 0 ∧ (∀ k : Nat, k ≠ l.val → t.dev.link k = s.dev.link k) ∧ t.dev.hz.inbound = s.dev.hz.inbound ∧
    State.SameBut [.hz] s t) ∧
  (∀ s : State, s.dev.clamped = false → s.dev.zf Reg.ZN_HZ_CTL 12 8 ≠ 0 →
    s.dev.hz.helloAt + 2 ^ s.dev.zf Reg.ZN_HZ_CTL 12 8 ≤ s.dev.clock.frame →
    ∃ t l, exec .periodicHello s = .next t ∧ t.dev.hz.helloAt = s.dev.clock.frame ∧ t.dev.hz.out = s.dev.hz.out ++ l ∧
      l.map (fun m => (m.dest, m.bytes[9]?)) = s.dev.linksUp.map (fun k => (.broadcast k, some (BitVec.ofNat 8 k))) ∧ State.SameBut [.draws, .hz] s t)

/-- PROVISIONAL_NOTICE off the clamp; `c`, `inc` and `e8` are the tag's fields. The model's readings in it: log entry 51. -/
def Obligations.ProvisionalDataIsHeld : Prop :=
  (∀ (peer : BitVec 16) (tag : BitVec 48) (l : Fin 16) (s : State), tag.toNat / 2 ^ 34 % 2 = 0 →
    exec (.provisionalNotice peer tag l) s = .next s) ∧
  (∀ (peer inc : BitVec 16) (e8 : BitVec 8) (c : Nat) (tag : BitVec 48) (l : Fin 16) (s : State), s.dev.clamped = false →
    tag.toNat / 2 ^ 34 % 2 = 1 → c = tag.toNat % 1024 → inc = BitVec.ofNat 16 (tag.toNat / 2 ^ 10) →
    e8 = BitVec.ofNat 8 (tag.toNat / 2 ^ 26) →
    ∃ t, exec (.provisionalNotice peer tag l) s = .next t ∧
      ((s.dev.ctx c).gate = true → (∃ i ∈ s.dev.hz.inbound, i.peer = peer ∧ i.ctx = c ∧ i.incarn = inc ∧ i.epoch8 = e8) →
        t.dev.hz.inbound.length = s.dev.hz.inbound.length ∧
        (∀ i ∈ t.dev.hz.inbound, i.peer = peer → i.ctx = c → i.incarn = inc → i.epoch8 = e8 →
          i.last = s.dev.clock.frame ∧ i.link = l.val) ∧ State.SameBut [.hz] s t) ∧
      ((s.dev.ctx c).gate = true → (∀ i ∈ s.dev.hz.inbound, ¬ (i.peer = peer ∧ i.ctx = c ∧ i.incarn = inc ∧ i.epoch8 = e8)) →
        s.dev.hz.inbound.length < 4096 →
        (∃ i, t.dev.hz.inbound = s.dev.hz.inbound ++ [i] ∧ i.peer = peer ∧ i.ctx = c ∧ i.incarn = inc ∧ i.epoch8 = e8 ∧
          i.count = 1 ∧ i.last = s.dev.clock.frame ∧
          ∀ e, (s.dev.ctx c).hz.epochs.getLast? = some e → i.depend = e.num) ∧ State.SameBut [.hz] s t) ∧
      ((s.dev.ctx c).core.state = .closing ∨ (s.dev.ctx c).core.state = .cooling →
        (t.dev.ctx c).core.deadIn = (s.dev.ctx c).core.deadIn + 1 ∧ t.dev.hz = s.dev.hz) ∧
      ((s.dev.ctx c).gate = false → (s.dev.ctx c).core.state ≠ .closing → (s.dev.ctx c).core.state ≠ .cooling →
        t.dev.zreg Reg.ZN_HZ_CNT_UNHELD = s.dev.zreg Reg.ZN_HZ_CNT_UNHELD + 1 ∧ t.dev.hz.inbound = s.dev.hz.inbound ∧
        State.SameBut [.hz, .jnl, .reg Reg.ZN_HZ_CNT_UNHELD] s t))

/-- COMMIT_RECEIVE, RETRACT_RECEIVE, EXPOSE_RECEIVE and HELLO_RECEIVE off the clamp.
The model's readings in it: log entries 47, 48, 52 and 53. -/
def Obligations.MessagesIn : Prop :=
  (∀ (l : Fin 16) (msg : List Byte) (now : Zc) (s : State), s.dev.clamped = false → parseMsg msg = none →
    exec (.commitReceive l msg) s = .next (s.onDev (fun d => d.bumpZ Reg.ZN_HZ_CNT_BADMSG)) ∧
    exec (.retractReceive l msg) s = .next (s.onDev (fun d => d.bumpZ Reg.ZN_HZ_CNT_BADMSG)) ∧
    exec (.exposeReceive l msg) s = .next (s.onDev (fun d => d.bumpZ Reg.ZN_HZ_CNT_BADMSG)) ∧
    exec (.helloReceive l msg now) s = .next (s.onDev (fun d => d.bumpZ Reg.ZN_HZ_CNT_BADMSG))) ∧
  (∀ (l : Fin 16) (msg : List Byte) (m : InMsg) (E : Word) (s : State), s.dev.clamped = false → parseMsg msg = some m → m.type = 2 →
    E = w32 (m.field 8 4) → (s.dev.ctx m.ctx).core.state = .active →
    ∃ t, exec (.commitReceive l msg) s = .next t ∧
      (∀ i, i ∈ t.dev.hz.inbound ↔ i ∈ s.dev.hz.inbound ∧
        ¬ (i.peer = m.src ∧ i.ctx = m.ctx ∧ i.incarn = m.incarn ∧ serLe (fullEpoch E i.epoch8) E = true)) ∧
      ((∃ i ∈ s.dev.hz.inbound, i.peer = m.src ∧ i.ctx = m.ctx ∧ i.incarn = m.incarn ∧ serLe (fullEpoch E i.epoch8) E = true) →
        t.dev.zreg Reg.ZN_HZ_CNT_COMMIT_IN = s.dev.zreg Reg.ZN_HZ_CNT_COMMIT_IN + 1) ∧
      ((∀ i ∈ s.dev.hz.inbound, ¬ (i.peer = m.src ∧ i.ctx = m.ctx ∧ i.incarn = m.incarn ∧ serLe (fullEpoch E i.epoch8) E = true)) →
        t.dev.zreg Reg.ZN_HZ_CNT_NOENTRY = s.dev.zreg Reg.ZN_HZ_CNT_NOENTRY + 1) ∧
      State.SameBut [.hz, .reg Reg.ZN_HZ_CNT_COMMIT_IN, .reg Reg.ZN_HZ_CNT_NOENTRY] s t) ∧
  (∀ (l : Fin 16) (msg : List Byte) (m : InMsg) (i : Inbound) (s : State), s.dev.clamped = false → s.dev.clock.stopped = true →
    parseMsg msg = some m → m.type = 3 → (s.dev.ctx m.ctx).core.state = .active → s.dev.hz.inbound = [i] → i.peer = m.src →
    i.ctx = m.ctx → i.incarn = m.incarn → serLe (w32 (m.field 8 4)) (fullEpoch (w32 (m.field 12 4)) i.epoch8) = true →
    serLe (fullEpoch (w32 (m.field 12 4)) i.epoch8) (w32 (m.field 12 4)) = true →
    ∃ t, exec (.retractReceive l msg) s = .next t ∧ t.dev.hz.inbound = [] ∧
      t.dev.zreg Reg.ZN_HZ_CNT_RETRACT_IN = s.dev.zreg Reg.ZN_HZ_CNT_RETRACT_IN + 1 ∧
      t.dev.hz.stopQueue = s.dev.hz.stopQueue ++ [.retract m.ctx i.depend 2] ∧
      State.SameBut [.hz, .reg Reg.ZN_HZ_CNT_RETRACT_IN] s t) ∧
  (∀ (l : Fin 16) (msg : List Byte) (m : InMsg) (s : State), s.dev.clamped = false → parseMsg msg = some m → m.type = 4 →
    s.dev.afsin.notices.length < 128 →
    ∃ t, exec (.exposeReceive l msg) s = .next t ∧
      t.dev.zreg Reg.ZN_HZ_CNT_EXPOSE_IN = s.dev.zreg Reg.ZN_HZ_CNT_EXPOSE_IN + 1 ∧
      t.dev.afsin.notices = s.dev.afsin.notices ++
        [{ seq := s.dev.afsin.nextSeq, code := 0x03, alert := false, body := toWords 8 msg }] ∧
      t.dev.jnl.waiting.length = s.dev.jnl.waiting.length + 1 ∧
      State.SameBut [.afsin, .jnl, .reg Reg.ZN_HZ_CNT_EXPOSE_IN, .reg Reg.ZN_AFS_CNT_SENT] s t) ∧
  (∀ (l : Fin 16) (msg : List Byte) (m : InMsg) (now : Zc) (s : State), s.dev.clamped = false → parseMsg msg = some m → m.type = 1 →
    (m.field 8 1) % 4 = 1 →
    ∃ t, exec (.helloReceive l msg now) s = .next t ∧ m.src ∉ t.dev.hz.noChecker ∧ t.dev.hz.inbound = s.dev.hz.inbound ∧
      (m.field 8 1 / 8 % 2 = 1 → ∃ o, t.dev.hz.out = s.dev.hz.out ++ [o] ∧ o.dest = .peer m.src (m.field 9 1 % 16)) ∧
      (m.field 8 1 / 8 % 2 = 0 → t.dev.hz.out = s.dev.hz.out) ∧
      (m.field 8 1 / 4 % 2 = 1 → (t.dev.link l.val).measured = true) ∧ State.SameBut [.hz] s t)

/-- ENTRY_EXPIRE, REPLAY_WAIT_EXPIRE, RESUME, CC_ANSWER_DONE and CC_ANSWER_NOFIT.
The model's readings in it: log entries 49, 50, 52, 108 and 180. -/
def Obligations.HorizonTimersAndResume : Prop :=
  (∀ (i : Inbound) (c : CtxId) (s : State), i ∈ s.dev.hz.inbound → i.ctx = c.val → i.deadline ≤ s.dev.clock.frame →
    ∃ t, exec (.entryExpire i.peer c i.incarn i.epoch8) s = .next t ∧
      t.dev.zreg Reg.ZN_HZ_CNT_TIMEOUT = s.dev.zreg Reg.ZN_HZ_CNT_TIMEOUT + 1 ∧
      (s.dev.clock.stopped = true →
        (∃ k ∈ s.dev.hz.inbound, k.peer = i.peer ∧ k.ctx = c.val ∧ k.incarn = i.incarn ∧ k.epoch8 = i.epoch8 ∧
          k.deadline ≤ s.dev.clock.frame ∧ t.dev.hz.stopQueue = s.dev.hz.stopQueue ++ [.retract c.val k.depend 3, .fail c.val 2]) ∧
        (∀ j ∈ t.dev.hz.inbound, ¬ (j.peer = i.peer ∧ j.ctx = c.val ∧ j.incarn = i.incarn ∧ j.epoch8 = i.epoch8 ∧
          j.deadline ≤ s.dev.clock.frame))) ∧
      (s.dev.clock.stopped = false → (s.dev.ctx c.val).core.state = .active →
        (t.dev.ctx c.val).core.state = .failed ∧
        (min 0xFF ((s.dev.ctx c.val).hz.retracts + 1) ≤ s.dev.zf Reg.ZN_HZ_CTL 7 0 → (t.dev.ctx c.val).core.failReason = 2) ∧
        ((∃ e ∈ (s.dev.ctx c.val).hz.epochs, e.fate = .live) → (t.dev.ctx c.val).hz.retractPend = true)) ∧
      State.SameBut [.ctxs, .dbg, .hz, .jnl, .reg Reg.ZN_HZ_CNT_TIMEOUT] s t) ∧
  (∀ (c : CtxId) (step : Word) (e : Epoch) (q : Suspect) (s : State), s.dev.clock.stopped = false →
    (s.dev.ctx c.val).core.state = .active → e ∈ (s.dev.ctx c.val).hz.epochs → e.fate = .live → q ∈ e.suspects → q.real = true →
    q.step = step → q.since + s.dev.zf Reg.ZN_HZ_REPLAY_WAIT 22 0 ≤ s.dev.clock.frame →
    ∃ t, exec (.replayWaitExpire c step) s = .next t ∧ (t.dev.ctx c.val).core.state = .failed ∧
      (t.dev.ctx c.val).core.failReason = 5 ∧ (t.dev.ctx c.val).hz.retractPend = true ∧
      State.SameBut [.ctxs, .dbg, .hz, .jnl] s t) ∧
  (∀ (p : Path) (c : Nat) (s : State), s.dev.takesZ p Reg.ZN_HZ_CTX_CMD 1 → c = s.dev.zf Reg.ZN_CTX_SEL 9 0 →
    ∃ t, exec (.resume p) s = .next t ∧
      ((s.dev.ctx c).hz.retractPend = false → t = s) ∧
      ((s.dev.ctx c).hz.retractPend = true → (s.dev.ctx c).hz.againAt ≠ some s.dev.clock.frame →
        (t.dev.ctx c).hz.retractPend = false) ∧
      ((s.dev.ctx c).hz.againAt = some s.dev.clock.frame → (t.dev.ctx c).hz.retractPend = (s.dev.ctx c).hz.retractPend) ∧
      ((s.dev.ctx c).hz.retractPend = true → (t.dev.ctx c).hz.firstNext = true ∧
        (t.dev.ctx c).hz.openNext = (s.dev.ctx c).hz.openNext ∧ (t.dev.ctx c).hz.epochs = (s.dev.ctx c).hz.epochs ∧
        (t.dev.ctx c).hz.epoch = (s.dev.ctx c).hz.epoch) ∧
      ((s.dev.ctx c).hz.everOpened = true → (t.dev.ctx c).hz.open_.epoch = (s.dev.ctx c).hz.epoch + 1) ∧
      (∀ k : Nat, k ≠ c → t.dev.ctx k = s.dev.ctx k) ∧ State.SameBut [.ctxs] s t) ∧
  (∀ (p : Path) (bank : BankId) (r : ReplayReq) (rest : List ReplayReq) (ticket : BitVec 16) (s : State),
    s.dev.takesAt p (.bk bank.val Reg.BK_CC_ANSWER) (w32 (1 + 65536 * ticket.toNat)) →
    (s.dev.bank bank.val).cc.replays = r :: rest → r.ticket = ticket.toNat → s.dev.byTicket r.ticket = none →
    ∃ t, exec (.ccAnswerDone p bank ticket) s = .next t ∧ (t.dev.bank bank.val).cc.replays = rest ∧
      ((s.dev.ctx r.ctx).core.state = .failed → (s.dev.ctx r.ctx).core.failReason = 5 →
        t.dev.zreg Reg.ZN_HANG_CNT_LATE = s.dev.zreg Reg.ZN_HANG_CNT_LATE + 1) ∧
      ((s.dev.ctx r.ctx).core.state ≠ .failed ∨ (s.dev.ctx r.ctx).core.failReason ≠ 5 →
        t.dev.zreg Reg.ZN_HZ_CNT_REPLAYS = s.dev.zreg Reg.ZN_HZ_CNT_REPLAYS + 1) ∧
      (∀ pos, (s.dev.bank bank.val).cc.posOf r.core = some pos → (t.dev.wisp bank.val pos).opens = []) ∧
      State.SameBut [.banks, .hz, .jnl, .port, .wisps, .reg Reg.ZN_HANG_CNT_LATE, .reg Reg.ZN_HZ_CNT_REPLAYS,
        .reg Reg.ZN_STOP_LOST] s t) ∧
  (∀ (p : Path) (bank : BankId) (r : ReplayReq) (rest : List ReplayReq) (ticket : BitVec 16) (c : Nat) (ep : Word) (q : Suspect)
    (run : RunId) (s : State), s.dev.takesAt p (.bk bank.val Reg.BK_CC_ANSWER) (w32 (1 + 65536 * ticket.toNat)) →
    (s.dev.bank bank.val).cc.replays = r :: rest → r.ticket = ticket.toNat → s.dev.byTicket r.ticket = some (c, ep, q, run) →
    ∃ t, exec (.ccAnswerDone p bank ticket) s = .next t ∧
      t.dev.zreg Reg.ZN_HZ_CNT_REPLAYS = s.dev.zreg Reg.ZN_HZ_CNT_REPLAYS + 1) ∧
  (∀ (p : Path) (bank : BankId) (r : ReplayReq) (rest : List ReplayReq) (ticket : BitVec 16) (s : State),
    s.dev.takesAt p (.bk bank.val Reg.BK_CC_ANSWER) (w32 (2 + 65536 * ticket.toNat)) →
    (s.dev.bank bank.val).cc.replays = r :: rest → r.ticket = ticket.toNat →
    ∃ t, exec (.ccAnswerNofit p bank ticket) s = .next t ∧ (t.dev.bank bank.val).cc.replays = rest ∧
      (∀ c ep q run, s.dev.byTicket r.ticket = some (c, ep, q, run) →
        t.dev.zreg Reg.ZN_HZ_CNT_ABANDONED = s.dev.zreg Reg.ZN_HZ_CNT_ABANDONED + 1) ∧
      State.SameBut [.banks, .ctxs, .port, .reg Reg.ZN_HZ_CNT_ABANDONED] s t) ∧
  (∀ (p : Path) (bank : BankId) (ticket : BitVec 16) (s : State),
    s.dev.takesAt p (.bk bank.val Reg.BK_CC_ANSWER) (w32 (1 + 65536 * ticket.toNat)) → (s.dev.bank bank.val).cc.replays = [] →
    ∃ t, exec (.ccAnswerDone p bank ticket) s = .next t ∧
      t.dev.zreg Reg.ZN_CFG_CNT_REJECT = s.dev.zreg Reg.ZN_CFG_CNT_REJECT + 1)

/-! ## Unit health and field tests -/

/-- TEST_DUE, GRACE_EXPIRE, HAZE_CLEAR_AGE, DAWN_AGE_QUALIFY and CE_WINDOW_RESTART outside a stop.
The model's readings in it: log entries 73, 74, 75, 76, 77 and 187. -/
def Obligations.AgesMakeTestsDueAndUnitsClear : Prop :=
  (∀ (u : UnitId) (tier : Nat) (s : State), s.dev.clock.stopped = false → unitKind u.val = .core →
    s.dev.tierReached u.val 0 = some tier →
    ∃ t, exec (.testDue u) s = .next t ∧ (t.dev.uht u.val).due = true ∧
      ((s.dev.uht u.val).due = false → (t.dev.uht u.val).dueTier = tier ∧ (t.dev.uht u.val).dueAt = s.dev.health.graceClock ∧
        (t.dev.uht u.val).overdue = false) ∧
      ((s.dev.uht u.val).due = true → (t.dev.uht u.val).dueTier = max (s.dev.uht u.val).dueTier tier ∧
        (t.dev.uht u.val).dueAt = (s.dev.uht u.val).dueAt ∧ (t.dev.uht u.val).overdue = (s.dev.uht u.val).overdue) ∧
      (t.dev.uht u.val).state = (s.dev.uht u.val).state ∧ (∀ v : Nat, v ≠ u.val → t.dev.uht v = s.dev.uht v) ∧
      ((s.dev.wisp (u.val / 264) (u.val % 264)).pat.valid = true → (t.dev.wisp (u.val / 264) (u.val % 264)).pat.checking = true) ∧
      (∀ b p : Nat, coreUnit b p ≠ u.val → t.dev.wisp b p = s.dev.wisp b p) ∧ State.SameBut [.health, .wisps] s t) ∧
  (∀ (u : UnitId) (s : State), (s.dev.uht u.val).state = .clear → s.dev.zf Reg.ZN_TST_PER_CLEAR 5 0 = 0 →
    s.dev.zf Reg.ZN_TST_PER_CLEAR 11 6 = 0 → s.dev.zf Reg.ZN_TST_PER_T2 5 0 = 0 → exec (.testDue u) s = .next s) ∧
  (∀ (u : UnitId) (s : State), s.dev.clock.stopped = false → unitKind u.val = .core → (s.dev.uht u.val).state = .clear →
    s.dev.zf Reg.ZN_TST_PER_T2 5 0 ≠ 0 →
    2 ^ s.dev.zf Reg.ZN_TST_PER_T2 5 0 ≤ 256 * ageOf (s.dev.visits u.val) (s.dev.uht u.val).t2Base →
    ∃ t, exec (.testDue u) s = .next t ∧ (t.dev.uht u.val).due = true ∧ 2 ≤ (t.dev.uht u.val).dueTier) ∧
  (∀ (u : UnitId) (s : State), s.dev.clock.stopped = false → unitKind u.val = .core → (s.dev.uht u.val).due = true →
    (s.dev.uht u.val).overdue = false → s.dev.testing u.val = false →
    (s.dev.uht u.val).dueAt + s.dev.zf Reg.ZN_TST_GRACE 24 0 ≤ s.dev.health.graceClock →
    ∃ t, exec (.graceExpire u) s = .next t ∧ (t.dev.uht u.val).overdue = true ∧ (t.dev.uht u.val).due = true ∧
      t.dev.zreg Reg.ZN_TST_CNT_OVERDUE = s.dev.zreg Reg.ZN_TST_CNT_OVERDUE + 1 ∧
      ((s.dev.healthOf u.val = .clear ∨ s.dev.healthOf u.val = .dawn) →
        t.dev.healthOf u.val = .haze ∧ (t.dev.uht u.val).reason = 0x06) ∧
      (s.dev.healthOf u.val ≠ .clear → s.dev.healthOf u.val ≠ .dawn → t.dev.healthOf u.val = s.dev.healthOf u.val) ∧
      (∀ v : Nat, v ≠ u.val → t.dev.uht v = s.dev.uht v) ∧
      State.SameBut [.afsin, .health, .jnl, .reg Reg.ZN_AFS_CNT_LOST, .reg Reg.ZN_AFS_CNT_SENT, .reg Reg.ZN_TST_CNT_OVERDUE,
        .reg Reg.ZN_UHT_CNT_HAZE] s t) ∧
  (∀ (u : UnitId) (s : State), s.dev.clock.stopped = false → unitKind u.val ≠ .reserved → s.dev.zf Reg.ZN_UHT_WIN 13 8 ≠ 0 →
    s.dev.healthOf u.val = .haze → s.dev.isDue u.val = false → (s.dev.uht u.val).unwatched = false →
    (s.dev.uht u.val).patMissing = false → 2 ^ s.dev.zf Reg.ZN_UHT_WIN 13 8 ≤ s.dev.cleanFrames u.val →
    ∃ t, exec (.hazeClearAge u) s = .next t ∧ t.dev.healthOf u.val = .clear ∧ (t.dev.uht u.val).reason = 0x11 ∧
      (t.dev.uht u.val).charges = 0 ∧ (t.dev.uht u.val).fails = 0 ∧
      t.dev.zreg Reg.ZN_UHT_CNT_CLEAR = s.dev.zreg Reg.ZN_UHT_CNT_CLEAR + 1 ∧ (∀ v : Nat, v ≠ u.val → t.dev.uht v = s.dev.uht v) ∧
      State.SameBut [.afsin, .health, .jnl, .reg Reg.ZN_AFS_CNT_LOST, .reg Reg.ZN_AFS_CNT_SENT, .reg Reg.ZN_UHT_CNT_CLEAR] s t) ∧
  (∀ (u : UnitId) (s : State), s.dev.zf Reg.ZN_UHT_WIN 13 8 = 0 ∨ s.dev.healthOf u.val ≠ .haze ∨ s.dev.isDue u.val = true ∨
    s.dev.cleanFrames u.val < 2 ^ s.dev.zf Reg.ZN_UHT_WIN 13 8 → exec (.hazeClearAge u) s = .next s) ∧
  (∀ (u : UnitId) (s : State), s.dev.clock.stopped = false →
    (unitKind u.val = .slice ∨ unitKind u.val = .region ∨ unitKind u.val = .lane ∨ unitKind u.val = .channel) →
    s.dev.zf Reg.ZN_UHT_DAWN_AGE 5 0 ≠ 0 → s.dev.healthOf u.val = .dawn →
    2 ^ s.dev.zf Reg.ZN_UHT_DAWN_AGE 5 0 ≤ s.dev.cleanFrames u.val →
    ∃ t, exec (.dawnAgeQualify u) s = .next t ∧ t.dev.healthOf u.val = .clear ∧ (t.dev.uht u.val).reason = 0x12 ∧
      (∀ v : Nat, v ≠ u.val → t.dev.uht v = s.dev.uht v) ∧
      State.SameBut [.afsin, .health, .jnl, .reg Reg.ZN_AFS_CNT_LOST, .reg Reg.ZN_AFS_CNT_SENT, .reg Reg.ZN_UHT_CNT_CLEAR] s t) ∧
  (∀ (u : UnitId) (s : State), unitKind u.val = .core ∨ unitKind u.val = .anvil ∨ unitKind u.val = .bank →
    exec (.dawnAgeQualify u) s = .next s) ∧
  (∀ s : State, s.dev.zf Reg.ZN_UHT_CE 13 8 ≠ 0 → s.dev.health.ceWindow + 2 ^ s.dev.zf Reg.ZN_UHT_CE 13 8 ≤ s.dev.clock.frame →
    ∃ t, exec .ceWindowRestart s = .next t ∧ t.dev.health.ceWindow = s.dev.clock.frame ∧
      (∀ u : Nat, t.dev.healthOf u = s.dev.healthOf u) ∧ State.SameBut [.health] s t)

/-- UHT_READ and UHT_SET where the write is accepted; a SET that takes an isolated Anvil or Bank out of Eclipse starts a reset
first (R353). The model's readings in it: log entries 6, 16, 78 and 173. -/
def Obligations.HealthTableCommands : Prop :=
  (∀ (p : Path) (s : State), s.dev.takesZ p Reg.ZN_UHT_CMD 1 →
    ∃ t, exec (.uhtRead p) s = .next t ∧ (t.dev.path p).uht.valid = true ∧
      (t.dev.path p).uht.data = s.dev.uhtWords (s.dev.zf Reg.ZN_UHT_SEL 16 0) ∧
      (∀ q : Path, pathNo q ≠ pathNo p → t.dev.path q = s.dev.path q) ∧ State.SameBut [.port] s t) ∧
  (∀ (p : Path) (u : Nat) (st : Health) (s : State), s.dev.takesZ p Reg.ZN_UHT_CMD 2 → u = s.dev.zf Reg.ZN_UHT_SEL 16 0 →
    (unitKind u = .core ∨ unitKind u = .slice ∨ unitKind u = .region ∨ unitKind u = .lane ∨ unitKind u = .channel) →
    Health.ofCode (s.dev.zf Reg.ZN_UHT_SETVAL 2 0) = some st → s.dev.clock.stopped = false →
    ∃ t, exec (.uhtSet p) s = .next t ∧ t.dev.healthOf u = st ∧
      (s.dev.zf Reg.ZN_UHT_SETVAL 15 8 ≤ 0x17 → (t.dev.uht u).reason = s.dev.zf Reg.ZN_UHT_SETVAL 15 8) ∧
      (0x18 ≤ s.dev.zf Reg.ZN_UHT_SETVAL 15 8 → (t.dev.uht u).reason = (s.dev.uht u).reason) ∧
      (t.dev.uht u).charges = 0 ∧ (t.dev.uht u).fails = 0 ∧
      t.dev.zreg Reg.ZN_UHT_CNT_SET = s.dev.zreg Reg.ZN_UHT_CNT_SET + 1 ∧ (∀ v : Nat, v ≠ u → t.dev.uht v = s.dev.uht v) ∧
      State.SameBut [.afsin, .banks, .health, .jnl, .wisps, .reg Reg.ZN_AFS_CNT_LOST, .reg Reg.ZN_AFS_CNT_SENT,
        .reg Reg.ZN_UHT_CNT_CLEAR, .reg Reg.ZN_UHT_CNT_HAZE, .reg Reg.ZN_UHT_CNT_OVERCAST, .reg Reg.ZN_UHT_CNT_ECLIPSE,
        .reg Reg.ZN_UHT_CNT_SET] s t) ∧
  (∀ (p : Path) (u : Nat) (st : Health) (s : State), s.dev.takesZ p Reg.ZN_UHT_CMD 2 → u = s.dev.zf Reg.ZN_UHT_SEL 16 0 →
    (unitKind u = .core ∨ unitKind u = .slice ∨ unitKind u = .region ∨ unitKind u = .lane ∨ unitKind u = .channel) →
    Health.ofCode (s.dev.zf Reg.ZN_UHT_SETVAL 2 0) = some st → s.dev.clock.stopped = true →
    ∃ t, exec (.uhtSet p) s = .next t ∧
      t.dev.clock.stopHealth = s.dev.clock.stopHealth ++ [(u, .set st (s.dev.zf Reg.ZN_UHT_SETVAL 15 8))] ∧
      State.SameBut [.clock] s t) ∧
  (∀ (p : Path) (s : State), s.dev.takesZ p Reg.ZN_UHT_CMD 2 →
    unitKind (s.dev.zf Reg.ZN_UHT_SEL 16 0) = .reserved ∨ Health.ofCode (s.dev.zf Reg.ZN_UHT_SETVAL 2 0) = none →
    exec (.uhtSet p) s = .next s) ∧
  (∀ (p : Path) (b : Nat) (s : State), s.dev.takesZ p Reg.ZN_UHT_CMD 2 → b < 192 →
    s.dev.zf Reg.ZN_UHT_SEL 16 0 = anvilUnit b → (s.dev.bank b).anv.isolated = true → s.dev.healthOf (anvilUnit b) = .eclipse →
    s.dev.zf Reg.ZN_UHT_SETVAL 2 0 = 0 →
    ∃ t, exec (.uhtSet p) s = .next t ∧ t.dev.healthOf (anvilUnit b) = .eclipse ∧ (t.dev.bank b).anv.resetAt.isSome = true)

/-- TEST_LAUNCH, STASH_SAVE_DONE, TEST_DONE, TEST_LIMIT and RESTORE_DONE; `y` is the test with the reason that the frame in progress
shows. The model's readings in it: log entries 79, 80, 81, 82, 165 and 186. -/
def Obligations.FieldTestsRunAndEnd : Prop :=
  (∀ (bank : BankId) (pos : Pos) (tier : Nat) (s : State), s.dev.clock.stopped = false → s.dev.bankDown bank.val = false →
    s.dev.start.ready = true → s.dev.sdActive = false → s.dev.isDue (coreUnit bank.val pos.val) = true →
    tier = s.dev.tierDue (coreUnit bank.val pos.val) → s.dev.testReady bank.val pos.val tier = true →
    s.dev.permit bank.val pos.val ≠ .no →
    ∃ t x, exec (.testLaunch bank pos) s = .next t ∧ t.dev.testOn bank.val pos.val = some x ∧ x.tier = tier ∧
      x.startFrame = s.dev.clock.frame ∧ x.voidReason = 0 ∧
      (((s.dev.bank bank.val).cc.logicalOf pos.val).isSome = true → x.phase = .saving ∧ x.stash = stashBytes tier ∧
        stashPlace s.dev.stashSize x.stash s.dev.stashTaken = some x.at_) ∧
      ((s.dev.bank bank.val).cc.logicalOf pos.val = none → x.phase = .running ∧ x.stash = 0) ∧
      (s.dev.permit bank.val pos.val = .free → x.hold = none ∧
        ∀ q : Nat, q ≠ pos.val → t.dev.testOn bank.val q = s.dev.testOn bank.val q) ∧
      (∀ c, s.dev.permit bank.val pos.val = .boundary c → x.hold = some c) ∧
      (∀ b : Nat, b ≠ bank.val → t.dev.bank b = s.dev.bank b) ∧ State.SameBut [.banks, .health] s t) ∧
  (∀ (bank : BankId) (pos : Pos) (s : State), s.dev.clock.stopped = true ∨ s.dev.sdActive = true ∨
    s.dev.isDue (coreUnit bank.val pos.val) = false ∨ s.dev.permit bank.val pos.val = .no →
    exec (.testLaunch bank pos) s = .next s) ∧
  (∀ (size n p : Nat) (taken : List (Nat × Nat)), stashPlace size n taken = some p →
    p + n ≤ size ∧ ∀ e ∈ taken, p + n ≤ e.1 ∨ e.1 + e.2 ≤ p) ∧
  (∀ (bank : BankId) (pos : Pos) (x : Test) (s : State), s.dev.testOn bank.val pos.val = some x → x.phase = .saving →
    ∃ t, exec (.stashSaveDone bank pos) s = .next t ∧ t.pending = s.pending ∧
      t.dev.testOn bank.val pos.val = some { x with
        phase := .starting
        since := s.dev.clock.frame
        crcs := (List.range (stashBlocks x.tier)).map (fun i => crc32c (s.mem.blockBytes (s.dev.sliceAddr bank.val pos.val i))) } ∧
      (∀ a : Nat, (∀ c k : Nat, c < 2 → k < stashBytes x.tier → a ≠ (s.dev.stashBase c x + k) % 2 ^ 48) →
        t.mem.byte a = s.mem.byte a) ∧ (∀ a : Nat, t.mem.slot a = s.mem.slot a) ∧
      (∀ q : Nat, q ≠ pos.val → t.dev.testOn bank.val q = s.dev.testOn bank.val q) ∧
      (∀ b : Nat, b ≠ bank.val → t.dev.bank b = s.dev.bank b) ∧ Dev.SameBut [.banks] s.dev t.dev ∧
      (∀ L A B n i : Nat, L = s.dev.sliceAddr bank.val pos.val 0 → A = s.dev.stashBase 0 x → B = s.dev.stashBase 1 x →
        n = stashBlocks x.tier → i < n → L + 4096 * n ≤ 2 ^ 48 → A + 4104 * n ≤ 2 ^ 48 → B + 4104 * n ≤ 2 ^ 48 →
        (A + 4104 * n ≤ L ∨ L + 4096 * n ≤ A) → (B + 4104 * n ≤ L ∨ L + 4096 * n ≤ B) → (A + 4104 * n ≤ B ∨ B + 4104 * n ≤ A) →
        t.mem.copyBytes A n i = s.mem.blockBytes (L + 4096 * i) ∧ t.mem.copyBytes B n i = s.mem.blockBytes (L + 4096 * i))) ∧
  (∀ (bank : BankId) (pos : Pos) (addr : Addr) (data : List Byte) (x : Test) (s : State), s.dev.testOn bank.val pos.val = some x →
    x.phase = .running → s.dev.wispUp bank.val pos.val = true → data.length ≤ 32 →
    ∃ t, exec (.carriedStore bank pos addr data) s = .next t ∧ t.pending = s.pending ∧
      t.dev.testOn bank.val pos.val = some ((blocksOf (s.dev.testCmd bank.val pos.val) addr.toNat data.length).foldl
        (Test.storeBlk t.mem (s.dev.testCmd bank.val pos.val) addr.toNat data) x) ∧ Dev.SameBut [.banks] s.dev t.dev) ∧
  (∀ (bank : BankId) (pos : Pos) (x y : Test) (s : State), s.dev.testOn bank.val pos.val = some x →
    x.phase = .running → y = x.invalid (s.dev.reasonNow bank.val pos.val) s.dev.clock.frame →
    ∃ t, exec (.testDone bank pos true) s = .next t ∧ t.pending = s.pending ∧ t.mem = s.mem ∧
      (y.voidReason ≠ 0 → t.dev.zreg Reg.ZN_TST_CNT_VOID = s.dev.zreg Reg.ZN_TST_CNT_VOID + 1 ∧
        t.dev.zreg Reg.ZN_TST_CNT_PASS = s.dev.zreg Reg.ZN_TST_CNT_PASS ∧
        t.dev.zreg Reg.ZN_TST_CNT_FAIL = s.dev.zreg Reg.ZN_TST_CNT_FAIL) ∧
      (y.voidReason = 0 → (s.dev.wisp bank.val pos.val).pat.sigs[x.tier]? = some (x.total s.mem) →
        t.dev.zreg Reg.ZN_TST_CNT_PASS = s.dev.zreg Reg.ZN_TST_CNT_PASS + 1 ∧
        t.dev.zreg Reg.ZN_TST_CNT_FAIL = s.dev.zreg Reg.ZN_TST_CNT_FAIL) ∧
      (y.voidReason = 0 → (s.dev.wisp bank.val pos.val).pat.sigs[x.tier]? ≠ some (x.total s.mem) →
        t.dev.zreg Reg.ZN_TST_CNT_FAIL = s.dev.zreg Reg.ZN_TST_CNT_FAIL + 1 ∧
        t.dev.zreg Reg.ZN_TST_CNT_PASS = s.dev.zreg Reg.ZN_TST_CNT_PASS ∧
        (x.tier = 2 → s.dev.clock.stopped = false →
          t.dev.healthOf (coreUnit bank.val pos.val) = .eclipse ∧
          (s.dev.healthOf (coreUnit bank.val pos.val) ≠ .eclipse → (t.dev.uht (coreUnit bank.val pos.val)).reason = 0x09))) ∧
      (x.stash = 0 → t.dev.testOn bank.val pos.val = none) ∧
      (x.stash ≠ 0 → t.dev.testOn bank.val pos.val = some { y with phase := .restoring, since := s.dev.clock.frame })) ∧
  (∀ (bank : BankId) (pos : Pos) (ended : Bool) (s : State),
    ended = false ∨ (∀ x, s.dev.testOn bank.val pos.val = some x → x.phase ≠ .running) →
    exec (.testDone bank pos ended) s = .next s) ∧
  (∀ (bank : BankId) (pos : Pos) (x : Test) (s : State), s.dev.testOn bank.val pos.val = some x → x.phase = .running →
    x.startFrame + tierLimit x.tier ≤ s.dev.clock.frame → x.voidReason = 0 → s.dev.reasonNow bank.val pos.val = 0 →
    ∃ t, exec (.testLimit bank pos) s = .next t ∧ t.pending = s.pending ∧ t.mem = s.mem ∧
      t.dev.zreg Reg.ZN_TST_CNT_FAIL = s.dev.zreg Reg.ZN_TST_CNT_FAIL + 1) ∧
  (∀ (bank : BankId) (pos : Pos) (x : Test) (s : State), s.dev.testOn bank.val pos.val = some x →
    s.dev.clock.frame < x.startFrame + tierLimit x.tier → exec (.testLimit bank pos) s = .next s) ∧
  (∀ (bank : BankId) (pos : Pos) (fA fB : List (Nat × Byte)) (x : Test) (s : State), s.dev.testOn bank.val pos.val = some x →
    x.phase = .restoring →
    ∃ t, exec (.restoreDone bank pos fA fB) s = .next t ∧ t.pending = s.pending ∧ t.dev.testOn bank.val pos.val = none ∧
      (∀ L A n : Nat, fA = [] → fB = [] → L = s.dev.sliceAddr bank.val pos.val 0 → A = s.dev.stashBase 0 x → n = stashBlocks x.tier →
        L + 4096 * n ≤ 2 ^ 48 → A + 4104 * n ≤ 2 ^ 48 → (A + 4104 * n ≤ L ∨ L + 4096 * n ≤ A) →
        (∀ i, i < n → crc32c (s.mem.copyBytes A n i) = x.crcs.getD i 0) →
        (∀ i, i < n → t.mem.blockBytes (L + 4096 * i) = s.mem.copyBytes A n i) ∧
        (∀ a : Nat, (∀ k, k < 4096 * n → a ≠ L + k) → t.mem.byte a = s.mem.byte a) ∧ Dev.SameBut [.banks, .pat] s.dev t.dev)) ∧
  (∀ (b p i n : Nat) (x : Test) (s : State), n = stashBlocks x.tier →
    (s.mem.copyFor (s.dev.stashBase 0 x) (s.dev.stashBase 1 x) n i (x.crcs.getD i 0) = some true →
      (restoreBlock b p x s i).mem = s.mem.unstashBlock (s.dev.sliceAddr b p i) (s.dev.stashBase 1 x) n i ∧
      (restoreBlock b p x s i).dev.zreg Reg.ZN_TST_CNT_COPYB = s.dev.zreg Reg.ZN_TST_CNT_COPYB + 1) ∧
    (s.mem.copyFor (s.dev.stashBase 0 x) (s.dev.stashBase 1 x) n i (x.crcs.getD i 0) = none →
      (restoreBlock b p x s i).mem.slot (s.dev.sliceAddr b p i) = 0 ∧
      (restoreBlock b p x s i).dev.zreg Reg.ZN_TST_CNT_STASH_LOST = s.dev.zreg Reg.ZN_TST_CNT_STASH_LOST + 1))

/-- REMAP_APPLY, TAKE, TEST_REQ_START, TEST_REQ_CANCEL and ON_DEMAND_EXPIRE; the register commands where the write is accepted.
The model's readings in it: log entries 6, 16, 76, 82, 83, 84 and 187. -/
def Obligations.RemapsAndTestRequests : Prop :=
  (∀ (bank : BankId) (n : Logical) (s : State), s.dev.clock.stopped = false → s.dev.bankDown bank.val = false →
    n.val ∈ (s.dev.bank bank.val).cc.remapReady →
    ∃ t, exec (.remapApply bank n) s = .next t ∧
      (∀ p, s.dev.spareOf bank.val = some p → (s.dev.bank bank.val).cc.remaps.length < 8 →
        (t.dev.bank bank.val).cc.posOf n.val = some p ∧
        (s.dev.sdActive = false → (t.dev.bank bank.val).cc.remaps = (s.dev.bank bank.val).cc.remaps ++
          [{ logical := n.val, oldPos := Tbl.getK (fun i => i) (s.dev.bank bank.val).cc.map n.val, newPos := p }]) ∧
        (s.dev.sdActive = true → (t.dev.bank bank.val).cc.remaps = (s.dev.bank bank.val).cc.remaps) ∧
        t.dev.zreg Reg.ZN_UHT_CNT_REMAP = s.dev.zreg Reg.ZN_UHT_CNT_REMAP + 1 ∧
        (∀ m : Nat, m ≠ n.val → (t.dev.bank bank.val).cc.posOf m = (s.dev.bank bank.val).cc.posOf m) ∧
        (∀ b : Nat, b ≠ bank.val → (t.dev.bank b).cc = (s.dev.bank b).cc)) ∧
      (s.dev.spareOf bank.val = none → n.val ∉ (s.dev.bank bank.val).cc.vacant → s.dev.inEclipse bank.val n.val = true →
        n.val ∈ (t.dev.bank bank.val).cc.vacant ∧ (t.dev.bank bank.val).cc.posOf n.val = none ∧
        (t.dev.bank bank.val).cc.map = (s.dev.bank bank.val).cc.map) ∧
      (s.dev.spareOf bank.val = none → s.dev.inEclipse bank.val n.val = false → n.val ∉ (s.dev.bank bank.val).cc.vacant →
        (t.dev.bank bank.val).cc.posOf n.val = (s.dev.bank bank.val).cc.posOf n.val ∧
        n.val ∉ (t.dev.bank bank.val).cc.remapReady ∧ State.SameBut [.banks] s t) ∧
      State.SameBut [.afsin, .banks, .dbg, .jnl, .reg Reg.ZN_AFS_CNT_LOST, .reg Reg.ZN_AFS_CNT_SENT, .reg Reg.ZN_STOP_LOST,
        .reg Reg.ZN_UHT_CNT_REMAP] s t) ∧
  (∀ (bank : BankId) (n : Logical) (s : State), n.val ∉ (s.dev.bank bank.val).cc.remapReady → exec (.remapApply bank n) s = .next s) ∧
  (∀ (p : Path) (bank : BankId) (s : State), s.dev.takesAt p (.bk bank.val Reg.BK_CC_RMP_TAKE) 1 →
    ∃ t, exec (.take p bank) s = .next t ∧ (t.dev.bank bank.val).cc.remaps = (s.dev.bank bank.val).cc.remaps.drop 1 ∧
      (∀ b : Nat, b ≠ bank.val → t.dev.bank b = s.dev.bank b) ∧ State.SameBut [.banks, .port] s t) ∧
  (∀ (p : Path) (first n tier : Nat) (s : State), s.dev.takesZ p Reg.ZN_TST_REQ_CMD 1 →
    first = s.dev.zf Reg.ZN_TST_REQ_SEL 16 0 → n = s.dev.zf Reg.ZN_TST_REQ_COUNT 16 0 → tier = s.dev.zf Reg.ZN_TST_REQ_SEL 19 18 →
    bitOf (s.dev.zreg Reg.ZN_TST_REQ_SEL) 17 = false →
    ∃ t, exec (.testReqStart p) s = .next t ∧
      ((∃ r, s.dev.health.request = some r ∧ r.running = true) →
        t.dev.zf Reg.ZN_TST_REQ_STAT 2 0 = 4 ∧ t.dev.health = s.dev.health) ∧
      ((∀ r, s.dev.health.request = some r → r.running = false) →
        (tier = 3 → t.dev.zf Reg.ZN_TST_REQ_STAT 2 0 = 5 ∧ t.dev.health = s.dev.health) ∧
        (tier ≠ 3 → n = 0 → t.dev.zf Reg.ZN_TST_REQ_STAT 2 0 = 3 ∧ t.dev.health = s.dev.health) ∧
        (tier ≠ 3 → n ≠ 0 → 50688 < first + n → t.dev.zf Reg.ZN_TST_REQ_STAT 2 0 = 5 ∧ t.dev.health = s.dev.health) ∧
        (tier ≠ 3 → n ≠ 0 → first + n ≤ 50688 → t.dev.zf Reg.ZN_TST_REQ_STAT 2 0 = 1 ∧
          ∃ r, t.dev.health.request = some r ∧ r.running = true ∧ r.tier = tier ∧ r.start = s.dev.health.graceClock ∧
            (∀ u : Nat, u ∈ r.units ↔ first ≤ u ∧ u < first + n)) ∧
        (tier ≠ 3 → first + n ≤ 50688 → ∀ u : Nat, first ≤ u → u < first + n →
          (s.dev.wisp (u / 264) (u % 264)).pat.valid = true → (t.dev.wisp (u / 264) (u % 264)).pat.checking = true)) ∧
      State.SameBut [.health, .wisps, .reg Reg.ZN_TST_REQ_STAT] s t) ∧
  (∀ (p : Path) (s : State), s.dev.takesZ p Reg.ZN_TST_REQ_CMD 2 →
    ∃ t, exec (.testReqCancel p) s = .next t ∧ (∀ r, t.dev.health.request = some r → r.running = false) ∧
      ((∃ r, s.dev.health.request = some r ∧ r.running = true) → t.dev.zf Reg.ZN_TST_REQ_STAT 2 0 = 2) ∧
      t.dev.health.uht = s.dev.health.uht ∧ State.SameBut [.health, .reg Reg.ZN_TST_REQ_STAT] s t) ∧
  (∀ (r : OnDemand) (s : State), s.dev.health.request = some r → r.running = true →
    r.start + s.dev.zf Reg.ZN_TST_GRACE 24 0 ≤ s.dev.health.graceClock →
    ∃ t, exec .onDemandExpire s = .next t ∧ t.dev.zf Reg.ZN_TST_REQ_STAT 2 0 = 2 ∧
      (∃ q, t.dev.health.request = some q ∧ q.running = false ∧
        q.notRun = (r.units.filter (fun u => decide (u ∉ r.launched))).length) ∧
      State.SameBut [.health, .reg Reg.ZN_TST_REQ_STAT] s t) ∧
  (∀ (r : OnDemand) (s : State), s.dev.health.request = some r →
    s.dev.health.graceClock < r.start + s.dev.zf Reg.ZN_TST_GRACE 24 0 → exec .onDemandExpire s = .next s)

/-! ## Patterns -/

/-- INSTALL, PACKAGE_CHECK_DONE, REBCAST, PAT_SLOT_WRITE_DONE and PACKAGE_SLOT_READ_DONE; the register commands where the write is
accepted. The model's readings in it: log entries 6, 16, 85, 86, 87 and 92. -/
def Obligations.PackagesAreChecked : Prop :=
  (∀ (p : Path) (len : Nat) (s : State), s.dev.takesZ p Reg.ZN_PAT_CMD 1 → len = s.dev.zf Reg.ZN_PAT_LEN 23 0 →
    ∃ t, exec (.install p) s = .next t ∧ t.pending = s.pending ∧
      (len = 0 → t.dev.zf Reg.ZN_PAT_STAT 3 0 = 2 ∧ t.dev.pat = s.dev.pat ∧ t.mem = s.mem) ∧
      (len ≠ 0 → s.dev.patBusy = true → t.dev.zf Reg.ZN_PAT_STAT 3 0 = 3 ∧ t.dev.pat = s.dev.pat ∧ t.mem = s.mem) ∧
      (len ≠ 0 → s.dev.patBusy = false → t.dev.pat.stage = s.mem.read s.dev.patSrc len ∧
        t.dev.pat.installed = s.dev.pat.installed ∧ t.dev.zf Reg.ZN_PAT_STAT 3 0 = s.dev.zf Reg.ZN_PAT_STAT 3 0 ∧
        (∀ a base : Nat, s.dev.stageBase = some base → (∀ i < min len (9 * 2 ^ 20), a ≠ (base + i) % 2 ^ 48) →
          t.mem.byte a = s.mem.byte a) ∧ (∀ a : Nat, t.mem.slot a = s.mem.slot a)) ∧
      Dev.SameBut [.pat, .reg Reg.ZN_PAT_STAT] s.dev t.dev) ∧
  (∀ (p : Path) (s : State), s.dev.off = false → pathCc p = false → s.dev.locked = true → pathHost p = true →
    s.dev.refuse p (.zn Reg.ZN_PAT_CMD) 1 = some .frozen →
    ∃ t, exec (.install p) s = .next t ∧ t.dev.zf Reg.ZN_PAT_STAT 3 0 = 9 ∧
      t.dev.zreg Reg.ZN_ALM_CNT_FROZEN = s.dev.zreg Reg.ZN_ALM_CNT_FROZEN + 1 ∧
      State.SameBut [.reg Reg.ZN_PAT_STAT, .reg Reg.ZN_ALM_CNT_FROZEN] s t) ∧
  (∀ (l : List Byte) (s : State), s.dev.pat.stage ≠ [] → l = s.dev.pat.stage →
    ∃ t, exec .packageCheckDone s = .next t ∧ t.dev.pat.stage = [] ∧
      (∀ code : Nat,
        (64 ≤ l.length ∧ pkgImages l = 0 ∧ code = 2) ∨
        (¬ (64 ≤ l.length ∧ pkgImages l = 0) ∧ pkgFormatOk l = false ∧ code = 4) ∨
        (pkgFormatOk l = true ∧ pkgTargetOk l = false ∧ code = 5) ∨
        (pkgFormatOk l = true ∧ pkgTargetOk l = true ∧ s.dev.pkgSigOk l = false ∧ code = 6) ∨
        (pkgFormatOk l = true ∧ pkgTargetOk l = true ∧ s.dev.pkgSigOk l = true ∧
          (pkgVersion l < s.dev.aon.floor.toNat ∨ pkgVersion l < s.dev.pat.version.toNat) ∧ code = 7) ∨
        (pkgFormatOk l = true ∧ pkgTargetOk l = true ∧ s.dev.pkgSigOk l = true ∧ s.dev.aon.floor.toNat ≤ pkgVersion l ∧
          s.dev.pat.installed ≠ [] ∧ pkgVersion l = s.dev.pat.version.toNat ∧
          code = (if pkgDigest l = s.dev.pat.digest then 2 else 8)) →
        t.dev.zf Reg.ZN_PAT_STAT 3 0 = code ∧ t.dev.pat.installed = s.dev.pat.installed ∧ t.dev.pat.phase = s.dev.pat.phase ∧
        t.dev.zreg Reg.ZN_PAT_CNT_REJECT = s.dev.zreg Reg.ZN_PAT_CNT_REJECT + (if code = 2 then 0 else 1) ∧
        State.SameBut [.pat, .reg Reg.ZN_PAT_STAT, .reg Reg.ZN_PAT_CNT_REJECT] s t) ∧
      (pkgFormatOk l = true → pkgTargetOk l = true → s.dev.pkgSigOk l = true → s.dev.aon.floor.toNat ≤ pkgVersion l →
        s.dev.pat.version.toNat ≤ pkgVersion l → (s.dev.pat.installed = [] ∨ pkgVersion l ≠ s.dev.pat.version.toNat) →
        t.dev.pat.installed = l ∧ t.dev.pat.version = BitVec.ofNat 64 (pkgVersion l) ∧ t.dev.pat.durable = false ∧
        t.dev.aon.cacheValid = true ∧ t.dev.aon.cacheDigest = pkgDigest l ∧
        t.dev.pat.round = (s.dev.pat.round + 1) % 16 ∧ t.dev.pat.setup = 2 ∧ t.dev.pat.words = 0 ∧
        t.dev.zreg Reg.ZN_PAT_CNT_INSTALL = s.dev.zreg Reg.ZN_PAT_CNT_INSTALL + 1 ∧
        (t.dev.zf Reg.ZN_PAT_STAT 3 0 = 1 ∨ t.dev.zf Reg.ZN_PAT_STAT 3 0 = 0xA) ∧
        (s.dev.ledger.state ≠ .bound → t.dev.zf Reg.ZN_PAT_STAT 3 0 = 0xA)) ∧
      State.SameBut [.aon, .banks, .pat, .wisps, .reg Reg.ZN_PAT_CNT_INSTALL, .reg Reg.ZN_PAT_CNT_REJECT,
        .reg Reg.ZN_PAT_CNT_ROUNDS, .reg Reg.ZN_PAT_STAT] s t) ∧
  (∀ s : State, s.dev.pat.stage = [] → exec .packageCheckDone s = .next s) ∧
  (∀ (p : Path) (s : State), s.dev.takesZ p Reg.ZN_PAT_CMD 2 →
    ∃ t, exec (.rebcast p) s = .next t ∧ t.dev.pat.installed = s.dev.pat.installed ∧
      (s.dev.pat.installed = [] → t.dev.zf Reg.ZN_PAT_STAT 3 0 = 2 ∧ t.dev.pat = s.dev.pat) ∧
      (s.dev.pat.installed ≠ [] → s.dev.patBusy = true → t.dev.zf Reg.ZN_PAT_STAT 3 0 = 3 ∧ t.dev.pat = s.dev.pat) ∧
      (s.dev.pat.installed ≠ [] → s.dev.patBusy = false → t.dev.zf Reg.ZN_PAT_STAT 3 0 = 1 ∧
        t.dev.pat.round = (s.dev.pat.round + 1) % 16 ∧
        (∀ b : Nat, b ∈ t.dev.pat.banksLeft ↔ b < 192 ∧ s.dev.bankDown b = false) ∧
        t.dev.zreg Reg.ZN_PAT_CNT_ROUNDS = s.dev.zreg Reg.ZN_PAT_CNT_ROUNDS + 1) ∧
      State.SameBut [.banks, .pat, .wisps, .reg Reg.ZN_PAT_CNT_ROUNDS, .reg Reg.ZN_PAT_STAT] s t) ∧
  (∀ (ok : Bool) (slot : Nat) (s : State), s.dev.pat.slotWrite = some slot →
    ∃ t, exec (.patSlotWriteDone ok) s = .next t ∧ t.dev.pat.slotWrite = none ∧
      (ok = true → t.dev.pat.slot = slot ∧ t.dev.pat.slotVersion = s.dev.pat.version ∧ t.dev.pat.durable = true ∧
        Tbl.get [] t.dev.pat.slotBytes slot = s.dev.pat.installed ∧
        t.dev.aon.floor.toNat = max s.dev.aon.floor.toNat s.dev.pat.version.toNat) ∧
      (ok = false → t.dev.zf Reg.ZN_PAT_STAT 3 0 = 0xA ∧ t.dev.aon.floor = s.dev.aon.floor ∧ t.dev.pat.slot = s.dev.pat.slot ∧
        t.dev.pat.slotBytes = s.dev.pat.slotBytes) ∧
      t.dev.pat.installed = s.dev.pat.installed ∧ State.SameBut [.floor, .jnl, .ledger, .pat, .reg Reg.ZN_PAT_STAT] s t) ∧
  (∀ (ok : Bool) (s : State), s.dev.pat.slotWrite = none → exec (.patSlotWriteDone ok) s = .next s) ∧
  (∀ (bytes : List Byte) (i : Nat) (rest : List Nat) (s : State), s.dev.pat.readsLeft = i :: rest → i ≠ 2 →
    ∃ t, exec (.packageSlotReadDone bytes) s = .next t ∧
      (s.dev.candOk bytes = true → t.dev.pat.installed = bytes ∧ t.dev.pat.readsLeft = [] ∧
        t.dev.zreg Reg.ZN_PAT_CNT_INSTALL = s.dev.zreg Reg.ZN_PAT_CNT_INSTALL + 1 ∧ (∀ u : Nat, t.dev.uht u = s.dev.uht u)) ∧
      (∀ k ks, s.dev.candOk bytes = false → rest = k :: ks → k ≠ 2 →
        t.dev.pat = { s.dev.pat with readsLeft := rest } ∧ State.SameBut [.pat] s t)) ∧
  (∀ (bytes : List Byte) (s : State), s.dev.pat.readsLeft = [] → exec (.packageSlotReadDone bytes) s = .next s)

/-- PACKET_RECEIVE, IMAGE_CHECK_DONE, BROADCAST_TAIL_END, LATE_REPAIR and RETRY_ROUND.
The model's readings in it: log entries 88, 89, 90, 91, 93, 175, 187 and 188. -/
def Obligations.RoundsReachEveryWisp : Prop :=
  (∀ (bank : BankId) (pos : Pos) (item : ChannelItem) (flips : List (Fin 67 × Word)) (ws : List Word) (k : Nat) (s : State),
    ws = flipWords (s.dev.itemWords item) flips → k = bitsOf (ws.getD 0 0) 31 28 → s.dev.clock.stopped = false →
    s.dev.bankDown bank.val = false → (s.dev.wisp bank.val pos.val).missed = false → s.dev.itemNow bank.val item = true →
    ∃ t, exec (.packetReceive bank pos ⟨item, flips⟩) s = .next t ∧
      (k = 0 ∨ 4 ≤ k → t.dev.wisp bank.val pos.val = s.dev.wisp bank.val pos.val) ∧
      (1 ≤ k → k ≤ 3 → (s.dev.wisp bank.val pos.val).pat.bufferHit = true ∨
          crc32c ((ws.take 66).flatMap (fun x => leBytes 4 x.toNat)) ≠ ws.getD 66 0 →
        (t.dev.wisp bank.val pos.val).pat = { (s.dev.wisp bank.val pos.val).pat with bufferHit := false } ∧
        (t.dev.wisp bank.val pos.val).reg Reg.WS_PAT_CNT_PKT_CRC = (s.dev.wisp bank.val pos.val).reg Reg.WS_PAT_CNT_PKT_CRC + 1) ∧
      (∀ i : Nat, (s.dev.wisp bank.val pos.val).pat.bufferHit = false →
        crc32c ((ws.take 66).flatMap (fun x => leBytes 4 x.toNat)) = ws.getD 66 0 → (k = 1 ∨ (k = 2 ∧ bitsOf (ws.getD 1 0) 8 0 = pos.val)) →
        bitsOf (ws.getD 0 0) 27 24 = (s.dev.wisp bank.val pos.val).pat.round →
        bitsOf (ws.getD 0 0) 23 0 = (s.dev.wisp bank.val pos.val).pat.first + i → i < (s.dev.wisp bank.val pos.val).pat.count →
        Tbl.get [] (t.dev.wisp bank.val pos.val).pat.image i = (ws.drop 2 |>.take 64).flatMap (fun x => leBytes 4 x.toNat) ∧
        (∀ n : Nat, n ∈ (t.dev.wisp bank.val pos.val).pat.bitmap ↔ n = i ∨ n ∈ (s.dev.wisp bank.val pos.val).pat.bitmap)) ∧
      ((s.dev.wisp bank.val pos.val).pat.bufferHit = false →
        crc32c ((ws.take 66).flatMap (fun x => leBytes 4 x.toNat)) = ws.getD 66 0 →
        bitsOf (ws.getD 0 0) 27 24 ≠ (s.dev.wisp bank.val pos.val).pat.round →
        t.dev.wisp bank.val pos.val = s.dev.wisp bank.val pos.val) ∧
      (∀ b p : Nat, coreUnit b p ≠ coreUnit bank.val pos.val → t.dev.wisp b p = s.dev.wisp b p) ∧ State.SameBut [.wisps] s t) ∧
  (∀ (bank : BankId) (pos : Pos) (item : ChannelItem) (flips : List (Fin 67 × Word)) (s : State), s.dev.clock.stopped = true ∨
    s.dev.bankDown bank.val = true ∨ (s.dev.wisp bank.val pos.val).missed = true ∨ s.dev.itemNow bank.val item = false →
    exec (.packetReceive bank pos ⟨item, flips⟩) s = .next s) ∧
  (∀ (seq round kind target : Nat) (payload : List Byte) (ws : List Word), ws = packetWords seq round kind target payload →
    kind < 16 → ws.length = 67 ∧ crc32c ((ws.take 66).flatMap (fun x => leBytes 4 x.toNat)) = ws.getD 66 0 ∧
      bitsOf (ws.getD 0 0) 31 28 = kind ∧ bitsOf (ws.getD 0 0) 27 24 = round % 16 ∧ bitsOf (ws.getD 0 0) 23 0 = seq % 2 ^ 24 ∧
      bitsOf (ws.getD 1 0) 31 0 = target % 2 ^ 32 ∧
      (payload.length = 256 → (ws.drop 2 |>.take 64).flatMap (fun x => leBytes 4 x.toNat) = payload)) ∧
  (∀ (bank : BankId) (pos : Pos) (x : WispPat) (s : State), s.dev.bankDown bank.val = false →
    (s.dev.wisp bank.val pos.val).missed = false → x = (s.dev.wisp bank.val pos.val).pat → x.checking = true →
    x.unpowered = false →
    ∃ t, exec (.imageCheckDone bank pos) s = .next t ∧ (t.dev.wisp bank.val pos.val).pat.checking = false ∧
      (x.valid = false → x.storeCrc = x.crc → (t.dev.wisp bank.val pos.val).pat.valid = true ∧
        (s.dev.clock.stopped = false → (t.dev.uht (coreUnit bank.val pos.val)).patMissing = false)) ∧
      (x.valid = false → x.storeCrc ≠ x.crc → (t.dev.wisp bank.val pos.val).pat.valid = false ∧
        (t.dev.wisp bank.val pos.val).pat.bitmap = [] ∧
        (t.dev.wisp bank.val pos.val).reg Reg.WS_PAT_CNT_IMG_CRC = (s.dev.wisp bank.val pos.val).reg Reg.WS_PAT_CNT_IMG_CRC + 1 ∧
        t.dev.pat = s.dev.pat) ∧
      (x.valid = true → x.storeCrc = x.crc → (t.dev.wisp bank.val pos.val).pat.valid = true ∧ t.dev.pat = s.dev.pat) ∧
      (x.valid = true → x.storeCrc ≠ x.crc → (t.dev.wisp bank.val pos.val).pat.valid = false ∧
        t.dev.pat.lateQueue = s.dev.pat.lateQueue ++ [(bank.val, pos.val)]) ∧
      (∀ b p : Nat, coreUnit b p ≠ coreUnit bank.val pos.val → t.dev.wisp b p = s.dev.wisp b p) ∧
      State.SameBut [.clock, .health, .pat, .wisps] s t) ∧
  (∀ (bank : BankId) (pos : Pos) (s : State), s.dev.bankDown bank.val = false → (s.dev.wisp bank.val pos.val).missed = false →
    (s.dev.wisp bank.val pos.val).pat.checking = true →
    ∃ t, exec (.imageCheckDone bank pos) s = .next t ∧ (t.dev.wisp bank.val pos.val).pat.checking = false ∧
      (t.dev.wisp bank.val pos.val).pat.unpowered = false) ∧
  (∀ (bank : BankId) (pos : Pos) (s : State), (s.dev.wisp bank.val pos.val).pat.checking = false →
    exec (.imageCheckDone bank pos) s = .next s) ∧
  (∀ (bank : BankId) (s : State), s.dev.clock.stopped = false → s.dev.bankDown bank.val = false →
    (∀ x ∈ s.dev.pat.lateRun, x.1.1 ≠ bank.val) → (s.dev.pat.phase = 2 ∨ s.dev.pat.phase = 3) → bank.val ∈ s.dev.pat.banksLeft →
    s.dev.tailRun bank.val = true →
    ∃ t, exec (.broadcastTailEnd bank) s = .next t ∧
      (s.dev.needRepair bank.val = [] ∨ 3 ≤ (s.dev.bank bank.val).patRepair →
        (∀ b : Nat, b ∈ t.dev.pat.banksLeft ↔ b ∈ s.dev.pat.banksLeft ∧ b ≠ bank.val) ∧
        (t.dev.pat.phase = 0 ↔ ∀ b ∈ s.dev.pat.banksLeft, b = bank.val) ∧ (t.dev.bank bank.val).patRepair = 0) ∧
      (s.dev.needRepair bank.val ≠ [] → (s.dev.bank bank.val).patRepair < 3 →
        (t.dev.bank bank.val).patRepair = (s.dev.bank bank.val).patRepair + 1 ∧ t.dev.pat = s.dev.pat ∧
        (t.dev.bank bank.val).patOut = (s.dev.bank bank.val).patOut ++ s.dev.repairPackets bank.val ∧ State.SameBut [.banks] s t) ∧
      (s.dev.needRepair bank.val = [] → State.SameBut [.banks, .pat] s t)) ∧
  (∀ (bank : BankId) (s : State), s.dev.tailRun bank.val = false → exec (.broadcastTailEnd bank) s = .next s) ∧
  (∀ (bank : BankId) (pos : Pos) (s : State), s.dev.clock.stopped = false → s.dev.bankDown bank.val = false →
    (bank.val, pos.val) ∈ s.dev.pat.lateQueue → s.dev.excludes (coreUnit bank.val pos.val) = false →
    s.dev.pat.installed ≠ [] →
    ∃ t, exec (.lateRepair bank pos) s = .next t ∧ (bank.val, pos.val) ∉ t.dev.pat.lateQueue ∧
      ((bank.val, pos.val), 1) ∈ t.dev.pat.lateRun ∧ (t.dev.wisp bank.val pos.val).pat.valid = false ∧
      (t.dev.wisp bank.val pos.val).pat.bitmap = [] ∧ (t.dev.wisp bank.val pos.val).pat.round = s.dev.pat.round ∧
      t.dev.zreg Reg.ZN_PAT_CNT_LATE = s.dev.zreg Reg.ZN_PAT_CNT_LATE + 1 ∧
      (∀ b p : Nat, coreUnit b p ≠ coreUnit bank.val pos.val → t.dev.wisp b p = s.dev.wisp b p) ∧
      (t.dev.bank bank.val).patOut = (s.dev.bank bank.val).patOut ++
        (t.dev.wisp bank.val pos.val).allPackets.map (fun n => (pos.val, n)) ∧
      State.SameBut [.banks, .pat, .wisps, .reg Reg.ZN_PAT_CNT_LATE] s t) ∧
  (∀ s : State, s.dev.zf Reg.ZN_PAT_RETRY 5 0 ≠ 0 → s.dev.clock.stopped = false →
    s.dev.pat.retryAt + 2 ^ s.dev.zf Reg.ZN_PAT_RETRY 5 0 ≤ s.dev.clock.frame →
    ∃ t, exec .retryRound s = .next t ∧ t.dev.pat.retryAt = s.dev.clock.frame ∧
      ((∀ u : Nat, (s.dev.uht u).patMissing = false) ∨ s.dev.pat.phase ≠ 0 ∨ s.dev.pat.installed = [] →
        t.dev.pat.round = s.dev.pat.round ∧ State.SameBut [.pat] s t) ∧
      (∀ u : Nat, u < 50688 → (s.dev.uht u).patMissing = true → s.dev.bankDown (u / 264) = false →
        s.dev.excludes u = false → s.dev.inLate (u / 264) (u % 264) = false → s.dev.pat.phase = 0 → s.dev.pat.installed ≠ [] →
        t.dev.pat.phase = 3 ∧ t.dev.pat.round = (s.dev.pat.round + 1) % 16 ∧
        t.dev.zreg Reg.ZN_PAT_CNT_ROUNDS = s.dev.zreg Reg.ZN_PAT_CNT_ROUNDS + 1) ∧
      State.SameBut [.banks, .pat, .wisps, .reg Reg.ZN_PAT_CNT_ROUNDS] s t) ∧
  (∀ s : State, s.dev.zf Reg.ZN_PAT_RETRY 5 0 = 0 → exec .retryRound s = .next s)

/-! ## Shutdown -/

/-- SHUTDOWN, SD_CANCEL, QUIESCE_END, QUIESCE_LIMIT, CHECKPOINT_END and SD_LIMIT_EXPIRE; the register commands where the write is
accepted. The model's readings in it: log entries 6, 16, 94, 95, 99 and 189. -/
def Obligations.ShutdownPhasesInOrder : Prop :=
  (∀ (p : Path) (s : State), s.dev.takesZ p Reg.ZN_SD_CMD 1 →
    ∃ t, exec (.shutdown p) s = .next t ∧
      (s.dev.sdActive = true ∨ s.dev.dbgHold 0 = true → t.dev.zf Reg.ZN_SD_STAT 7 4 = 2 ∧ t.dev.sd = s.dev.sd) ∧
      (s.dev.sdActive = false → s.dev.dbgHold 0 = false → s.dev.clock.stopped = true →
        t.dev.zf Reg.ZN_SD_STAT 7 4 = 4 ∧ t.dev.sd = s.dev.sd) ∧
      (s.dev.sdActive = false → s.dev.dbgHold 0 = false → s.dev.clock.stopped = false →
        (s.dev.ctxOpen = true → t.dev.zf Reg.ZN_SD_STAT 7 4 = 3 ∧ t.dev.sd = s.dev.sd) ∧
        (s.dev.ctxOpen = false → t.dev.zf Reg.ZN_SD_STAT 7 4 = 1 ∧ t.dev.zf Reg.ZN_SD_STAT 18 16 = 0 ∧
          t.dev.sd.quiescePend = true ∧ t.dev.sd.phase = 0 ∧ t.dev.zreg Reg.ZN_SD_ROWS = 0 ∧ t.dev.zreg Reg.ZN_SD_FUSES = 0 ∧
          t.dev.zreg Reg.ZN_SD_UNITS_FAIL = 0 ∧ (∀ r, t.dev.sd.ended r = 0) ∧ t.dev.sd.left = 0 ∧
          (∀ b : Nat, (t.dev.bank b).arrayDone = false ∧ (t.dev.bank b).arrayFail = false ∧
            (t.dev.bank b).repairs = (s.dev.bank b).repairs))) ∧
      State.SameBut [.banks, .sd, .reg Reg.ZN_SD_STAT, .reg Reg.ZN_SD_ROWS, .reg Reg.ZN_SD_FUSES, .reg Reg.ZN_SD_UNITS_FAIL] s t) ∧
  (∀ (p : Path) (s : State), s.dev.off = false → s.dev.locked = true → pathHost p = true → s.dev.notReady p = false →
    s.dev.sdActive = false → s.dev.dbgHold 0 = false → s.dev.clock.stopped = false →
    ∃ t, exec (.shutdown p) s = .next t ∧ t.dev.zf Reg.ZN_SD_STAT 7 4 = 5 ∧
      State.SameBut [.reg Reg.ZN_ALM_CNT_FROZEN, .reg Reg.ZN_SD_STAT] s t) ∧
  (∀ (p : Path) (s : State), s.dev.takesZ p Reg.ZN_SD_CMD 2 →
    ∃ t, exec (.sdCancel p) s = .next t ∧
      (s.dev.sd.quiescePend = true ∨ s.dev.sd.phase = 1 ∨ s.dev.sd.phase = 2 →
        t.dev.zf Reg.ZN_SD_STAT 7 4 = 6 ∧ t.dev.sd.phase = 0 ∧ t.dev.sd.quiescePend = false ∧ t.dev.sd.hold = s.dev.sd.hold ∧
        t.dev.sdTick.sd.hold = false) ∧
      (s.dev.sd.quiescePend = false → 3 ≤ s.dev.sd.phase → s.dev.sd.phase ≤ 7 →
        t.dev.zf Reg.ZN_SD_STAT 7 4 = 7 ∧ t.dev.sd = s.dev.sd) ∧
      (s.dev.sd.quiescePend = false → (s.dev.sd.phase = 0 ∨ 8 ≤ s.dev.sd.phase) → t = s) ∧
      State.SameBut [.sd, .reg Reg.ZN_SD_STAT] s t) ∧
  (∀ s : State, s.dev.sd.phase = 1 → (∀ u ∈ s.dev.cmdCores, u ∈ s.dev.sd.unquiesced) →
    ∃ t, exec .quiesceEnd s = .next t ∧ t.dev.sd.phase = 2 ∧
      t.dev.zreg Reg.ZN_JNL_CNT_CKPT = s.dev.zreg Reg.ZN_JNL_CNT_CKPT + 1 ∧
      State.SameBut [.jnl, .sd, .reg Reg.ZN_JNL_CNT_CKPT] s t) ∧
  (∀ s : State, s.dev.sd.phase ≠ 1 ∨ (∃ u ∈ s.dev.cmdCores, u ∉ s.dev.sd.unquiesced) → exec .quiesceEnd s = .next s) ∧
  (∀ s : State, s.dev.sd.phase = 1 → s.dev.sd.startFrame + s.dev.zf Reg.ZN_SD_QUIESCE 19 0 ≤ s.dev.clock.frame →
    ∃ t, exec .quiesceLimit s = .next t ∧ t.dev.sd.unquiesced = s.dev.cmdCores ∧ t.dev.sd.phase = 1 ∧ State.SameBut [.sd] s t) ∧
  (∀ (ok : Bool) (s : State), s.dev.sd.phase = 2 →
    ∃ t, exec (.checkpointEnd ok) s = .next t ∧
      (ok = false ∨ s.dev.ledgerOk = false → t.dev.sd.phase = 8 ∧ t.dev.zf Reg.ZN_SD_STAT 18 16 = 4 ∧
        t.dev.banks = s.dev.banks) ∧
      (ok = true → s.dev.ledgerOk = true → s.dev.drained = false → t = s) ∧
      (ok = true → s.dev.ledgerOk = true → s.dev.drained = true → t.dev.sd.phase = 3 ∧
        t.dev.zreg Reg.ZN_SD_STAT = s.dev.zreg Reg.ZN_SD_STAT ∧
        (∀ b : Nat, s.dev.bankDown b = true → t.dev.bank b = s.dev.bank b) ∧
        (∀ b : Nat, b < 192 → s.dev.bankDown b = false → (s.dev.bank b).ring.frozenAt = none → (s.dev.bank b).ring.owed = 0 →
          (s.dev.bank b).ring.count < 2048 → ∃ r, Tbl.find (t.dev.bank b).ring.ring (s.dev.bank b).ring.wr = some r ∧
            r.code = 0x06 ∧ r.p0 = w32 (s.dev.bank b).ring.count ∧ (t.dev.bank b).ring.count = (s.dev.bank b).ring.count + 1) ∧
        (∀ b : Nat, b < 192 → s.dev.bankDown b = false → (s.dev.bank b).ring.frozenAt.isSome = true ∨ 2048 ≤ (s.dev.bank b).ring.count →
          (t.dev.bank b).ring.ring = (s.dev.bank b).ring.ring ∧
          (t.dev.bank b).ring.lost = min 0xFFFFFFFF ((s.dev.bank b).ring.lost + 1))) ∧
      State.SameBut [.afsin, .banks, .draws, .sd, .reg Reg.ZN_AFS_CNT_LOST, .reg Reg.ZN_AFS_CNT_SENT, .reg Reg.ZN_SD_STAT] s t) ∧
  (∀ s : State, 1 ≤ s.dev.sd.phase → s.dev.sd.phase < 7 →
    s.dev.sd.startFrame + s.dev.zf Reg.ZN_SD_LIMIT 24 0 ≤ s.dev.clock.frame →
    ∃ t, exec .sdLimitExpire s = .next t ∧ t.dev.sd.phase = 8 ∧ t.dev.zf Reg.ZN_SD_STAT 18 16 = 1 ∧
      t.dev.sd.hold = s.dev.sd.hold ∧
      State.SameBut [.afsin, .sd, .reg Reg.ZN_AFS_CNT_LOST, .reg Reg.ZN_AFS_CNT_SENT, .reg Reg.ZN_SD_STAT] s t) ∧
  (∀ s : State, s.dev.sd.phase = 0 ∨ 7 ≤ s.dev.sd.phase ∨
    s.dev.clock.frame < s.dev.sd.startFrame + s.dev.zf Reg.ZN_SD_LIMIT 24 0 → exec .sdLimitExpire s = .next s)

/-- ARRAY_TEST_END, CORE_TEST_GROUP_END, FUSE_ENTRY_DONE and CERT_DONE.
The model's readings in it: log entries 95, 96, 97, 98, 99 and 189. -/
def Obligations.ShutdownTestsFusesAndCertifies : Prop :=
  (∀ (l : List ArrayFail) (s : State), s.dev.sd.phase = 3 → s.dev.sd.destroyed = true → s.dev.zf Reg.ZN_SD_CTL 1 0 = 0 →
    ∃ t, exec (.arrayTestEnd l) s = .next t ∧ t.pending = s.pending ∧ t.mem = s.mem ∧
      (t.dev.sd.phase = 5 ∨ t.dev.sd.phase = 6) ∧
      (s.dev.sd.windowBad = true ∨ s.dev.windowNow = false →
        t.dev.zf Reg.ZN_SD_STAT 10 10 = 0 ∧ t.dev.sd.windowBad = true ∧ (∀ u : Nat, t.dev.uht u = s.dev.uht u)) ∧
      (s.dev.sd.windowBad = false → s.dev.windowNow = true → t.dev.zf Reg.ZN_SD_STAT 10 10 = 1 ∧ t.dev.sd.windowBad = false) ∧
      (∀ (x : ArrayFail) (b : BankId) (p : Pos) (row : BitVec 16) (k : Nat), l = [x] → s.dev.sd.windowBad = false →
        s.dev.windowNow = true → x.loc = .wisp b p → x.row = some row → x.retestFails = false → s.dev.bankDown b.val = false →
        freeSpare (s.dev.bank b.val).repairs (s.dev.sd.badSpares ++ ((s.dev.bank b.val).repairs.filter (fun r =>
          r.sameArray p.val x.array.toNat && decide (r.frm = row.toNat))).map (fun r => (b.val, p.val, x.array.toNat, r.dst)))
          b.val p.val x.array.toNat x.slicePort.toNat = some k → (s.dev.bank b.val).repairs.length < 64 →
        (∀ r ∈ (t.dev.bank b.val).repairs, r.sameArray p.val x.array.toNat = true → r.frm = row.toNat → r.dst = k) ∧
        (∃ r ∈ (t.dev.bank b.val).repairs, r.kind = 1 ∧ r.pos = p.val ∧ r.array = x.array.toNat ∧ r.frm = row.toNat ∧ r.dst = k ∧
          r.fused = false) ∧ (∀ u : Nat, t.dev.uht u = s.dev.uht u)) ∧
      (∀ (x : ArrayFail) (b : BankId) (p : Pos) (row : BitVec 16), l = [x] → s.dev.sd.windowBad = false → s.dev.windowNow = true →
        x.loc = .wisp b p → x.row = some row → x.retestFails = true → s.dev.bankDown b.val = false → s.dev.clock.stopped = false →
        t.dev.healthOf (coreUnit b.val p.val) = .eclipse)) ∧
  (∀ (l : List ArrayFail) (s : State), s.dev.sd.phase ≠ 3 ∨ s.dev.sd.destroyed = false → exec (.arrayTestEnd l) s = .next s) ∧
  (∀ (bank : BankId) (s : State), s.dev.sd.phase = 4 → bank.val ∈ s.dev.sd.banksLeft → bank.val ∉ s.dev.sd.groupDue →
    (∀ x ∈ (s.dev.bank bank.val).testList, x.2.shutdown = false) → bitOf (s.dev.zreg Reg.ZN_SD_CTL) 2 = false →
    ∃ t, exec (.coreTestGroupEnd bank) s = .next t ∧ t.pending = s.pending ∧ t.mem = s.mem ∧
      (264 ≤ Tbl.get 0 s.dev.sd.nextPos bank.val → Tbl.get [] s.dev.sd.deep bank.val = [] →
        (∀ b : Nat, b ∈ t.dev.sd.banksLeft ↔ b ∈ s.dev.sd.banksLeft ∧ b ≠ bank.val) ∧
        ((∃ b ∈ s.dev.sd.banksLeft, b ≠ bank.val) → t.dev.sd.phase = 4 ∧ State.SameBut [.sd] s t) ∧
        ((∀ b ∈ s.dev.sd.banksLeft, b = bank.val) → (t.dev.sd.phase = 5 ∨ t.dev.sd.phase = 6) ∧
          t.dev.sd.tested = s.dev.sd.tested ∧ t.dev.sd.left = s.dev.sd.left)) ∧
      (Tbl.get 0 s.dev.sd.nextPos bank.val < 264 → s.dev.bankDown bank.val = false →
        t.dev.sd.phase = 4 ∧ t.dev.sd.banksLeft = s.dev.sd.banksLeft ∧
        t.dev.sd.groupDue = s.dev.sd.groupDue ++ [bank.val] ∧ State.SameBut [.sd] s t)) ∧
  (∀ (bank : BankId) (s : State), s.dev.sd.phase ≠ 4 ∨ bank.val ∉ s.dev.sd.banksLeft → exec (.coreTestGroupEnd bank) s = .next s) ∧
  (∀ (bank : BankId) (ok : Bool) (r : RepairRow) (rest : List (Nat × RepairRow)) (s : State), s.dev.sd.phase = 5 →
    s.dev.sd.fuseLeft = (bank.val, r) :: rest →
    ∃ t, exec (.fuseEntryDone bank ok) s = .next t ∧
      (Tbl.get (0, []) t.dev.aon.fuses bank.val).1 = (Tbl.get (0, []) s.dev.aon.fuses bank.val).1 + 1 ∧
      (ok = true → s.dev.pins.fusePwrOk = true → s.dev.sd.fuseDrop = false →
        (Tbl.get (0, []) t.dev.aon.fuses bank.val).2 = (Tbl.get (0, []) s.dev.aon.fuses bank.val).2 ++
          [{ r with fused := true, badFuse := false }] ∧
        (r ∈ (s.dev.bank bank.val).repairs → { r with fused := true, badFuse := false } ∈ (t.dev.bank bank.val).repairs) ∧
        t.dev.zf Reg.ZN_SD_FUSES 15 0 = min 0xFFFF (s.dev.zf Reg.ZN_SD_FUSES 15 0 + 1)) ∧
      (ok = false ∨ s.dev.pins.fusePwrOk = false ∨ s.dev.sd.fuseDrop = true →
        (Tbl.get (0, []) t.dev.aon.fuses bank.val).2 = (Tbl.get (0, []) s.dev.aon.fuses bank.val).2 ∧
        (r ∈ (s.dev.bank bank.val).repairs → { r with badFuse := true } ∈ (t.dev.bank bank.val).repairs) ∧
        t.dev.zf Reg.ZN_SD_FUSES 31 16 = min 0xFFFF (s.dev.zf Reg.ZN_SD_FUSES 31 16 + 1)) ∧
      (∀ b : Nat, b ≠ bank.val → t.dev.bank b = s.dev.bank b ∧
        Tbl.get (0, []) t.dev.aon.fuses b = Tbl.get (0, []) s.dev.aon.fuses b) ∧
      State.SameBut [.banks, .draws, .fuses, .jnl, .sd, .reg Reg.ZN_SD_FUSES] s t) ∧
  (∀ (bank : BankId) (ok : Bool) (s : State), s.dev.sd.phase ≠ 5 → exec (.fuseEntryDone bank ok) s = .next s) ∧
  (∀ (ok : Bool) (s : State), s.dev.sd.phase = 6 →
    ∃ t, exec (.certDone ok) s = .next t ∧
      (ok = false ∨ s.dev.ledgerOk = false → t.dev.sd.phase = 8 ∧ t.dev.zf Reg.ZN_SD_STAT 18 16 = 4) ∧
      (ok = true → s.dev.ledgerOk = true → s.dev.drained = false → t = s) ∧
      (ok = true → s.dev.ledgerOk = true → s.dev.drained = true → t.dev.sd.phase = 7 ∧
        t.dev.zf Reg.ZN_SD_STAT 8 8 = bit s.dev.sd.clean ∧ t.dev.sd.hold = s.dev.sd.hold) ∧
      State.SameBut [.afsin, .sd, .reg Reg.ZN_AFS_CNT_LOST, .reg Reg.ZN_AFS_CNT_SENT, .reg Reg.ZN_SD_STAT] s t)

/-! ## Thermal, hangs and resets -/

/-- THERMAL_UPDATE and STOP_FRAMES_EXPIRE. The model's readings in it: log entries 123, 124, 125, 126, 127 and 128. -/
def Obligations.ThermalUpdatesDecide : Prop :=
  (∀ s : State, s.dev.thm.started = true → s.dev.thm.nextAt ≤ s.dev.clock.frame →
    s.dev.thm.updateAt < s.dev.clock.frame →
    ∃ t, exec .thermalUpdate s = .next t ∧
      t.dev.zreg Reg.ZN_THM_CNT_UPDATES = s.dev.zreg Reg.ZN_THM_CNT_UPDATES + 1 ∧ t.dev.thm.updateAt = s.dev.clock.frame ∧
      s.dev.clock.frame < t.dev.thm.nextAt ∧ t.dev.thm.nextAt ≤ s.dev.clock.frame + 64 ∧ t.dev.thm.pending = true ∧
      t.dev.thm.levels = s.dev.thm.levels ∧
      (∀ i < tiles, Tbl.get 0 s.dev.thm.levels i ≤ Tbl.get 0 t.dev.thm.newLevels i + 1 ∧
        (Tbl.get 0 s.dev.thm.levels i ≤ 15 → Tbl.get 0 t.dev.thm.newLevels i ≤ 15)) ∧
      State.SameBut [.afsin, .jnl, .thm, .reg Reg.ZN_AFS_CNT_LOST, .reg Reg.ZN_AFS_CNT_SENT, .reg Reg.ZN_THM_CNT_DISAGREE,
        .reg Reg.ZN_THM_CNT_EXCURSION, .reg Reg.ZN_THM_CNT_UPDATES] s t) ∧
  (∀ s : State, s.dev.thm.started = true → s.dev.clock.frame < s.dev.thm.nextAt ∨ s.dev.clock.frame ≤ s.dev.thm.updateAt →
    exec .thermalUpdate s = .next s) ∧
  (∀ s : State, s.dev.thm.started = false →
    ∃ t, exec .thermalUpdate s = .next t ∧ t.dev.thm.levels = s.dev.thm.levels ∧ t.dev.thm.updateAt = s.dev.clock.frame ∧
      ((∃ i ∈ s.dev.validDiodes, s.dev.diodeMargin i ≤ 0) → t.dev.thm.emerg.isSome = true ∧ t.dev.thm.pendTrip.isSome = true) ∧
      (s.dev.validDiodes = [] → t.dev.thm.emerg = none ∧ t.dev.thm.pendTrip = s.dev.thm.pendTrip ∧
        t.dev.thm.pendStop = s.dev.thm.pendStop) ∧ State.SameBut [.thm] s t) ∧
  (∀ (x : Nat × Word) (s : State), s.dev.thm.emerg = some x → s.dev.thm.stopReq = true → s.dev.aon.thermTrip = false →
    s.dev.thm.stopAt + s.dev.zf Reg.ZN_THM_STOP 24 0 ≤ s.dev.thm.updateAt →
    exec .stopFramesExpire s = .next { s with dev := { s.dev with thm := { s.dev.thm with pendTrip := some x } } }) ∧
  (∀ s : State, s.dev.thm.emerg = none ∨ s.dev.thm.stopReq = false ∨ s.dev.aon.thermTrip = true ∨
    s.dev.thm.updateAt < s.dev.thm.stopAt + s.dev.zf Reg.ZN_THM_STOP 24 0 → exec .stopFramesExpire s = .next s)

/-- HANG_DETECT, CAPTURE_END, RECOVER, RC_DONE, RC_FAIL, RECOV_LIMIT_EXPIRE and SUPPRESSION_END; RECOVER where the write is accepted.
The model's readings in it: log entries 6, 16, 115, 116, 117, 118 and 122. -/
def Obligations.HangsAreBlamedAndRecovered : Prop :=
  (∀ (c : CtxId) (s : State), s.dev.clock.stopped = false → s.dev.zf Reg.ZN_HANG_FRAMES 24 0 ≠ 0 →
    (s.dev.ctx c.val).core.state = .active → s.dev.zf Reg.ZN_HANG_FRAMES 24 0 ≤ (s.dev.ctx c.val).hang.quiet →
    ∃ t i, exec (.hangDetect c) s = .next t ∧ t.mem = s.mem ∧ t.pending = s.pending ∧
      (t.dev.ctx c.val).core.state = .failed ∧ (t.dev.ctx c.val).core.failReason = 4 ∧
      (t.dev.ctx c.val).hang.incident = some ((s.dev.hang.count + 1) % 2 ^ 32) ∧
      t.dev.zreg Reg.ZN_HANG_CNT_HUNG = s.dev.zreg Reg.ZN_HANG_CNT_HUNG + 1 ∧
      t.dev.zreg Reg.ZN_HANG_LAST_INC = w32 ((s.dev.hang.count + 1) % 2 ^ 32) ∧
      i ∈ t.dev.hang.incidents ∧ i.number = (s.dev.hang.count + 1) % 2 ^ 32 ∧ i.ctx = c.val ∧ c.val ∈ i.members ∧
      i.detectedAt = s.dev.clock.frame ∧ i.ended = false ∧ (t.dev.uht i.blamed).due = true ∧
      (∀ u rest, s.dev.busyCores c.val = u :: rest → bitsOf (s.dev.waitOf u) 3 0 = 0 →
        i.blamed = u ∧ i.control = none ∧ t.dev.zreg Reg.ZN_HANG_LAST = w32 (c.val + 1024)) ∧
      Dev.SameBut [.afsin, .ctxs, .dbg, .hang, .health, .hz, .jnl, .wisps, .reg Reg.ZN_AFS_CNT_LOST, .reg Reg.ZN_AFS_CNT_SENT,
        .reg Reg.ZN_HANG_CNT_HUNG, .reg Reg.ZN_HANG_CNT_COLLATERAL, .reg Reg.ZN_HANG_LAST, .reg Reg.ZN_HANG_LAST_INC,
        .reg Reg.ZN_HANG_LAST_UNIT, .reg Reg.ZN_HANG_LAST_WAIT] s.dev t.dev) ∧
  (∀ (c : CtxId) (s : State), s.dev.clock.stopped = true ∨ s.dev.zf Reg.ZN_HANG_FRAMES 24 0 = 0 ∨
    (s.dev.ctx c.val).core.state ≠ .active ∨ (s.dev.ctx c.val).hang.quiet < s.dev.zf Reg.ZN_HANG_FRAMES 24 0 →
    exec (.hangDetect c) s = .next s) ∧
  (∀ (n : Word) (reads : List (BankId × CapRead)) (i : Incident) (s : State),
    s.dev.hang.incidents.find? (fun i => decide (i.number = n.toNat) && decide (i.phase = .capturing)) = some i →
    (∀ b ∈ i.banksLeft, (s.dev.bank b).isolated = false → i.readsEnd b (s.dev.captureLate i s.dev.clock.frame)
      ((reads.filter (fun r => decide (r.1.val = b))).map Prod.snd) = true) →
    ∃ t, exec (.captureEnd n reads) s = .next t ∧
      ((∀ b ∈ i.banksLeft, (s.dev.bank b).isolated = true) → t.mem = s.mem ∧
        t.dev.zreg Reg.ZN_HANG_CNT_CAPLOST = s.dev.zreg Reg.ZN_HANG_CNT_CAPLOST +
          w32 (sumNat (i.banksLeft.map (fun b => (i.readsOf b).length)))) ∧ t.pending = s.pending ∧ (∀ a : Nat, t.mem.slot a = s.mem.slot a) ∧
      (∀ a : Nat, (∀ k < s.dev.capSize, a ≠ (s.dev.capRegion.base + k) % 2 ^ 48) → t.mem.byte a = s.mem.byte a) ∧
      (∀ j ∈ t.dev.hang.incidents, j.number = i.number → j.ctx = i.ctx →
        (j.asked = true ∨ bitOf (s.dev.zreg Reg.ZN_HANG_CTL) 0 = true → j.phase = .queued ∧ j.queuedAt = s.dev.clock.frame) ∧
        (j.asked = false → bitOf (s.dev.zreg Reg.ZN_HANG_CTL) 0 = false → j.phase = .awaitingCommand)) ∧
      t.dev.hang.incidents.length = s.dev.hang.incidents.length ∧ Dev.SameBut [.hang, .reg Reg.ZN_HANG_CNT_CAPLOST] s.dev t.dev) ∧
  (∀ (n : Word) (reads : List (BankId × CapRead)) (i : Incident) (b : Nat) (s : State),
    s.dev.hang.incidents.find? (fun i => decide (i.number = n.toNat) && decide (i.phase = .capturing)) = some i →
    b ∈ i.banksLeft → (s.dev.bank b).isolated = false → i.readsEnd b (s.dev.captureLate i s.dev.clock.frame)
      ((reads.filter (fun r => decide (r.1.val = b))).map Prod.snd) = false → exec (.captureEnd n reads) s = .next s) ∧
  (∀ (n : Word) (reads : List (BankId × CapRead)) (s : State),
    (∀ i ∈ s.dev.hang.incidents, i.number = n.toNat → i.phase ≠ .capturing) → exec (.captureEnd n reads) s = .next s) ∧
  (∀ (p : Path) (c : Nat) (s : State), s.dev.takesZ p Reg.ZN_RECOV_CMD 1 → c = s.dev.zf Reg.ZN_CTX_SEL 9 0 →
    ∃ t, exec (.recover p) s = .next t ∧
      ((s.dev.ctx c).core.state ≠ .failed ∨ (s.dev.ctx c).core.failReason ≠ 4 ∨ (s.dev.ctx c).hang.recovered = true →
        t.dev.zf Reg.ZN_RECOV_STAT 2 0 = 2 ∧ t.dev.hang = s.dev.hang) ∧
      (∀ i, (s.dev.ctx c).core.state = .failed → (s.dev.ctx c).core.failReason = 4 → (s.dev.ctx c).hang.recovered = false →
        s.dev.hang.incidents.reverse.find? (fun i => i.members.contains c) = some i →
        (i.phase = .awaitingCommand → t.dev.zf Reg.ZN_RECOV_STAT 2 0 = 1 ∧
          (∀ j ∈ t.dev.hang.incidents, j.number = i.number → j.ctx = i.ctx → j.phase = .queued)) ∧
        (i.phase = .capturing → i.asked = false → bitOf (s.dev.zreg Reg.ZN_HANG_CTL) 0 = false →
          t.dev.zf Reg.ZN_RECOV_STAT 2 0 = 1 ∧
          (∀ j ∈ t.dev.hang.incidents, j.number = i.number → j.ctx = i.ctx → j.asked = true)) ∧
        (i.phase = .queued ∨ i.phase = .requested ∨
          (i.phase = .capturing ∧ (i.asked = true ∨ bitOf (s.dev.zreg Reg.ZN_HANG_CTL) 0 = true)) →
          t.dev.zf Reg.ZN_RECOV_STAT 2 0 = 3 ∧ t.dev.hang = s.dev.hang)) ∧
      State.SameBut [.hang, .reg Reg.ZN_RECOV_STAT] s t) ∧
  (∀ (p : Path) (s : State), s.dev.off = false → s.dev.locked = true → pathHost p = true → s.dev.notReady p = false →
    ∃ t, exec (.recover p) s = .next t ∧ t.dev.zf Reg.ZN_RECOV_STAT 2 0 = 5 ∧
      State.SameBut [.reg Reg.ZN_RECOV_STAT, .reg Reg.ZN_ALM_CNT_FROZEN] s t) ∧
  (∀ (ticket : BitVec 16) (i : Incident) (s : State), s.dev.byRecovery ticket.toNat = some i →
    ∃ t, exec (.rcDone ticket) s = .next t ∧
      (i.phase = .requested → s.dev.hang.chipReset = false →
        t.dev.zreg Reg.ZN_HANG_CNT_RECOVERED = s.dev.zreg Reg.ZN_HANG_CNT_RECOVERED + 1 ∧
        (∀ j ∈ t.dev.hang.incidents, j.number = i.number → j.ctx = i.ctx → j.phase = .recovered ∧
          j.windowEnd = some (s.dev.clock.frame + s.dev.zf Reg.ZN_SUPP_EXTRA 24 0)) ∧
        (∀ c ∈ i.members, (t.dev.ctx c).hang.recovered = true ∧ (t.dev.ctx c).hang.quiet = 0 ∧
          (t.dev.ctx c).core = (s.dev.ctx c).core) ∧
        (∀ r ∈ t.dev.hang.resetRequests, r.1 ≠ i.ticket)) ∧
      (i.phase = .timedOut ∨ s.dev.hang.chipReset = true →
        t.dev.zreg Reg.ZN_HANG_CNT_LATE = s.dev.zreg Reg.ZN_HANG_CNT_LATE + 1 ∧
        t.dev.hang.incidents = s.dev.hang.incidents ∧ t.dev.ctxs = s.dev.ctxs) ∧
      State.SameBut [.banks, .ctxs, .hang, .jnl, .wisps, .reg Reg.ZN_HANG_CNT_LATE, .reg Reg.ZN_HANG_CNT_RECOVERED] s t) ∧
  (∀ (ticket : BitVec 16) (s : State), s.dev.byRecovery ticket.toNat = none →
    exec (.rcDone ticket) s = .next s ∧ exec (.rcFail ticket) s = .next s ∧ exec (.recovLimitExpire ticket) s = .next s) ∧
  (∀ (ticket : BitVec 16) (i : Incident) (s : State), s.dev.byRecovery ticket.toNat = some i → i.phase = .requested →
    s.dev.hang.chipReset = false →
    ∃ t, exec (.rcFail ticket) s = .next t ∧ t.dev.hang.chipReset = true ∧ t.dev.aon.rstCause = 5 ∧
      t.dev.zreg Reg.ZN_HANG_CNT_RECOV_TO = s.dev.zreg Reg.ZN_HANG_CNT_RECOV_TO + 1 ∧ t.mem = s.mem ∧ t.pending = s.pending ∧
      (∀ j ∈ t.dev.hang.incidents, j.number = i.number → j.ctx = i.ctx → j.phase = .timedOut)) ∧
  (∀ (ticket : BitVec 16) (i : Incident) (s : State), s.dev.byRecovery ticket.toNat = some i → i.phase = .requested →
    s.dev.hang.chipReset = true →
    ∃ t, exec (.rcFail ticket) s = .next t ∧ t.dev.hang.incidents = s.dev.hang.incidents ∧
      t.dev.zreg Reg.ZN_HANG_CNT_LATE = s.dev.zreg Reg.ZN_HANG_CNT_LATE + 1 ∧
      State.SameBut [.hang, .jnl, .reg Reg.ZN_HANG_CNT_LATE] s t) ∧
  (∀ (ticket : BitVec 16) (i : Incident) (s : State), s.dev.byRecovery ticket.toNat = some i → i.phase ≠ .timedOut →
    s.dev.hang.chipReset = false → s.dev.recovDeadline i ≤ s.dev.clock.frame →
    ∃ t, exec (.recovLimitExpire ticket) s = .next t ∧ t.dev.hang.chipReset = true ∧ t.dev.aon.rstCause = 5 ∧
      t.dev.aon.rstCount = min 0xFFF (s.dev.aon.rstCount + 1) ∧
      t.dev.zreg Reg.ZN_HANG_CNT_RECOV_TO = s.dev.zreg Reg.ZN_HANG_CNT_RECOV_TO + 1) ∧
  (∀ (ticket : BitVec 16) (i : Incident) (s : State), s.dev.byRecovery ticket.toNat = some i →
    s.dev.clock.frame < s.dev.recovDeadline i → exec (.recovLimitExpire ticket) s = .next s) ∧
  (∀ (n : Word) (i : Incident) (f c : Nat) (s : State), s.dev.hang.incidents = [i] → i.number = n.toNat → i.ended = false →
    i.windowEnd = some f → f ≤ s.dev.clock.frame → i.neighbours = [c] → s.dev.clock.stopped = false →
    ∃ t, exec (.suppressionEnd n) s = .next t ∧
      ((s.dev.ctx c).core.state = .active → (s.dev.ctx c).hang.busy = true →
        (s.dev.ctx c).hang.beaconAt < i.requestAt.getD (i.queuedAt + 1) →
        (t.dev.ctx c).core.state = .failed ∧ (t.dev.ctx c).core.failReason = 4 ∧
        t.dev.zreg Reg.ZN_HANG_CNT_COLLATERAL ≠ s.dev.zreg Reg.ZN_HANG_CNT_COLLATERAL) ∧
      ((s.dev.ctx c).core.state ≠ .active ∨ (s.dev.ctx c).hang.busy = false ∨
        i.requestAt.getD (i.queuedAt + 1) ≤ (s.dev.ctx c).hang.beaconAt →
        (t.dev.ctx c).hang.quiet = 0 ∧ (t.dev.ctx c).core = (s.dev.ctx c).core ∧ State.SameBut [.ctxs, .hang] s t))

/-- ANV_RESET, ANVIL_NO_PROGRESS, ANVIL_RESET_DONE, ANV_RST_LIMIT_EXPIRE, BANK_RESET, BANK_SUMMARY_MISSING, BANK_RESET_END,
BANK_RST_LIMIT_EXPIRE, KICK and WATCHDOG_EXPIRE; the register commands where the write is accepted.
The model's readings in it: log entries 6, 16, 106, 107, 119, 120 and 121. -/
def Obligations.ResetsIsolateWhatFails : Prop :=
  (∀ (p : Path) (bank : BitVec 8) (s : State), s.dev.takesZ p Reg.ZN_RECOV_CMD (w32 (2 + 256 * bank.toNat)) →
    ∃ t, exec (.anvReset p bank) s = .next t ∧
      (191 < bank.toNat ∨ (s.dev.bank bank.toNat).isolated = true ∨ (s.dev.bank bank.toNat).anv.isolated = true →
        t.dev.zf Reg.ZN_RECOV_STAT 2 0 = 4 ∧ t.dev.banks = s.dev.banks) ∧
      (bank.toNat ≤ 191 → (s.dev.bank bank.toNat).isolated = false → (s.dev.bank bank.toNat).anv.isolated = false →
        ((s.dev.bank bank.toNat).anv.resetAt.isSome = true ∨ (s.dev.bank bank.toNat).resetAt.isSome = true →
          t.dev.zf Reg.ZN_RECOV_STAT 2 0 = 3 ∧ t.dev.banks = s.dev.banks) ∧
        ((s.dev.bank bank.toNat).anv.resetAt = none → (s.dev.bank bank.toNat).resetAt = none →
          t.dev.zf Reg.ZN_RECOV_STAT 2 0 = 1 ∧ (t.dev.bank bank.toNat).anv.resetAt = some s.dev.clock.frame ∧
          (t.dev.bank bank.toNat).anv.resetCause = 3 ∧ (t.dev.bank bank.toNat).resetAt = none ∧
          t.dev.zreg Reg.ZN_HANG_CNT_ANV_RESET = s.dev.zreg Reg.ZN_HANG_CNT_ANV_RESET + 1)) ∧
      State.SameBut [.banks, .jnl, .reg Reg.ZN_HANG_CNT_ANV_RESET, .reg Reg.ZN_RECOV_STAT, .reg Reg.ZN_STOP_LOST] s t) ∧
  (∀ (bank : BankId) (s : State), s.dev.clock.stopped = false → s.dev.bankDown bank.val = false →
    (s.dev.bank bank.val).anv.isolated = false → (s.dev.bank bank.val).anv.resetAt = none →
    ∃ t, exec (.anvilNoProgress bank) s = .next t ∧ (t.dev.bank bank.val).anv.resetAt = some s.dev.clock.frame ∧
      (t.dev.bank bank.val).anv.resetCause = 1 ∧
      t.dev.zreg Reg.ZN_HANG_CNT_ANV_RESET = s.dev.zreg Reg.ZN_HANG_CNT_ANV_RESET + 1 ∧
      (∀ b : Nat, b ≠ bank.val → b ≠ partner bank.val → t.dev.bank b = s.dev.bank b) ∧
      State.SameBut [.banks, .jnl, .reg Reg.ZN_HANG_CNT_ANV_RESET, .reg Reg.ZN_STOP_LOST] s t) ∧
  (∀ (bank : BankId) (s : State), (s.dev.bank bank.val).anv.resetAt.isSome = true →
    ∃ t, exec (.anvilResetDone bank true) s = .next t ∧ (t.dev.bank bank.val).anv.resetPassed = true ∧
      (t.dev.bank bank.val).anv.resetAt = (s.dev.bank bank.val).anv.resetAt ∧
      (∀ b : Nat, b ≠ bank.val → t.dev.bank b = s.dev.bank b) ∧ State.SameBut [.banks] s t) ∧
  (∀ (bank : BankId) (f : Nat) (s : State), (s.dev.bank bank.val).anv.resetAt = some f →
    (s.dev.bank bank.val).anv.isolated = false → (s.dev.bank bank.val).anv.resetPassed = false → s.dev.clock.stopped = false →
    ∃ t, exec (.anvilResetDone bank false) s = .next t ∧
      (s.dev.clock.frame < f + s.dev.zf Reg.ZN_ANV_RST_LIMIT 19 0 → exec (.anvRstLimitExpire bank) s = .next s) ∧
      (f + s.dev.zf Reg.ZN_ANV_RST_LIMIT 19 0 ≤ s.dev.clock.frame → exec (.anvRstLimitExpire bank) s = .next t) ∧
      (t.dev.bank bank.val).anv.isolated = true ∧ (t.dev.bank bank.val).anv.resetAt = none ∧
      t.dev.healthOf (anvilUnit bank.val) = .eclipse ∧
      (s.dev.healthOf (anvilUnit bank.val) ≠ .eclipse → (t.dev.uht (anvilUnit bank.val)).reason = 0x16) ∧
      t.dev.zreg Reg.ZN_HANG_CNT_ANV_ISO = s.dev.zreg Reg.ZN_HANG_CNT_ANV_ISO + 1 ∧
      (∀ u : Nat, u ≠ anvilUnit bank.val → t.dev.uht u = s.dev.uht u) ∧
      (∀ b : Nat, b ≠ bank.val → b ≠ partner bank.val → t.dev.bank b = s.dev.bank b)) ∧
  (∀ (bank : BankId) (s : State), (s.dev.bank bank.val).anv.resetPassed = true → exec (.anvRstLimitExpire bank) s = .next s) ∧
  (∀ (bank : BankId) (s : State), (s.dev.bank bank.val).anv.resetAt = none → (s.dev.bank bank.val).anv.isolated = true →
    ∃ t, exec (.anvilResetDone bank true) s = .next t ∧
      t.dev.zreg Reg.ZN_HANG_CNT_LATE = s.dev.zreg Reg.ZN_HANG_CNT_LATE + 1 ∧ t.dev.banks = s.dev.banks) ∧
  (∀ (p : Path) (bank : BitVec 8) (s : State), s.dev.takesZ p Reg.ZN_RECOV_CMD (w32 (4 + 256 * bank.toNat)) →
    ∃ t, exec (.bankReset p bank) s = .next t ∧
      (191 < bank.toNat ∨ (s.dev.bank bank.toNat).isolated = true →
        t.dev.zf Reg.ZN_RECOV_STAT 2 0 = 4 ∧ t.dev.banks = s.dev.banks) ∧
      (bank.toNat ≤ 191 → (s.dev.bank bank.toNat).isolated = false →
        ((s.dev.bank bank.toNat).resetAt.isSome = true → t.dev.zf Reg.ZN_RECOV_STAT 2 0 = 3 ∧ t.dev.banks = s.dev.banks) ∧
        ((s.dev.bank bank.toNat).resetAt = none →
          t.dev.zf Reg.ZN_RECOV_STAT 2 0 = 1 ∧ (t.dev.bank bank.toNat).resetAt = some s.dev.clock.frame ∧
          (t.dev.bank bank.toNat).cc = (s.dev.bank bank.toNat).cc ∧ (t.dev.bank bank.toNat).ring = Bank.init.ring ∧
          (t.dev.bank bank.toNat).anv.queue = [] ∧
          t.dev.zreg Reg.ZN_HANG_CNT_BANKLOST =
            s.dev.zreg Reg.ZN_HANG_CNT_BANKLOST + w32 (s.dev.bank bank.toNat).ring.count ∧
          (∀ q < 264, (t.dev.wisp bank.toNat q).pat = (s.dev.wisp bank.toNat q).pat ∧ (t.dev.wisp bank.toNat q).pend = [] ∧
            (t.dev.wisp bank.toNat q).cmd = none) ∧
          (∀ b : Nat, b ≠ bank.toNat → t.dev.bank b = s.dev.bank b))) ∧
      State.SameBut [.banks, .dbg, .jnl, .wisps, .reg Reg.ZN_HANG_CNT_BANKLOST, .reg Reg.ZN_HANG_CNT_BANK_RESET,
        .reg Reg.ZN_RECOV_STAT] s t) ∧
  (∀ (bank : BankId) (s : State), 16 ≤ (s.dev.bank bank.val).missing → s.dev.bankDown bank.val = false →
    ∃ t, exec (.bankSummaryMissing bank) s = .next t ∧ (t.dev.bank bank.val).resetAt = some s.dev.clock.frame ∧
      (t.dev.bank bank.val).resetCause = 1 ∧ (t.dev.bank bank.val).cc = (s.dev.bank bank.val).cc ∧
      t.dev.zreg Reg.ZN_HANG_CNT_BANK_RESET = s.dev.zreg Reg.ZN_HANG_CNT_BANK_RESET + 1 ∧
      State.SameBut [.banks, .dbg, .jnl, .wisps, .reg Reg.ZN_HANG_CNT_BANKLOST, .reg Reg.ZN_HANG_CNT_BANK_RESET] s t) ∧
  (∀ (bank : BankId) (s : State), (s.dev.bank bank.val).missing < 16 → exec (.bankSummaryMissing bank) s = .next s) ∧
  (∀ (bank : BankId) (f : Nat) (s : State), (s.dev.bank bank.val).resetAt = some f → f < s.dev.clock.frame →
    (s.dev.bank bank.val).missing = 0 → (s.dev.bank bank.val).isolated = false →
    ∃ t, exec (.bankResetEnd bank) s = .next t ∧ (t.dev.bank bank.val).resetAt = none ∧ (t.dev.bank bank.val).isolated = false ∧
      (∀ b : Nat, b ≠ bank.val → t.dev.bank b = s.dev.bank b) ∧ State.SameBut [.banks] s t) ∧
  (∀ (bank : BankId) (s : State), (s.dev.bank bank.val).resetAt = none → (s.dev.bank bank.val).isolated = true →
    ∃ t, exec (.bankResetEnd bank) s = .next t ∧
      t.dev.zreg Reg.ZN_HANG_CNT_LATE = s.dev.zreg Reg.ZN_HANG_CNT_LATE + 1 ∧ t.dev.banks = s.dev.banks) ∧
  (∀ (bank : BankId) (f : Nat) (s : State), (s.dev.bank bank.val).resetAt = some f →
    f + s.dev.zf Reg.ZN_BANK_RST_LIMIT 19 0 ≤ s.dev.clock.frame →
    ∃ t, exec (.bankRstLimitExpire bank) s = .next t ∧ (t.dev.bank bank.val).isolated = true ∧
      (t.dev.bank bank.val).resetAt = none ∧
      ((s.dev.bank bank.val).isolated = false → s.dev.clock.stopped = false → t.dev.healthOf (bankUnit bank.val) = .eclipse ∧
        t.dev.healthOf (anvilUnit bank.val) = .eclipse ∧ (t.dev.bank bank.val).anv.isolated = true ∧
        t.dev.zreg Reg.ZN_HANG_CNT_BANK_ISO = s.dev.zreg Reg.ZN_HANG_CNT_BANK_ISO + 1) ∧
      ((s.dev.bank bank.val).isolated = false → s.dev.clock.stopped = true → t.dev.health = s.dev.health ∧
        (bankUnit bank.val, .eclipsed rISOLATED) ∈ t.dev.clock.stopHealth) ∧
      ((s.dev.bank bank.val).isolated = true → State.SameBut [.banks] s t)) ∧
  (∀ (bank : BankId) (f : Nat) (s : State), (s.dev.bank bank.val).resetAt = some f →
    s.dev.clock.frame < f + s.dev.zf Reg.ZN_BANK_RST_LIMIT 19 0 → exec (.bankRstLimitExpire bank) s = .next s) ∧
  (∀ s : State, s.dev.takesZ .steward Reg.ZN_WDOG_KICK 1 →
    exec (.kick .steward) s = .next { s with dev := { s.dev with hang := { s.dev.hang with wdog := 0 } } }) ∧
  (∀ (p : Path) (s : State), p ≠ .steward →
    ∃ t, exec (.kick p) s = .next t ∧ t.dev.hang = s.dev.hang) ∧
  (∀ s : State, s.dev.zf Reg.ZN_WDOG 23 0 ≤ s.dev.hang.wdog → s.dev.hang.chipReset = false →
    ∃ t, exec .watchdogExpire s = .next t ∧ t.dev.hang.chipReset = true ∧ t.dev.aon.rstCause = 1 ∧ t.mem = s.mem ∧
      t.pending = s.pending) ∧
  (∀ s : State, s.dev.hang.wdog < s.dev.zf Reg.ZN_WDOG 23 0 → exec .watchdogExpire s = .next s)

/-! ## Records, the journal and debug -/

/-- BANK_RECORD_ACCEPT, REC_RD_WRITE, REC_FREEZE, REC_FREEZE_EXPIRE, WS_REC_FREEZE, WS_REC_FREEZE_EXPIRE, REC_CLR_ARM, REC_CLR_CLEAR,
REC_W0_READ and REC_W7_READ; the register commands where the access is accepted.
The model's readings in it: log entries 6, 12, 16, 100, 102 and 171. -/
def Obligations.RingsTakeOneRecordAtATime : Prop :=
  (∀ (bank : BankId) (zc : Zc) (i : Nat) (x : Presented) (r : BankRing) (s : State), s.dev.clock.stopped = false →
    s.dev.bankDown bank.val = false → r = (s.dev.bank bank.val).ring → r.next = some i → r.presented[i]? = some x →
    ∃ t y, exec (.bankRecordAccept bank zc) s = .next t ∧
      y.code = x.ev.code ∧
      y.flags = bit x.ev.nosent + 2 * bit (x.fwd == .journal || ringCopies x.ev.code) ∧ y.source = x.source ∧ y.ctx = x.ev.ctx ∧ y.rpt = 1 ∧ y.p0 = x.ev.p0 ∧ y.p1 = x.ev.p1 ∧
      y.p2 = x.ev.p2 ∧ y.p3 = x.ev.p3 ∧
      (x.frame = none ∨ x.frame = some (s.dev.bankFrame bank.val) → y.ts = mkStamp (s.dev.bankFrame bank.val) zc.val) ∧
      (∀ f, x.frame = some f → f ≠ s.dev.bankFrame bank.val → y.ts = mkStamp f 2047) ∧
      (t.dev.bank bank.val).ring.presented = r.presented.eraseIdx i ∧ (t.dev.bank bank.val).ring.lastSource = x.source ∧
      (r.frozenAt = none → r.owed = 0 → r.count < 2048 → x.ev.detail = none → neverFolds x.ev.code = true →
        (t.dev.bank bank.val).ring.count = r.count + 1 ∧ (t.dev.bank bank.val).ring.wr = (r.wr + 1) % 2048 ∧
        Tbl.find (t.dev.bank bank.val).ring.ring r.wr = some { y with flags := y.flags + 8 * bit r.afterLoss } ∧
        (∀ k, k ≠ r.wr → Tbl.find (t.dev.bank bank.val).ring.ring k = Tbl.find r.ring k)) ∧
      (∀ k z, r.frozenAt = none → r.owed = 0 → r.count < 2048 → neverFolds x.ev.code = false →
        r.foldAt x.source x.ev.code x.ev.ctx r.count 1 = some k → Tbl.find r.ring k = some z → z.rpt < 65535 →
        (t.dev.bank bank.val).ring.ring = Tbl.put r.ring k { z with rpt := z.rpt + 1 } ∧
        (t.dev.bank bank.val).ring.count = r.count ∧ (t.dev.bank bank.val).ring.wr = r.wr) ∧
      (∀ got want, r.frozenAt = none → r.owed = 0 → r.count < 2047 → x.ev.detail = some (got, want) →
        r.foldAt x.source x.ev.code x.ev.ctx r.count 1 = none →
        (t.dev.bank bank.val).ring.count = r.count + 2 ∧ (t.dev.bank bank.val).ring.wr = (r.wr + 2) % 2048 ∧
        (∃ z, Tbl.find (t.dev.bank bank.val).ring.ring ((r.wr + 1) % 2048) = some z ∧ z.code = 0x16 ∧ z.ts = detailStamp y ∧
          z.p0 = lo32 got ∧ z.p1 = hi32 got ∧ z.p2 = lo32 want ∧ z.p3 = hi32 want)) ∧
      (r.frozenAt = none → r.owed ≠ 0 → r.count < 2047 → x.ev.detail = none → r.wr < 2048 → neverFolds x.ev.code = true →
        (t.dev.bank bank.val).ring.owed = 0 ∧ (t.dev.bank bank.val).ring.count = r.count + 2 ∧
        (∃ z, Tbl.find (t.dev.bank bank.val).ring.ring r.wr = some z ∧ z.code = 0x03 ∧ z.p0 = w32 r.owed) ∧
        Tbl.find (t.dev.bank bank.val).ring.ring ((r.wr + 1) % 2048) = some { y with flags := y.flags + 8 }) ∧
      ((r.frozenAt.isSome = true ∨ 2048 ≤ r.count) →
        (t.dev.bank bank.val).ring.ring = r.ring ∧ (t.dev.bank bank.val).ring.count = r.count ∧
        (t.dev.bank bank.val).ring.lost = min 0xFFFFFFFF (r.lost + 1)) ∧
      (x.fwd = .nothing → State.SameBut [.banks] s t) ∧
      (x.fwd = .journal → t.dev.jnl.waiting = s.dev.jnl.waiting ++ [.entry (.event bank.val y)]) ∧
      (x.fwd ≠ .journal → x.fwd ≠ .nothing →
        t.dev.jnl.waiting = s.dev.jnl.waiting ++ [.cw bank.val x.fwd x.ev.nosent]) ∧
      (∀ b : Nat, b ≠ bank.val → t.dev.bank b = s.dev.bank b) ∧ State.SameBut [.banks, .jnl] s t) ∧
  (∀ (bank : BankId) (zc : Zc) (s : State), s.dev.clock.stopped = true ∨ s.dev.bankDown bank.val = true ∨
    (s.dev.bank bank.val).ring.next = none → exec (.bankRecordAccept bank zc) s = .next s) ∧
  (∀ (p : Path) (bank : BankId) (v : Word) (dist : Nat) (s : State), s.dev.takesAt p (.bk bank.val Reg.BK_REC_RD) v →
    dist = (bitsOf v 10 0 + 2048 - (s.dev.bank bank.val).ring.rd) % 2048 →
    ∃ t, exec (.recRdWrite p bank v) s = .next t ∧
      (dist ≤ (s.dev.bank bank.val).ring.count → (t.dev.bank bank.val).ring.rd = bitsOf v 10 0 ∧
        ((s.dev.bank bank.val).ring.owed = 0 →
          (t.dev.bank bank.val).ring.count = (s.dev.bank bank.val).ring.count - dist)) ∧
      ((s.dev.bank bank.val).ring.count < dist → (t.dev.bank bank.val).ring = (s.dev.bank bank.val).ring) ∧
      (∀ b : Nat, b ≠ bank.val → t.dev.bank b = s.dev.bank b) ∧ State.SameBut [.banks, .draws, .port] s t) ∧
  (∀ (p : Path) (bank : BankId) (v : Word) (s : State), s.dev.takesAt p (.bk bank.val Reg.BK_REC_CTL) v →
    ∃ t, exec (.recFreeze p bank v) s = .next t ∧
      (bitOf v 16 = false → (t.dev.bank bank.val).ring = (s.dev.bank bank.val).ring) ∧
      (bitOf v 16 = true → bitOf v 0 = true → (t.dev.bank bank.val).ring.frozenAt = some s.dev.clock.frame ∧
        (t.dev.bank bank.val).ring.ring = (s.dev.bank bank.val).ring.ring) ∧
      (bitOf v 16 = true → bitOf v 0 = false → (t.dev.bank bank.val).ring.frozenAt = none) ∧
      (∀ b : Nat, b ≠ bank.val → t.dev.bank b = s.dev.bank b) ∧ State.SameBut [.banks, .draws, .port] s t) ∧
  (∀ (bank : BankId) (f : Nat) (s : State), (s.dev.bank bank.val).ring.frozenAt = some f → f + 65536 ≤ s.dev.clock.frame →
    ∃ t, exec (.recFreezeExpire bank) s = .next t ∧ (t.dev.bank bank.val).ring.frozenAt = none ∧
      (∀ b : Nat, b ≠ bank.val → t.dev.bank b = s.dev.bank b) ∧ State.SameBut [.banks, .draws] s t) ∧
  (∀ (bank : BankId) (s : State), (∀ f, (s.dev.bank bank.val).ring.frozenAt = some f → s.dev.clock.frame < f + 65536) →
    exec (.recFreezeExpire bank) s = .next s) ∧
  (∀ (p : Path) (bank : BankId) (pos : Pos) (v : Word) (s : State),
    s.dev.takesAt p (.ws bank.val pos.val Reg.WS_REC_CTL) v →
    ∃ t, exec (.wsRecFreeze p bank pos v) s = .next t ∧
      (t.dev.wisp bank.val pos.val).frozenAt = (if bitOf v 16 = false then (s.dev.wisp bank.val pos.val).frozenAt
        else if bitOf v 0 then some s.dev.clock.frame else none) ∧
      (∀ b q : Nat, coreUnit b q ≠ coreUnit bank.val pos.val → t.dev.wisp b q = s.dev.wisp b q) ∧
      State.SameBut [.port, .wisps] s t) ∧
  (∀ (bank : BankId) (pos : Pos) (f : Nat) (s : State), (s.dev.wisp bank.val pos.val).frozenAt = some f →
    ∃ t, exec (.wsRecFreezeExpire bank pos) s = .next t ∧
      (f + 65536 ≤ s.dev.clock.frame → (t.dev.wisp bank.val pos.val).frozenAt = none) ∧
      (s.dev.clock.frame < f + 65536 → t = s) ∧
      (∀ b q : Nat, coreUnit b q ≠ coreUnit bank.val pos.val → t.dev.wisp b q = s.dev.wisp b q) ∧ State.SameBut [.wisps] s t) ∧
  (∀ (p : Path) (zc : Zc) (sel : Nat) (s : State), s.dev.takesZ p Reg.ZN_REC_CLR_CMD 1 → sel = s.dev.zf Reg.ZN_REC_CLR_SEL 7 0 →
    ∃ t, exec (.recClrArm p zc) s = .next t ∧
      (pathHost p = true → s.dev.cfg.hostClear = false →
        t.dev.zf Reg.ZN_REC_CLR_STAT 2 0 = 3 ∧ t.dev.path p = s.dev.path p) ∧
      ((pathHost p = false ∨ s.dev.cfg.hostClear = true) →
        (192 ≤ sel → sel ≠ 0xFF → t.dev.zf Reg.ZN_REC_CLR_STAT 2 0 = 5 ∧ t.dev.path p = s.dev.path p) ∧
        (sel < 192 ∨ sel = 0xFF → t.dev.zf Reg.ZN_REC_CLR_STAT 2 0 = 1 ∧
          (t.dev.path p).clearArmed = some (s.dev.clock.frame * 2048 + zc.val, s.dev.zreg Reg.ZN_REC_CLR_SEL))) ∧
      (∀ q : Path, pathNo q ≠ pathNo p → t.dev.path q = s.dev.path q) ∧
      State.SameBut [.port, .reg Reg.ZN_REC_CLR_STAT] s t) ∧
  (∀ (p : Path) (zc : Zc) (sel : Nat) (s : State), s.dev.takesZ p Reg.ZN_REC_CLR_CMD 2 → sel = s.dev.zf Reg.ZN_REC_CLR_SEL 7 0 →
    (pathHost p = false ∨ s.dev.cfg.hostClear = true) → (sel < 192 ∨ sel = 0xFF) →
    ∃ t, exec (.recClrClear p zc) s = .next t ∧ (t.dev.path p).clearArmed = none ∧
      (∀ at_, (s.dev.path p).clearArmed = some (at_, s.dev.zreg Reg.ZN_REC_CLR_SEL) →
        s.dev.clock.frame * 2048 + zc.val ≤ at_ + 1024 →
        t.dev.zf Reg.ZN_REC_CLR_STAT 2 0 = 2 ∧
        (∀ b < 192, sel = 0xFF ∨ sel = b → (t.dev.bank b).ring.clearPend = some (pathHost p)) ∧
        (∀ b : Nat, sel ≠ 0xFF → b ≠ sel → t.dev.bank b = s.dev.bank b)) ∧
      ((s.dev.path p).clearArmed = none ∨ (∃ at_ v, (s.dev.path p).clearArmed = some (at_, v) ∧
          (at_ + 1024 < s.dev.clock.frame * 2048 + zc.val ∨ v ≠ s.dev.zreg Reg.ZN_REC_CLR_SEL)) →
        t.dev.zf Reg.ZN_REC_CLR_STAT 2 0 = 4 ∧ t.dev.banks = s.dev.banks) ∧
      (∀ b : Nat, (t.dev.bank b).ring.ring = (s.dev.bank b).ring.ring) ∧
      State.SameBut [.banks, .port, .reg Reg.ZN_REC_CLR_STAT] s t) ∧
  (∀ (p : Path) (zc : Zc) (s : State), s.dev.off = false → s.dev.locked = true → pathHost p = true →
    s.dev.notReady p = false →
    (∃ t, exec (.recClrArm p zc) s = .next t ∧ t.dev.zf Reg.ZN_REC_CLR_STAT 2 0 = 3 ∧
      State.SameBut [.reg Reg.ZN_ALM_CNT_FROZEN, .reg Reg.ZN_REC_CLR_STAT] s t) ∧
    (∃ t, exec (.recClrClear p zc) s = .next t ∧ t.dev.zf Reg.ZN_REC_CLR_STAT 2 0 = 3 ∧
      State.SameBut [.reg Reg.ZN_ALM_CNT_FROZEN, .reg Reg.ZN_REC_CLR_STAT] s t)) ∧
  (∀ (p : Path) (bank : BankId) (s : State), s.dev.readsAt p (.bk bank.val Reg.BK_REC_W) →
    ∃ t, exec (.recW0Read p bank) s = .next t ∧ (t.dev.bank bank.val).ring.valid = true ∧
      (∀ x, Tbl.find (s.dev.bank bank.val).ring.ring (s.dev.bank bank.val).ring.idx = some x →
        (t.dev.bank bank.val).ring.copy = x.words ∧ t.dev.regs.readData = x.words.headD 0) ∧
      (t.dev.bank bank.val).ring.ring = (s.dev.bank bank.val).ring.ring ∧
      (t.dev.bank bank.val).ring.idx = (s.dev.bank bank.val).ring.idx ∧
      (∀ b : Nat, b ≠ bank.val → t.dev.bank b = s.dev.bank b) ∧ State.SameBut [.banks, .port] s t) ∧
  (∀ (p : Path) (bank : BankId) (s : State), s.dev.readsAt p (.bk bank.val (Reg.BK_REC_W + 28)) →
    ∃ t, exec (.recW7Read p bank) s = .next t ∧ (t.dev.bank bank.val).ring.valid = false ∧
      (t.dev.bank bank.val).ring.idx = ((s.dev.bank bank.val).ring.idx + 1) % 2048 ∧
      t.dev.regs.readData = (s.dev.bank bank.val).ring.copy.getD 7 0 ∧
      (∀ b : Nat, b ≠ bank.val → t.dev.bank b = s.dev.bank b) ∧ State.SameBut [.banks, .port] s t)

/-- JOURNAL_APPEND, JOURNAL_ENTRY_DURABLE, SECTOR_ERASE, AGES_CHECKPOINT and JNL_SEQ_SNAP.
The model's readings in it: log entries 100, 101, 104, 151, 152, 171, 172 and 190. -/
def Obligations.JournalTakesEntriesInOrder : Prop :=
  (∀ (zc : Zc) (b : JBody) (rest : List ArbItem) (s : State),
    takeItem ArbItem.isEntry [] s.dev.jnl.waiting = some (.entry b, rest) → s.dev.off = false →
    (s.dev.start.mode ≠ .starting ∨ 5 < s.dev.start.step) → s.dev.jnl.lostEvents = 0 → s.dev.jnl.lostOthers = 0 →
    s.dev.jnl.ckptOwed = false → s.dev.jnl.volatileRun = false →
    ∃ t, exec (.journalAppend zc) s = .next t ∧ t.dev.jnl.waiting = rest ∧
      (s.dev.jnl.used + 16 + b.bytes ≤ (if b.isEvent then 245760 else 262144) →
        (∃ e, t.dev.jnl.staging = s.dev.jnl.staging ++ [e] ∧ e.seq = s.dev.jnl.nextSeq ∧ e.start = s.dev.jnl.start ∧
          e.body = s.dev.jnl.stampBody s.dev.clock.frame zc.val b) ∧
        t.dev.jnl.nextSeq = (s.dev.jnl.nextSeq + 1) % 2 ^ 64 ∧
        t.dev.zreg Reg.ZN_JNL_CNT_APPEND = s.dev.zreg Reg.ZN_JNL_CNT_APPEND + 1 ∧
        t.dev.zreg Reg.ZN_JNL_CNT_LOST = s.dev.zreg Reg.ZN_JNL_CNT_LOST) ∧
      ((if b.isEvent then 245760 else 262144) < s.dev.jnl.used + 16 + b.bytes →
        t.dev.jnl.staging = s.dev.jnl.staging ∧ t.dev.jnl.nextSeq = s.dev.jnl.nextSeq ∧
        t.dev.jnl.lostEvents + t.dev.jnl.lostOthers = 1 ∧
        t.dev.zreg Reg.ZN_JNL_CNT_LOST = s.dev.zreg Reg.ZN_JNL_CNT_LOST + 1) ∧
      State.SameBut [.jnl, .reg Reg.ZN_JNL_CNT_APPEND, .reg Reg.ZN_JNL_CNT_CKPT, .reg Reg.ZN_JNL_CNT_LOST] s t) ∧
  (∀ (zc : Zc) (b : JBody) (rest : List ArbItem) (s : State),
    takeItem ArbItem.isEntry [] s.dev.jnl.waiting = some (.entry b, rest) → s.dev.off = false →
    (s.dev.start.mode ≠ .starting ∨ 5 < s.dev.start.step) → s.dev.jnl.lostEvents ≠ 0 → s.dev.jnl.lostOthers = 0 →
    s.dev.jnl.ckptOwed = false → s.dev.jnl.volatileRun = false →
    ∃ t, exec (.journalAppend zc) s = .next t ∧ t.dev.jnl.waiting = rest ∧
      (s.dev.jnl.used + 64 ≤ 245760 → s.dev.jnl.used + 80 + b.bytes ≤ 245760 →
        ∃ l e, t.dev.jnl.staging = s.dev.jnl.staging ++ [l, e] ∧ l.seq = s.dev.jnl.nextSeq ∧
          l.body = jnlLost s.dev.clock.frame zc.val s.dev.jnl ∧ e.body = s.dev.jnl.stampBody s.dev.clock.frame zc.val b ∧
          t.dev.jnl.lostEvents = 0 ∧ t.dev.zreg Reg.ZN_JNL_CNT_APPEND = s.dev.zreg Reg.ZN_JNL_CNT_APPEND + 2) ∧
      (245760 < s.dev.jnl.used + 64 → b.isEvent = false → s.dev.jnl.used + 16 + b.bytes ≤ 262144 →
        ∃ e, t.dev.jnl.staging = s.dev.jnl.staging ++ [e] ∧ e.seq = s.dev.jnl.nextSeq ∧
          e.body = s.dev.jnl.stampBody s.dev.clock.frame zc.val b ∧ t.dev.jnl.lostEvents = s.dev.jnl.lostEvents)) ∧
  (∀ e : JEntry, (∀ first es, e.body = .ages first es → ∀ x ∈ es, x.length = 4) →
    (∀ u o n r x ts, e.body = .health u o n r x ts → x.length = 4) → (∀ ws, e.body = .cert ws → ws.length = 32) →
    (∀ b rows, e.body = .repair b rows → rows.length ≤ 64) →
    e.encode.length = 16 + e.body.bytes ∧ e.encode.take 2 = leBytes 2 e.body.type ∧ e.encode.drop 16 = e.body.encode) ∧
  (∀ (zc : Zc) (s : State), takeItem ArbItem.isEntry [] s.dev.jnl.waiting = none ∨ s.dev.off = true ∨
    (s.dev.start.mode = .starting ∧ s.dev.start.step ≤ 5) → exec (.journalAppend zc) s = .next s) ∧
  (∀ (e : JEntry) (rest : List JEntry) (s : State), s.dev.jnl.staging = e :: rest → s.dev.jnl.volatileRun = false →
    s.dev.ledger.state = .bound → s.dev.ledger.keyHeld = true → s.dev.jnl.sectorFill + e.flashBytes ≤ 65536 →
    ∃ t, exec .journalEntryDurable s = .next t ∧ t.dev.jnl.staging = rest ∧
      t.dev.jnl.durableSeq = (if s.dev.jnl.contiguous e.seq then some e.seq else s.dev.jnl.durableSeq) ∧
      (∀ w, e.body = .wear w 2 → t.dev.jnl.volatileRun = true) ∧
      Tbl.get [] t.dev.jnl.sectors s.dev.jnl.sector = Tbl.get [] s.dev.jnl.sectors s.dev.jnl.sector ++ [e] ∧
      t.dev.jnl.sectorFill = s.dev.jnl.sectorFill + e.flashBytes ∧ t.dev.jnl.nextSeq = s.dev.jnl.nextSeq ∧
      t.dev.jnl.waiting = s.dev.jnl.waiting ∧ State.SameBut [.jnl] s t) ∧
  (∀ s : State, s.dev.jnl.volatileRun = true ∨ s.dev.ledger.state ≠ .bound ∨ s.dev.ledger.keyHeld = false ∨
    s.dev.jnl.staging = [] ∨ (∃ e rest, s.dev.jnl.staging = e :: rest ∧ 65536 < s.dev.jnl.sectorFill + e.flashBytes) →
    exec .journalEntryDurable s = .next s) ∧
  (∀ (e : JEntry) (rest : List JEntry) (n : Nat) (s : State), s.dev.jnl.staging = e :: rest → s.dev.jnl.volatileRun = false →
    s.dev.ledger.state = .bound → 65536 < s.dev.jnl.sectorFill + e.flashBytes → s.dev.jnlSectors ≠ 0 →
    n = (s.dev.jnl.sector + 1) % s.dev.jnlSectors →
    ∃ t, exec .sectorErase s = .next t ∧ t.dev.jnl.staging = s.dev.jnl.staging ∧
      (Tbl.get [] s.dev.jnl.sectors n = [] ∨ s.dev.jnl.ckptIn (fun k => decide (k ≠ n)) = true →
        t.dev.jnl.sector = n ∧ t.dev.jnl.sectorFill = 64 ∧ Tbl.get [] t.dev.jnl.sectors n = [] ∧
        (∀ k : Nat, k ≠ n → Tbl.get [] t.dev.jnl.sectors k = Tbl.get [] s.dev.jnl.sectors k) ∧ t.dev.wear = s.dev.wear + 1 ∧
        Tbl.get 0 t.dev.jnl.erases n = Tbl.get 0 s.dev.jnl.erases n + 1 ∧ t.dev.jnl.ckptNear s.dev.jnlSectors = false) ∧
      (Tbl.get [] s.dev.jnl.sectors n ≠ [] → s.dev.jnl.ckptIn (fun k => decide (k ≠ n)) = false → s.dev.jnl.ckptComing = true →
        t = s) ∧
      (Tbl.get [] s.dev.jnl.sectors n ≠ [] → s.dev.jnl.ckptIn (fun k => decide (k ≠ n)) = false →
        s.dev.jnl.ckptComing = false →
        t.dev.jnl.sector = s.dev.jnl.sector ∧ t.dev.jnl.sectors = s.dev.jnl.sectors ∧
        t.dev.zreg Reg.ZN_JNL_CNT_CKPT = s.dev.zreg Reg.ZN_JNL_CNT_CKPT + 1 ∧
        State.SameBut [.jnl, .reg Reg.ZN_JNL_CNT_CKPT] s t) ∧
      State.SameBut [.afsin, .jnl, .ledger, .reg Reg.ZN_AFS_CNT_LOST, .reg Reg.ZN_AFS_CNT_SENT, .reg Reg.ZN_JNL_CNT_CKPT] s t) ∧
  (∀ s : State, s.dev.zf Reg.ZN_JNL_CKPT 5 0 ≠ 0 → s.dev.jnl.ckptAt + 2 ^ s.dev.zf Reg.ZN_JNL_CKPT 5 0 ≤ s.dev.clock.frame →
    ∃ t, exec .agesCheckpoint s = .next t ∧ t.dev.jnl.ckptAt = s.dev.clock.frame ∧
      t.dev.zreg Reg.ZN_JNL_CNT_CKPT = s.dev.zreg Reg.ZN_JNL_CNT_CKPT + 1 ∧
      t.dev.jnl.waiting.length = s.dev.jnl.waiting.length + 904 ∧ State.SameBut [.jnl, .reg Reg.ZN_JNL_CNT_CKPT] s t) ∧
  (∀ s : State, s.dev.zf Reg.ZN_JNL_CKPT 5 0 = 0 ∨
    s.dev.clock.frame < s.dev.jnl.ckptAt + 2 ^ s.dev.zf Reg.ZN_JNL_CKPT 5 0 → exec .agesCheckpoint s = .next s) ∧
  (∀ (p : Path) (s : State), s.dev.takesZ p Reg.ZN_JNL_SEQ_CMD 1 →
    ∃ t, exec (.jnlSeqSnap p) s = .next t ∧ (t.dev.path p).jnl.valid = true ∧
      (t.dev.path p).jnl.data = leWords 2 s.dev.jnl.nextSeq ++ leWords 2 (s.dev.jnl.durableSeq.getD 0xFFFFFFFFFFFFFFFF) ∧
      (∀ q : Path, pathNo q ≠ pathNo p → t.dev.path q = s.dev.path q) ∧ State.SameBut [.port] s t)

/-- COUNTER_SAMPLE, SYNC_WAIT_END, COMMAND_OFFER, CONTEXT_HALTED, CONTINUE, CONTINUE_ALL, DUMP_ARM, DUMP_CANCEL, DUMP_COPY_DONE,
GRAPH, GRAPH_DONE, COUNTER_READ and EXTREME_READ; the register commands where the write is accepted.
The model's readings in it: log entries 6, 16, 110, 111, 112, 113, 114 and 177. -/
def Obligations.DebugObservesAndHalts : Prop :=
  (∀ (k : Fin 8) (bank : BankId) (due n base : Nat) (l : List Byte) (s : State), s.dev.bankDown bank.val = false →
    due = Tbl.get 0 s.dev.dbg.due (192 * k.val + bank.val) → due ≠ 0 →
    l = s.dev.sampleBytes k.val bank.val (due / 2 - 1) (decide (due % 2 = 1)) (Tbl.get [] s.dev.dbg.snaps (192 * k.val + bank.val)) →
    n = s.dev.zf (Reg.ZN_CTR_S_SIZE + 0x20 * k.val) 15 0 →
    base = s.dev.dbgRegion.base + ((s.dev.streamSpan k.val).1 + bank.val * n) * 4096 →
    ∃ t, exec (.counterSample k bank) s = .next t ∧ t.pending = s.pending ∧ (∀ a : Nat, t.mem.slot a = s.mem.slot a) ∧
      (∀ a : Nat, (∀ i < n * 4096, a ≠ (base + i) % 2 ^ 48) → t.mem.byte a = s.mem.byte a) ∧
      Tbl.get 0 t.dev.dbg.due (192 * k.val + bank.val) = 0 ∧
      (ringUse (n * 256) (Tbl.get 0 (s.dev.bank bank.val).dbg.ctrRd k.val) (Tbl.get 0 (s.dev.bank bank.val).dbg.ctrWr k.val) +
          l.length / 16 < n * 256 →
        t.mem = writeRing s.mem base (n * 4096) (Tbl.get 0 (s.dev.bank bank.val).dbg.ctrWr k.val * 16) l ∧
        Tbl.get 0 (t.dev.bank bank.val).dbg.ctrWr k.val =
          (Tbl.get 0 (s.dev.bank bank.val).dbg.ctrWr k.val + l.length / 16) % (n * 256) ∧
        Tbl.get 0 (t.dev.bank bank.val).dbg.skippedRun k.val = 0) ∧
      (n * 256 ≤ ringUse (n * 256) (Tbl.get 0 (s.dev.bank bank.val).dbg.ctrRd k.val) (Tbl.get 0 (s.dev.bank bank.val).dbg.ctrWr k.val) +
          l.length / 16 → t.mem = s.mem ∧
        Tbl.get 0 (t.dev.bank bank.val).dbg.skippedRun k.val = Tbl.get 0 (s.dev.bank bank.val).dbg.skippedRun k.val + 1 ∧
        t.dev.zreg (Reg.ZN_CTR_S_SKIPPED + 0x20 * k.val) =
        s.dev.zreg (Reg.ZN_CTR_S_SKIPPED + 0x20 * k.val) + 1) ∧
      Dev.SameBut [.banks, .dbg, .reg (Reg.ZN_CTR_S_SKIPPED + 0x20 * k.val)] s.dev t.dev) ∧
  (∀ (k : Fin 8) (bank : BankId) (s : State), Tbl.get 0 s.dev.dbg.due (192 * k.val + bank.val) = 0 ∨
    s.dev.bankDown bank.val = true →
    exec (.counterSample k bank) s = .next s) ∧
  (∀ (bank : BankId) (pos : Pos) (clocks target : Word) (zc : Zc) (s : State), s.dev.tracing = true →
    s.dev.checking bank.val pos.val = true →
    (bitOf (s.dev.zreg Reg.ZN_TRC_CTL) 1 = false ∨ s.dev.ownerAt bank.val pos.val = bitsOf (s.dev.zreg Reg.ZN_TRC_CTL) 11 2) →
    s.dev.zf Reg.ZN_TRC_MIN 23 0 ≤ clocks.toNat →
    ∃ t, exec (.syncWaitEnd bank pos clocks target zc) s = .next t ∧
      ((s.dev.bank bank.val).dbg.traceLost = 0 → 1 ≤ s.dev.traceRoom bank.val →
        (t.dev.bank bank.val).dbg.staged = (s.dev.bank bank.val).dbg.staged ++
          [traceEvent (mkStamp s.dev.clock.frame zc.val) target.toNat pos.val 1 (s.dev.ownerAt bank.val pos.val)
            (waitDur clocks.toNat)] ∧ State.SameBut [.banks] s t) ∧
      ((s.dev.bank bank.val).dbg.traceLost ≠ 0 → 2 ≤ s.dev.traceRoom bank.val →
        (t.dev.bank bank.val).dbg.staged = (s.dev.bank bank.val).dbg.staged ++
          [traceEvent (BitVec.ofNat 64 (s.dev.bank bank.val).dbg.traceFirst) (s.dev.bank bank.val).dbg.traceLost 0x1FF 2 0 0,
           traceEvent (mkStamp s.dev.clock.frame zc.val) target.toNat pos.val 1 (s.dev.ownerAt bank.val pos.val)
            (waitDur clocks.toNat)] ∧ (t.dev.bank bank.val).dbg.traceLost = 0) ∧
      (s.dev.traceRoom bank.val = 0 ∨ (s.dev.traceRoom bank.val = 1 ∧ (s.dev.bank bank.val).dbg.traceLost ≠ 0) → (t.dev.bank bank.val).dbg.traceLost = (s.dev.bank bank.val).dbg.traceLost + 1 ∧
        t.dev.zreg Reg.ZN_TRC_CNT_LOST = s.dev.zreg Reg.ZN_TRC_CNT_LOST + 1 ∧
        (t.dev.bank bank.val).dbg.staged = (s.dev.bank bank.val).dbg.staged) ∧
      (∀ b : Nat, b ≠ bank.val → t.dev.bank b = s.dev.bank b) ∧ State.SameBut [.banks, .reg Reg.ZN_TRC_CNT_LOST] s t) ∧
  (∀ (bank : BankId) (pos : Pos) (clocks target : Word) (zc : Zc) (s : State), s.dev.tracing = false ∨
    s.dev.checking bank.val pos.val = false ∨
    (bitOf (s.dev.zreg Reg.ZN_TRC_CTL) 1 = true ∧ s.dev.ownerAt bank.val pos.val ≠ bitsOf (s.dev.zreg Reg.ZN_TRC_CTL) 11 2) ∨
    clocks.toNat < s.dev.zf Reg.ZN_TRC_MIN 23 0 → exec (.syncWaitEnd bank pos clocks target zc) s = .next s) ∧
  (∀ (bank : BankId) (tag : CmdTag) (held : Bool) (s : State), s.dev.bankDown bank.val = false → s.dev.cmdRefused bank.val tag = false →
    held = s.dev.cmdHeld bank.val tag ((s.dev.bank bank.val).dbg.withheld.map (fun x => x.tag)) →
    ∃ t, exec (.commandOffer bank tag) s = .next t ∧ t.mem = s.mem ∧ t.pending = s.pending ∧
      (held = true →
        (t.dev.bank bank.val).dbg.withheld = (s.dev.bank bank.val).dbg.withheld ++ [{ tag := tag, hit := false }] ∧ t.dev.dbg = s.dev.dbg ∧
        State.SameBut [.banks] s t) ∧
      (held = false → (∀ n < 8, s.dev.brkMatch n tag = false) →
        t.dev.dbg.hits = s.dev.dbg.hits ∧ (∀ e : Nat, t.dev.dump e = (s.dev.dump e).note bank.val tag) ∧
        State.SameBut [.dbg] s t) ∧
      (∀ n < 8, held = false → s.dev.brkMatch n tag = true →
        (∀ m < 8, m ≠ n → s.dev.brkMatch m tag = false) →
        (Tbl.get 0 s.dev.dbg.passes n < s.dev.zf (Reg.ZN_BRK_MATCH1 + 0x10 * n) 31 16 →
          Tbl.get 0 t.dev.dbg.passes n = Tbl.get 0 s.dev.dbg.passes n + 1 ∧ t.dev.dbg.hits = s.dev.dbg.hits ∧
          t.dev.banks = s.dev.banks) ∧
        (s.dev.zf (Reg.ZN_BRK_MATCH1 + 0x10 * n) 31 16 ≤ Tbl.get 0 s.dev.dbg.passes n →
          t.dev.dbg.hits = s.dev.dbg.hits ++
            [{ entry := n, since := s.dev.clock.frame, ctx := tag.ctx.val,
               isGlobal := bitOf (s.dev.zreg (Reg.ZN_BRK_CFG + 0x10 * n)) 4, bank := bank.val, releasing := false }] ∧
          (t.dev.bank bank.val).dbg.withheld = (s.dev.bank bank.val).dbg.withheld ++ [{ tag := tag, hit := true }] ∧
          t.dev.dbg.dumps = s.dev.dbg.dumps))) ∧
  (∀ (bank : BankId) (tag : CmdTag) (s : State), s.dev.bankDown bank.val = true ∨ s.dev.cmdRefused bank.val tag = true →
    exec (.commandOffer bank tag) s = .next s) ∧
  (∀ (c : CtxId) (s : State), (s.dev.ctx c.val).dbgState = 1 → s.dev.allIdle c.val = true →
    ∃ t, exec (.contextHalted c) s = .next t ∧ (t.dev.ctx c.val).dbgState = 2 ∧
      (∀ e : Nat, (s.dev.dump e).halting = true → (s.dev.dump e).state = 2 → (s.dev.dump e).ctx = c.val →
        (t.dev.dump e).state = 3 ∧ (t.dev.dump e).startFrame = s.dev.clock.frame) ∧
      (∀ k : Nat, k ≠ c.val → t.dev.ctx k = s.dev.ctx k) ∧ State.SameBut [.ctxs, .dbg] s t) ∧
  (∀ (c : CtxId) (s : State), (s.dev.ctx c.val).dbgState ≠ 1 ∨ s.dev.allIdle c.val = false →
    exec (.contextHalted c) s = .next s) ∧
  (∀ (p : Path) (c : CtxId) (s : State), s.dev.takesZ p Reg.ZN_BRK_CMD (w32 (1 + 65536 * c.val)) →
    ∃ t, exec (.continueHit p c) s = .next t ∧
      t.dev.dbg.hits = s.dev.dbg.hits.map (fun h =>
        if h.isGlobal = true ∨ h.ctx = c.val then { h with releasing := true } else h) ∧ State.SameBut [.dbg] s t) ∧
  (∀ (p : Path) (s : State), s.dev.takesZ p Reg.ZN_BRK_CMD 2 →
    ∃ t, exec (.continueAll p) s = .next t ∧ (∀ h ∈ t.dev.dbg.hits, h.releasing = true) ∧
      t.dev.dbg.hits.length = s.dev.dbg.hits.length ∧ State.SameBut [.dbg] s t) ∧
  (∀ (p : Path) (e : Fin 4) (limit : Nat) (s : State), s.dev.takesZ p Reg.ZN_DMP_CMD (w32 (1 + 256 * e.val)) →
    limit = s.dev.zf (Reg.ZN_DMP_LIMIT + 0x20 * e.val) 23 0 →
    ∃ t, exec (.dumpArm p e) s = .next t ∧
      (s.dev.locked = true → t.dev.zf Reg.ZN_DMP_RES 2 0 = 4 ∧ t.dev.dbg = s.dev.dbg) ∧
      (s.dev.locked = false → (s.dev.dump e.val).busy = true → t.dev.zf Reg.ZN_DMP_RES 2 0 = 3 ∧ t.dev.dbg = s.dev.dbg) ∧
      (s.dev.locked = false → (s.dev.dump e.val).busy = false → limit = 0 →
        t.dev.zf Reg.ZN_DMP_RES 2 0 = 2 ∧ t.dev.dbg = s.dev.dbg) ∧
      (s.dev.locked = false → (s.dev.dump e.val).busy = false → limit ≠ 0 →
        s.dev.spanOk (s.dev.zf (Reg.ZN_DMP_AREA + 0x20 * e.val) 23 0, limit) (s.dev.spansInUse 8 e.val false) = false →
        t.dev.zf Reg.ZN_DMP_RES 2 0 = 6 ∧ t.dev.dbg = s.dev.dbg ∧
        t.dev.zreg Reg.ZN_DBG_CNT_REJECT = s.dev.zreg Reg.ZN_DBG_CNT_REJECT + 1) ∧
      (s.dev.locked = false → (s.dev.dump e.val).busy = false → limit ≠ 0 →
        s.dev.spanOk (s.dev.zf (Reg.ZN_DMP_AREA + 0x20 * e.val) 23 0, limit) (s.dev.spansInUse 8 e.val false) = true →
        t.dev.zf Reg.ZN_DMP_RES 2 0 = 1 ∧ (t.dev.dump e.val).state = 1 ∧ (t.dev.dump e.val).extents = [] ∧
        (t.dev.dump e.val).ctx = s.dev.zf (Reg.ZN_DMP_CTX + 0x20 * e.val) 9 0 ∧ (t.dev.dump e.val).limit = limit) ∧
      (∀ k : Nat, k ≠ e.val → t.dev.dump k = s.dev.dump k) ∧
      State.SameBut [.dbg, .reg Reg.ZN_DBG_CNT_REJECT, .reg Reg.ZN_DMP_RES] s t) ∧
  (∀ (p : Path) (e : Fin 4) (s : State), s.dev.off = false → s.dev.locked = true → pathHost p = true → s.dev.notReady p = false →
    ∃ t, exec (.dumpArm p e) s = .next t ∧ t.dev.zf Reg.ZN_DMP_RES 2 0 = 4 ∧
      State.SameBut [.reg Reg.ZN_ALM_CNT_FROZEN, .reg Reg.ZN_DMP_RES] s t) ∧
  (∀ (p : Path) (e : Fin 4) (s : State), s.dev.takesZ p Reg.ZN_DMP_CMD (w32 (2 + 256 * e.val)) →
    ∃ t, exec (.dumpCancel p e) s = .next t ∧
      ((s.dev.dump e.val).busy = true → t.dev.zf Reg.ZN_DMP_RES 2 0 = 5 ∧ (t.dev.dump e.val).state = 0 ∧
        (t.dev.dump e.val).releasing = (s.dev.dump e.val).halting) ∧
      ((s.dev.dump e.val).busy = false → t.dev.zf Reg.ZN_DMP_RES 2 0 = 2 ∧ t.dev.dbg = s.dev.dbg) ∧
      (∀ k : Nat, k ≠ e.val → t.dev.dump k = s.dev.dump k) ∧ State.SameBut [.dbg, .reg Reg.ZN_DMP_RES] s t) ∧
  (∀ (e : Fin 4) (s : State), (s.dev.dump e.val).state = 3 →
    ∃ t, exec (.dumpCopyDone e) s = .next t ∧ t.pending = s.pending ∧ (t.dev.dump e.val).state = 4 ∧
      (t.dev.dump e.val).releasing = true ∧ (∀ a : Nat, t.mem.slot a = s.mem.slot a) ∧
      (∀ a : Nat, (∀ i < (s.dev.dump e.val).limit * 4096,
          a ≠ (s.dev.dbgRegion.base + (s.dev.dump e.val).area * 4096 + i) % 2 ^ 48) → t.mem.byte a = s.mem.byte a) ∧
      (∀ k : Nat, k ≠ e.val → t.dev.dump k = s.dev.dump k)) ∧
  (∀ (e : Fin 4) (s : State), (s.dev.dump e.val).state ≠ 3 → exec (.dumpCopyDone e) s = .next s) ∧
  (∀ (p : Path) (c : Nat) (s : State), s.dev.takesZ p Reg.ZN_WFG_CMD 1 → c = s.dev.zf Reg.ZN_CTX_SEL 9 0 →
    ∃ t, exec (.graph p) s = .next t ∧
      ((s.dev.ctx c).core.state = .active ∨ (s.dev.ctx c).core.state = .failed → t.dev.dbg.wfg = 1 ∧
        t.dev.dbg.wfgIncident = 0 ∧ t.dev.dbg.wfgWaits = s.dev.waitsNow c) ∧
      ((s.dev.ctx c).core.state ≠ .active → (s.dev.ctx c).core.state ≠ .failed → t.dev.dbg.wfg = 3) ∧ State.SameBut [.dbg] s t) ∧
  (∀ s : State, s.dev.dbg.wfg = 1 →
    ∃ t, exec .graphDone s = .next t ∧ t.dev.dbg.wfg = 2 ∧ t.pending = s.pending ∧
      t.dev.dbg.graphAt = s.dev.capSize / 4096 ∧
      t.mem = s.mem.write (s.dev.capRegion.base + s.dev.capSize) (s.dev.graphOf s.dev.dbg.wfgWaits s.dev.dbg.wfgIncident) ∧
      (∀ a : Nat, t.mem.slot a = s.mem.slot a) ∧
      (∀ a : Nat, (∀ i < (s.dev.graphOf s.dev.dbg.wfgWaits s.dev.dbg.wfgIncident).length,
          a ≠ (s.dev.capRegion.base + s.dev.capSize + i) % 2 ^ 48) → t.mem.byte a = s.mem.byte a) ∧ Dev.SameBut [.dbg] s.dev t.dev) ∧
  (∀ s : State, s.dev.dbg.wfg ≠ 1 → exec .graphDone s = .next s) ∧
  (∀ (p : Path) (bank : BankId) (pos : Pos) (s : State), s.dev.takesAt p (.ws bank.val pos.val Reg.WS_CTR_CMD) 1 →
    ∃ t m, exec (.counterRead p bank pos) s = .next t ∧
      Tbl.get Mailbox.init (t.dev.path p).counter (coreUnit bank.val pos.val) = m ∧ m.valid = true ∧
      m.data = leWords 2 (Tbl.get 0 (s.dev.wisp bank.val pos.val).counters
        (bitsOf ((s.dev.wisp bank.val pos.val).reg Reg.WS_CTR_SEL) 4 0)).toNat ∧
      (∀ q : Path, pathNo q ≠ pathNo p → t.dev.path q = s.dev.path q) ∧ State.SameBut [.port] s t) ∧
  (∀ (p : Path) (bank : BankId) (pos : Pos) (sel : Nat) (s : State),
    s.dev.takesAt p (.ws bank.val pos.val Reg.WS_REC_X_CMD) 1 →
    sel = ((s.dev.wisp bank.val pos.val).reg Reg.WS_REC_X_SEL).toNat →
    ∃ t m, exec (.extremeRead p bank pos) s = .next t ∧
      Tbl.get Mailbox.init (t.dev.path p).extreme (coreUnit bank.val pos.val) = m ∧ m.valid = true ∧
      (∀ e, Tbl.get none (s.dev.wisp bank.val pos.val).extremes (sel % 8 * 2 + sel / 8 % 2) = some e →
        m.data = [e.value, lo32 (mkStamp e.frame 0), hi32 (mkStamp e.frame 0)]) ∧
      (Tbl.get none (s.dev.wisp bank.val pos.val).extremes (sel % 8 * 2 + sel / 8 % 2) = none →
        m.data = [0, 0, 0] ∧ coreUnit bank.val pos.val ∈ (t.dev.path p).extremeEmpty) ∧
      (∀ q : Path, pathNo q ≠ pathNo p → t.dev.path q = s.dev.path q) ∧ State.SameBut [.port] s t)

/-! ## Keys, alarms and the management port -/

/-- VGLITCH, CGLITCH, TAMPER, DRBG_RESEED, DEBUG_CHALLENGE and DEBUG_UNLOCK.
The model's readings in it: log entries 103, 141 and 142. -/
def Obligations.AlarmsRaiseAndErase : Prop :=
  (∀ (c : Instr) (src : Nat) (s : State), (c = .vglitch ∧ src = 1) ∨ (c = .cglitch ∧ src = 2) ∨ (c = .tamper ∧ src = 3) →
    ∃ t, exec c s = .next t ∧ t.dev.aon.alarmLevel = max s.dev.aon.alarmLevel (s.dev.alarmLevelOf src) ∧
      t.dev.aon.raised = s.dev.aon.raised ||| BitVec.ofNat 6 (2 ^ src) ∧
      (s.dev.alarmLevelOf src = 3 →
        t.dev.ledger.keyHeld = false ∧ t.dev.afsin.session = none ∧ t.dev.aon.saltValid = false ∧ t.dev.aon.cacheValid = false ∧
        t.dev.jnl.staging = [] ∧ t.dev.jnl.volatileRun = true ∧ t.dev.alarms.exportRunning = none ∧
        t.dev.alarms.importPend = none) ∧
      (s.dev.alarmLevelOf src ≠ 3 → t.dev.ledger = s.dev.ledger ∧ t.dev.afsin.session = s.dev.afsin.session ∧
        t.dev.sd = { s.dev.sd with alarmed := s.dev.sd.alarmed || (!s.dev.off && s.dev.sdActive) }) ∧
      (s.dev.off = false → t.dev.zreg Reg.ZN_ALM_CNT_RAISE = s.dev.zreg Reg.ZN_ALM_CNT_RAISE + 1) ∧
      (s.dev.off = true → t.dev.zreg Reg.ZN_ALM_CNT_RAISE = s.dev.zreg Reg.ZN_ALM_CNT_RAISE ∧ t.dev.banks = s.dev.banks ∧
        t.dev.afsin.notices = s.dev.afsin.notices) ∧
      State.SameBut [.afsin, .alarm, .alarms, .aon, .banks, .jnl, .ledger, .sd, .reg Reg.ZN_AFS_CNT_LOST,
        .reg Reg.ZN_AFS_CNT_SENT, .reg Reg.ZN_ALM_CNT_RAISE, .reg Reg.ZN_EXP_STAT, .reg Reg.ZN_SD_STAT] s t) ∧
  (∀ (healthy : Bool) (s : State), s.dev.alarms.reseedAt + 65536 ≤ s.dev.clock.frame →
    ∃ t, exec (.drbgReseed healthy) s = .next t ∧ t.dev.alarms.reseedAt = s.dev.clock.frame ∧
      t.dev.alarms.entFail = !healthy ∧
      (healthy = true → State.SameBut [.alarms] s t) ∧
      (healthy = false → t.dev.aon.alarmLevel = max s.dev.aon.alarmLevel (s.dev.alarmLevelOf 5)) ∧
      State.SameBut [.afsin, .alarm, .alarms, .aon, .banks, .jnl, .ledger, .sd, .reg Reg.ZN_AFS_CNT_LOST,
        .reg Reg.ZN_AFS_CNT_SENT, .reg Reg.ZN_ALM_CNT_RAISE, .reg Reg.ZN_EXP_STAT, .reg Reg.ZN_SD_STAT] s t) ∧
  (∀ (healthy : Bool) (s : State), s.dev.clock.frame < s.dev.alarms.reseedAt + 65536 →
    exec (.drbgReseed healthy) s = .next s) ∧
  (∀ s : State, s.dev.off = false → s.dev.locked = false →
    ∃ t, exec .debugChallenge s = .next t ∧ t.dev.alarms.challenge = some ((Config.drbg s.dev.draws).setWidth 256) ∧
      t.dev.draws = s.dev.draws + 1 ∧ State.SameBut [.alarms, .draws] s t) ∧
  (∀ (sig : BitVec 768) (s : State), s.dev.off = true ∨ s.dev.locked = true →
    exec .debugChallenge s = .next s ∧ exec (.debugUnlock sig) s = .next s) ∧
  (∀ (sig : BitVec 768) (c : BitVec 256) (good : Bool) (s : State), s.dev.off = false → s.dev.locked = false → s.dev.alarms.challenge = some c →
    (good = true ↔ ∃ k, s.dev.imageKey 4 = some k ∧ Crypto.ecdsaVerify k (Crypto.digest (challengeBytes c)) sig = true) →
    ∃ t, exec (.debugUnlock sig) s = .next t ∧ t.dev.alarms.challenge = none ∧
      (good = true → t.dev.alarms.debugOpen = true ∧ t.dev.aon.debugFails = 0 ∧ t.dev.aon.alarmLevel = s.dev.aon.alarmLevel ∧
        State.SameBut [.alarms, .aon, .banks, .jnl] s t) ∧
      (good = false → t.dev.alarms.debugOpen = s.dev.alarms.debugOpen ∧ t.dev.aon.debugFails = min 3 (s.dev.aon.debugFails + 1) ∧
        (s.dev.aon.debugFails < 2 → t.dev.aon.alarmLevel = s.dev.aon.alarmLevel) ∧
        (2 ≤ s.dev.aon.debugFails → t.dev.aon.alarmLevel = max s.dev.aon.alarmLevel (s.dev.alarmLevelOf 4))) ∧
      State.SameBut [.afsin, .alarm, .alarms, .aon, .banks, .jnl, .ledger, .sd, .reg Reg.ZN_AFS_CNT_LOST,
        .reg Reg.ZN_AFS_CNT_SENT, .reg Reg.ZN_ALM_CNT_RAISE, .reg Reg.ZN_EXP_STAT, .reg Reg.ZN_SD_STAT] s t) ∧
  (∀ (sig : BitVec 768) (s : State), s.dev.alarms.challenge = none → exec (.debugUnlock sig) s = .next s)

/-- EXPORT of ZN_EXP_CMD where the write is accepted, EXPORT_DONE and IMPORT_APPLY.
The model's readings in it: log entries 6, 16, 147 and 157. -/
def Obligations.ExportsAndImports : Prop :=
  (∀ (p : Path) (s : State), s.dev.takesZ p Reg.ZN_EXP_CMD 1 →
    ∃ t, exec (.exportCmd p) s = .next t ∧
      (s.dev.alarms.exportRunning.isSome = true ∨ s.dev.alarms.importPend.isSome = true →
        t.dev.zf Reg.ZN_EXP_STAT 2 0 = 3 ∧ t.dev.alarms = s.dev.alarms) ∧
      (s.dev.alarms.exportRunning = none → s.dev.alarms.importPend = none →
        (s.dev.ledger.state ≠ .bound ∨ s.dev.jnl.volatileRun = true →
          t.dev.zf Reg.ZN_EXP_STAT 2 0 = 4 ∧ t.dev.alarms = s.dev.alarms) ∧
        (s.dev.ledger.state = .bound → s.dev.jnl.volatileRun = false →
          t.dev.zf Reg.ZN_EXP_STAT 2 0 = 1 ∧ t.dev.alarms.exportRunning = some (pathHost p))) ∧
      State.SameBut [.alarms, .reg Reg.ZN_EXP_STAT] s t) ∧
  (∀ (p : Path) (s : State), s.dev.off = false → s.dev.locked = true → pathHost p = true → s.dev.notReady p = false →
    s.dev.alarms.exportRunning = none → s.dev.alarms.importPend = none →
    ∃ t, exec (.exportCmd p) s = .next t ∧ t.dev.zf Reg.ZN_EXP_STAT 2 0 = 5 ∧
      State.SameBut [.reg Reg.ZN_ALM_CNT_FROZEN, .reg Reg.ZN_EXP_STAT] s t) ∧
  (∀ (host : Bool) (x : ExportSnap) (bytes : List Byte) (s : State), s.dev.alarms.exportRunning = some host →
    s.dev.alarms.exportSnap = some x → bytes = s.dev.exportBytes x s.dev.draws (s.dev.draws + 1) →
    ∃ t, exec .exportDone s = .next t ∧ t.pending = s.pending ∧ t.dev.zf Reg.ZN_EXP_STAT 2 0 = 2 ∧
      t.dev.alarms.exportRunning = none ∧ (∀ a : Nat, t.mem.slot a = s.mem.slot a) ∧
      (host = false → t.mem = s.mem ∧
        t.dev.afsin.response = s.dev.fragments s.dev.alarms.exportSeq bytes bytes.length 0) ∧
      (host = true → t.dev.afsin = s.dev.afsin ∧ t.mem = s.mem.write s.dev.exportAddr bytes ∧
        ∀ a : Nat, (∀ i < bytes.length, a ≠ (s.dev.exportAddr + i) % 2 ^ 48) → t.mem.byte a = s.mem.byte a) ∧
      (∃ more, t.dev.jnl.waiting = s.dev.jnl.waiting ++ [.entry (.exported (Crypto.digest bytes))] ++ more) ∧
      t.dev.draws = s.dev.draws + 2 ∧ Dev.SameBut [.afsin, .alarms, .draws, .jnl, .reg Reg.ZN_EXP_STAT] s.dev t.dev) ∧
  (∀ s : State, s.dev.alarms.exportRunning = none ∨ s.dev.alarms.exportSnap = none → exec .exportDone s = .next s) ∧
  (∀ (x : ImportPend) (s : State), s.dev.alarms.importPend = some x → s.dev.off = false → s.dev.clock.stopped = false →
    x.acceptedAt < s.dev.clock.frame →
    ∃ t, exec .importApply s = .next t ∧ t.mem = s.mem ∧ t.pending = s.pending ∧ t.dev.alarms.importPend = none ∧
      t.dev.zf Reg.ZN_EXP_STAT 5 3 = 1 ∧ (∀ u : Nat, s.dev.healthOf u = .eclipse → t.dev.healthOf u = .eclipse) ∧
      t.dev.aon.fuses = s.dev.aon.fuses) ∧
  (∀ (x : ImportPend) (s : State), s.dev.alarms.importPend = some x →
    s.dev.clock.frame ≤ x.acceptedAt ∨ s.dev.clock.stopped = true →
    exec .importApply s = .next s)

/-- Every request that must carry AUTH, and ENTDAA, SETDASA, the MCTP control commands, GET_ID, SESSION_OPEN, SESSION_TIMEOUT and
NOTICE_REOFFER. The layout of the answers to MCTP control commands is PRESUMED (log entry 143).
The model's readings in it: log entries 105, 140, 144, 145 and 148. -/
def Obligations.AfsinRequestsAreAuthenticated : Prop :=
  (∀ (c : Instr) (h : AfsHead) (code : Nat) (body : List Byte) (s : State), afsRequest c = some (h, code, body) →
    (s.dev.afsOn = false → exec c s = .next s) ∧
    (s.dev.afsOn = true → s.dev.afsin.session = none →
      exec c s = .next (s.onDev (fun d => d.respond code h.seq stNOSESSION []))) ∧
    (∀ key, s.dev.afsOn = true → s.dev.afsin.session = some key → s.dev.tagOk key h code body = false →
      exec c s = .next (s.onDev (fun d => (d.bumpZ Reg.ZN_AFS_CNT_BADAUTH).respond code h.seq stBADAUTH []))) ∧
    (∀ key n, s.dev.afsOn = true → s.dev.afsin.session = some key → s.dev.tagOk key h code body = true →
      s.dev.afsin.lastSeq = some n → h.seq.toNat ≤ n →
      exec c s = .next (s.onDev (fun d => (d.bumpZ Reg.ZN_AFS_CNT_BADAUTH).respond code h.seq stBADSEQ [])))) ∧
  (∀ (addr : BitVec 7) (s : State),
    (s.dev.off = false → s.dev.afsin.dynAddr = 0 →
      exec (.entdaa addr) s = .next { s with dev := { s.dev with afsin := { s.dev.afsin with dynAddr := addr } } }) ∧
    (s.dev.afsin.dynAddr ≠ 0 → exec (.entdaa addr) s = .next s ∧ exec (.setdasa addr) s = .next s) ∧
    (s.dev.afsOn = true → s.dev.cfg.i3cStatic ≠ 0 → s.dev.afsin.dynAddr = 0 →
      exec (.setdasa addr) s = .next { s with dev := { s.dev with afsin := { s.dev.afsin with dynAddr := addr } } }) ∧
    (s.dev.cfg.i3cStatic = 0 → exec (.setdasa addr) s = .next s)) ∧
  (∀ (eid : BitVec 8) (s : State), s.dev.off = false →
    (∃ t, exec (.setEndpointId eid) s = .next t ∧ t.dev.afsin.eid = eid ∧ t.dev.afsin.response = [0, 0, eid, 0] ∧
      State.SameBut [.afsin] s t) ∧
    (∃ t, exec .getEndpointId s = .next t ∧ t.dev.afsin = { s.dev.afsin with response := [0, s.dev.afsin.eid, 0, 0] } ∧
      State.SameBut [.afsin] s t) ∧
    (∃ t, exec .getMctpVersionSupport s = .next t ∧ t.dev.afsin = { s.dev.afsin with response := [0, 1, 0xF1, 0xF3, 0xFF, 0] } ∧
      State.SameBut [.afsin] s t) ∧
    (∃ t, exec .getMessageTypeSupport s = .next t ∧
      t.dev.afsin = { s.dev.afsin with response := if s.dev.start.mode = .unconfigured then [0, 0] else [0, 1, 0x7F] } ∧
      State.SameBut [.afsin] s t) ∧
    (∃ t, exec .getVendorDefinedMessageSupport s = .next t ∧
      (s.dev.start.mode ≠ .unconfigured → t.dev.afsin.response =
        [0, 0xFF, 1] ++ Crypto.beBytes 4 s.dev.cfg.vendorIana ++ [1, 0]) ∧ State.SameBut [.afsin] s t)) ∧
  (∀ (seq : Word) (s : State), s.dev.afsOn = true →
    exec (.getId seq) s = .next (s.onDev (fun d => d.respond 0x40 seq stOK
      (Crypto.chipBytes ++ leBytes 4 0x4F44C192 ++ Crypto.beBytes 97 Crypto.devicePublic.toNat ++
        leBytes 8 d.ledger.uid.toNat)))) ∧
  (∀ (seq : Word) (pub : BitVec 776) (nonce : BitVec 256) (sig : BitVec 768) (s : State), s.dev.afsOn = true →
    ∃ t, exec (.sessionOpen seq pub nonce sig) s = .next t ∧
      (s.dev.openOk pub nonce sig = true → t.dev.afsin.session.isSome = true ∧ t.dev.afsin.lastSeq = none ∧
        t.dev.afsin.lastAuth = s.dev.clock.frame ∧ t.dev.draws = s.dev.draws + 3 ∧ State.SameBut [.afsin, .draws] s t) ∧
      (s.dev.openOk pub nonce sig = false → t.dev.afsin.session = s.dev.afsin.session ∧
        t.dev.zreg Reg.ZN_AFS_CNT_BADAUTH = s.dev.zreg Reg.ZN_AFS_CNT_BADAUTH + 1 ∧
        State.SameBut [.afsin, .reg Reg.ZN_AFS_CNT_BADAUTH] s t)) ∧
  (∀ s : State, s.dev.afsin.session.isSome = true → s.dev.afsin.lastAuth + 2 ^ 30 ≤ s.dev.clock.frame →
    ∃ t, exec .sessionTimeout s = .next t ∧ t.dev.afsin = { s.dev.afsin with session := none, lastSeq := none } ∧
      State.SameBut [.afsin] s t) ∧
  (∀ s : State, s.dev.afsin.session = none ∨ s.dev.clock.frame < s.dev.afsin.lastAuth + 2 ^ 30 →
    exec .sessionTimeout s = .next s) ∧
  (∀ s : State, s.dev.afsOn = true → (s.dev.afsin.notices ≠ [] ∨ s.dev.afsin.lostPending ≠ 0) →
    s.dev.afsin.offeredAt + 65536 ≤ s.dev.clock.frame →
    ∃ t, exec .noticeReoffer s = .next t ∧ t.dev.afsin = { s.dev.afsin with ibi := true, offeredAt := s.dev.clock.frame } ∧
      State.SameBut [.afsin] s t) ∧
  (∀ s : State, (s.dev.afsin.notices = [] ∧ s.dev.afsin.lostPending = 0) ∨ s.dev.clock.frame < s.dev.afsin.offeredAt + 65536 →
    exec .noticeReoffer s = .next s)

/-- SESSION_CLOSE, NOTICE_ACK, REG_READ, REG_WRITE, UNIT_SET, TEST_REQ, PAT_FRAGMENT, PAT_COMMIT, AFSIN_SHUTDOWN, REC_CLEAR,
AFSIN_EXPORT, IMPORT_FRAGMENT, IMPORT_COMMIT, FORMAT and ALARM_CLEAR where the request is accepted.
The model's readings in it: log entries 6, 16, 78, 85, 94, 102, 146, 147 and 173. -/
def Obligations.AcceptedRequestsAct : Prop :=
  (∀ (h : AfsHead) (s : State), s.dev.takesReq h 0x42 [] →
    ∃ t, exec (.sessionClose h) s = .next t ∧ t.dev.afsin.session = none ∧ t.dev.afsin.lastAuth = s.dev.clock.frame ∧
      t.dev.afsin.notices = s.dev.afsin.notices ∧ State.SameBut [.afsin] s t) ∧
  (∀ (h : AfsHead) (ack : Word) (s : State), s.dev.takesReq h 0x43 (leBytes 4 ack.toNat) →
    ∃ t, exec (.noticeAck h ack) s = .next t ∧ t.dev.afsin.lastSeq = some h.seq.toNat ∧
      (∀ n, n ∈ t.dev.afsin.notices ↔ n ∈ s.dev.afsin.notices ∧ serLe (w32 n.seq) ack = false) ∧
      (t.dev.afsin.ibi = false ↔ t.dev.afsin.notices = [] ∧ t.dev.afsin.lostPending = 0) ∧ State.SameBut [.afsin] s t) ∧
  (∀ (h : AfsHead) (space : BitVec 8) (addr : Word) (s : State), s.dev.takesReq h 0x44 (regBody space addr 0) →
    ∃ t, exec (.regRead h space addr) s = .next t ∧ t.dev.afsin.lastSeq = some h.seq.toNat ∧ t.mem = s.mem ∧
      (space = 0 → addr.toNat < 0x10000 →
        t.dev.regs = (((s.dev.noteRequest h).readReg .mgmt (addr.toNat / 4 * 4)).regs) ∧
        t = s.onDev (fun d => ((d.noteRequest h).readReg .mgmt (addr.toNat / 4 * 4)).respond 0x44 h.seq stOK
          (regBody space addr ((d.noteRequest h).readReg .mgmt (addr.toNat / 4 * 4)).regs.readData))) ∧
      (2 ≤ space.toNat → t.dev.regs = { s.dev.regs with readData := 0 } ∧ State.SameBut [.afsin, .port] s t)) ∧
  (∀ (h : AfsHead) (space : BitVec 8) (addr value : Word) (s : State), s.dev.takesReq h 0x45 (regBody space addr value) →
    ∃ t, exec (.regWrite h space addr value) s = .next t ∧ t.pending = s.pending ∧
      (space = 0 → addr.toNat < 0x10000 →
        t = ((s.onDev (fun d => d.noteRequest h)).writeReg .mgmt (addr.toNat / 4 * 4) value).onDev
          (fun d => d.respond 0x45 h.seq stOK [])) ∧
      (2 ≤ space.toNat → State.SameBut [.afsin] s t)) ∧
  (∀ (h : AfsHead) (u : UnitId) (st : BitVec 3) (reason : BitVec 8) (x : Health) (s : State),
    s.dev.takesReq h 0x46 (leBytes 4 u.val ++ [st.setWidth 8, reason]) →
    (unitKind u.val = .core ∨ unitKind u.val = .slice ∨ unitKind u.val = .region) → Health.ofCode st.toNat = some x →
    s.dev.clock.stopped = false →
    ∃ t, exec (.unitSet h u st reason) s = .next t ∧ t.dev.healthOf u.val = x ∧
      (t.dev.uht u.val).reason = (if reason.toNat ≤ 0x17 then reason.toNat else (s.dev.uht u.val).reason) ∧
      t.dev.afsin.lastSeq = some h.seq.toNat ∧ t.dev.zreg Reg.ZN_UHT_CNT_SET = s.dev.zreg Reg.ZN_UHT_CNT_SET + 1 ∧
      (∀ v : Nat, v ≠ u.val → t.dev.uht v = s.dev.uht v)) ∧
  (∀ (h : AfsHead) (sel count : Word) (s : State), s.dev.takesReq h 0x47 (leBytes 4 sel.toNat ++ leBytes 4 count.toNat) →
    exec (.testReq h sel count) s = .next (s.onDev (fun d =>
      (((d.noteRequest h).startRequest sel count).1).respond 0x47 h.seq
        (if ((d.noteRequest h).startRequest sel count).2 = 1 then stOK else stOf ((d.noteRequest h).startRequest sel count).2) []))) ∧
  (∀ (h : AfsHead) (offset : Word) (data : List Byte) (s : State), s.dev.takesReq h 0x48 (fragBody offset data) →
    ∃ t, exec (.patFragment h offset data) s = .next t ∧ t.pending = s.pending ∧ (∀ a : Nat, t.mem.slot a = s.mem.slot a) ∧
      (fragOk s.dev.afsin.patStage offset data (9 * 2 ^ 20) = true → t.dev.afsin.patStage = s.dev.afsin.patStage ++ data ∧
        (∀ base, s.dev.stageBase = some base → ∀ a : Nat, (∀ i < data.length, a ≠ (base + offset.toNat + i) % 2 ^ 48) →
          t.mem.byte a = s.mem.byte a)) ∧
      (fragOk s.dev.afsin.patStage offset data (9 * 2 ^ 20) = false → t.dev.afsin.patStage = [] ∧ t.mem = s.mem) ∧
      Dev.SameBut [.afsin] s.dev t.dev) ∧
  (∀ (h : AfsHead) (len : Word) (l : List Byte) (s : State), s.dev.takesReq h 0x49 (leBytes 4 len.toNat) →
    l = s.dev.afsin.patStage →
    ∃ t, exec (.patCommit h len) s = .next t ∧ t.dev.afsin.patStage = [] ∧
      (len.toNat ≠ l.length → t.dev.pat = s.dev.pat) ∧
      (len.toNat = l.length → l = [] → t.dev.zf Reg.ZN_PAT_STAT 3 0 = 2 ∧ t.dev.pat = s.dev.pat) ∧
      (len.toNat = l.length → l ≠ [] → s.dev.patBusy = true → t.dev.zf Reg.ZN_PAT_STAT 3 0 = 3 ∧ t.dev.pat = s.dev.pat) ∧
      (len.toNat = l.length → l ≠ [] → s.dev.patBusy = false → t.dev.pat = { s.dev.pat with stage := l }) ∧
      State.SameBut [.afsin, .pat, .reg Reg.ZN_PAT_STAT] s t) ∧
  (∀ (h : AfsHead) (s : State), s.dev.takesReq h 0x4A [] →
    ∃ t, exec (.afsinShutdown h) s = .next t ∧ t.dev.afsin.lastSeq = some h.seq.toNat ∧
      (s.dev.sdActive = false → s.dev.dbgHold 0 = false → s.dev.clock.stopped = false → s.dev.ctxOpen = false →
        t.dev.zf Reg.ZN_SD_STAT 7 4 = 1 ∧ t.dev.sd.quiescePend = true) ∧
      (s.dev.sdActive = true → t.dev.zf Reg.ZN_SD_STAT 7 4 = 2 ∧ t.dev.sd = s.dev.sd)) ∧
  (∀ (h : AfsHead) (bank : BitVec 8) (s : State), s.dev.takesReq h 0x4B [bank] →
    ∃ t, exec (.recClear h bank) s = .next t ∧
      (bank.toNat < 192 → (t.dev.bank bank.toNat).ring.clearPend = some false ∧
        (∀ b : Nat, b ≠ bank.toNat → t.dev.bank b = s.dev.bank b)) ∧
      (bank = 0xFF → ∀ b < 192, (t.dev.bank b).ring.clearPend = some false) ∧
      (192 ≤ bank.toNat → bank ≠ 0xFF → t.dev.banks = s.dev.banks) ∧ State.SameBut [.afsin, .banks] s t) ∧
  (∀ (h : AfsHead) (s : State), s.dev.takesReq h 0x4C [] →
    ∃ t, exec (.afsinExport h) s = .next t ∧ t.dev.afsin.lastSeq = some h.seq.toNat ∧
      (s.dev.alarms.exportRunning = none → s.dev.alarms.importPend = none → s.dev.ledger.state = .bound →
        s.dev.jnl.volatileRun = false → t.dev.alarms.exportRunning = some false ∧ t.dev.alarms.exportSeq = h.seq ∧
        t.dev.afsin.response = s.dev.afsin.response) ∧
      (s.dev.alarms.exportRunning.isSome = true → t.dev.zf Reg.ZN_EXP_STAT 2 0 = 3 ∧ t.dev.alarms = s.dev.alarms) ∧
      State.SameBut [.afsin, .alarms, .reg Reg.ZN_EXP_STAT] s t) ∧
  (∀ (h : AfsHead) (offset : Word) (data : List Byte) (s : State), s.dev.takesReq h 0x4D (fragBody offset data) →
    ∃ t, exec (.importFragment h offset data) s = .next t ∧
      t.dev.afsin.impStage = (if fragOk s.dev.afsin.impStage offset data exportLen then s.dev.afsin.impStage ++ data else []) ∧
      State.SameBut [.afsin] s t) ∧
  (∀ (h : AfsHead) (len : Word) (l : List Byte) (s : State), s.dev.takesReq h 0x4E (leBytes 4 len.toNat) →
    l = s.dev.afsin.impStage →
    ∃ t, exec (.importCommit h len) s = .next t ∧ t.dev.afsin.impStage = [] ∧
      (len.toNat ≠ l.length → t.dev.alarms = s.dev.alarms) ∧
      (len.toNat = l.length → s.dev.importRefusal l ≠ 0 →
        t.dev.alarms = s.dev.alarms ∧ t.dev.zf Reg.ZN_EXP_STAT 5 3 = s.dev.importRefusal l) ∧
      (len.toNat = l.length → s.dev.importRefusal l = 0 → t.dev.alarms.importPend.isSome = true) ∧
      State.SameBut [.afsin, .alarms, .jnl, .reg Reg.ZN_EXP_STAT] s t) ∧
  (∀ (h : AfsHead) (s : State), s.dev.takesReq h 0x4F [] →
    ∃ t, exec (.format h) s = .next t ∧
      (s.dev.ledger.state = .foreign → s.dev.sdActive = false → t.dev.ledger.state = .bound ∧ t.dev.ledger.keyHeld = true ∧
        t.dev.aon.saltValid = true ∧ t.dev.jnl.volatileRun = false ∧ t.dev.jnl.sectors = [] ∧
        t.dev.jnl.nextSeq = s.dev.jnl.nextSeq ∧ t.dev.jnl.staging = s.dev.jnl.staging ∧
        (∃ h, t.dev.ledger.header = some h ∧ t.dev.ledger.copyA = some h ∧ t.dev.ledger.copyB = some h ∧
          h.uid = s.dev.ledger.uid ∧ h.salt = some t.dev.aon.salt ∧
          t.dev.ledger.ledgerKey = Crypto.ledgerKey h.uid t.dev.aon.salt h.gen)) ∧
      (s.dev.ledger.state ≠ .foreign ∨ s.dev.sdActive = true → State.SameBut [.afsin] s t) ∧
      State.SameBut [.afsin, .aon, .draws, .jnl, .ledger] s t) ∧
  (∀ (h : AfsHead) (s : State), s.dev.takesReq h 0x50 [] →
    ∃ t, exec (.alarmClear h) s = .next t ∧ t.dev.aon.alarmLevel = 0 ∧ t.dev.aon.raised = 0 ∧
      t.dev.afsin.lastSeq = some h.seq.toNat ∧ State.SameBut [.afsin, .alarm] s t)

/-! ## Storage protection and scrub -/

/-- PAGE_DECODE_DONE, PATROL and PATROL_NOW, the last where the write is accepted. That the staged entries stand one after another from
the start of staging is the model's choice (log entry 130). The model's readings in it: log entries 129, 131, 134 and 170. -/
def Obligations.PagesAreCorrectedOrLost : Prop :=
  (∀ b : Byte, readHits (nineBits b) = false ∧ ∀ k < 9, readHits (nineBits b ^^^ BitVec.ofNat 9 (2 ^ k)) = true) ∧
  (generator.length = 9 ∧ generator.getD 8 0 = 1 ∧ (∀ l < 8, polyEval generator (alphaPow l) = 0) ∧
    (∀ data : List Nat, (checkSymbols data).length = 8)) ∧
  (∀ (x : Page) (pos : Nat), pos < 4096 →
    (x.waits ≠ [] ∨ writeHits x.cells pos = true → x.write pos = { x with waits := x.waits ++ [pos] }) ∧
    (x.waits = [] → writeHits x.cells pos = false → (x.write pos).waits = [] ∧ Tbl.get 0 (x.write pos).cells pos = 0 ∧
      (∀ q, q ≠ pos → (∀ k < 8, q ≠ checkPos (interleaveOf pos) k) → Tbl.get 0 (x.write pos).cells q = Tbl.get 0 x.cells q) ∧
      (∀ k < 8, (Tbl.get 0 (x.write pos).cells (checkPos (interleaveOf pos) k)).toNat % 256 =
        (Tbl.get 0 x.cells (checkPos (interleaveOf pos) k)).toNat % 256 ^^^
          gfMul ((Tbl.get 0 x.cells pos).toNat % 256) (genCoeff (indexOf pos) k)))) ∧
  (∀ (st : PageStore) (n : Nat) (x : Page) (s : State), x = s.dev.page (pageKey st n) → x.hits ≠ 0 → s.dev.storeDown st = false →
    ∃ t, exec (.pageDecodeDone ⟨st, n⟩) s = .next t ∧
      t.dev.zreg Reg.ZN_PROT_CNT_PAR = s.dev.zreg Reg.ZN_PROT_CNT_PAR + w32 x.hits ∧
      (∀ k : Nat, k ≠ pageKey st n → t.dev.page k = s.dev.page k) ∧
      (∀ cells sym, decodePage x.cells = some (cells, sym) →
        t.dev.page (pageKey st n) = { cells := x.waits.foldl writeCell cells, waits := [] } ∧
        t.dev.zreg Reg.ZN_PROT_CNT_CORR = s.dev.zreg Reg.ZN_PROT_CNT_CORR + (if sym = 0 then 0 else 1) ∧
        t.dev.zreg Reg.ZN_PROT_CNT_SYM = s.dev.zreg Reg.ZN_PROT_CNT_SYM + w32 sym ∧
        (∀ b, storeBank st = some b → sym ≠ 0 → bitsOf ((t.dev.bank b).reg Reg.BK_PROT_PAR) 15 0 =
          min 0xFFFF (bitsOf ((s.dev.bank b).reg Reg.BK_PROT_PAR) 15 0 + 1)) ∧
        (∀ b : Nat, storeBank st ≠ some b → t.dev.bank b = s.dev.bank b) ∧
        State.SameBut [.banks, .prot, .reg Reg.ZN_PROT_CNT_CORR, .reg Reg.ZN_PROT_CNT_PAR, .reg Reg.ZN_PROT_CNT_SYM] s t) ∧
      (decodePage x.cells = none → st ≠ .pattern → st ≠ .journal →
        (s.dev.hang.chipReset = false → s.dev.hang.chipCause = none → t.dev.hang.chipCause = some 3) ∧
        (s.dev.hang.chipReset = true ∨ s.dev.hang.chipCause.isSome = true → t.dev.hang = s.dev.hang) ∧
        State.SameBut [.hang, .reg Reg.ZN_PROT_CNT_PAR] s t) ∧
      (decodePage x.cells = none → st = .journal →
        t.dev.page (pageKey st n) = Page.init ∧ t.dev.jnl.staging = (splitStaging n 0 s.dev.jnl.staging).1 ∧
        (∀ e ∈ t.dev.jnl.staging, e ∈ s.dev.jnl.staging) ∧
        t.dev.jnl.staging.length ≤ s.dev.jnl.staging.length ∧
        t.dev.jnl.lostEvents + t.dev.jnl.lostOthers + t.dev.jnl.staging.length =
          s.dev.jnl.lostEvents + s.dev.jnl.lostOthers + s.dev.jnl.staging.length ∧
        t.dev.zreg Reg.ZN_JNL_CNT_LOST =
          s.dev.zreg Reg.ZN_JNL_CNT_LOST + w32 (s.dev.jnl.staging.length - t.dev.jnl.staging.length) ∧
        State.SameBut [.jnl, .prot, .reg Reg.ZN_JNL_CNT_LOST, .reg Reg.ZN_PROT_CNT_PAR] s t) ∧
      (decodePage x.cells = none → st = .pattern → s.dev.pat.installed ≠ [] → s.dev.canReload = true →
        t.dev.page (pageKey st n) = Page.init ∧
        t.dev.zreg Reg.ZN_PROT_CNT_RELOAD = s.dev.zreg Reg.ZN_PROT_CNT_RELOAD + 1 ∧
        State.SameBut [.prot, .reg Reg.ZN_PROT_CNT_PAR, .reg Reg.ZN_PROT_CNT_RELOAD] s t) ∧
      (decodePage x.cells = none → st = .pattern → s.dev.pat.installed ≠ [] → s.dev.canReload = false →
        t.dev.page (pageKey st n) = Page.init ∧ t.dev.pat.installed = [] ∧ t.dev.pat.version = 0) ∧
      State.SameBut [.afsin, .banks, .clock, .ctxs, .hang, .health, .jnl, .pat, .prot, .wisps, .reg Reg.ZN_AFS_CNT_LOST,
        .reg Reg.ZN_AFS_CNT_SENT, .reg Reg.ZN_HANG_CNT_ANV_ISO, .reg Reg.ZN_HANG_CNT_BANK_ISO, .reg Reg.ZN_JNL_CNT_LOST,
        .reg Reg.ZN_PROT_CNT_CORR, .reg Reg.ZN_PROT_CNT_PAR, .reg Reg.ZN_PROT_CNT_RELOAD, .reg Reg.ZN_PROT_CNT_SYM,
        .reg Reg.ZN_UHT_CNT_CLEAR, .reg Reg.ZN_UHT_CNT_ECLIPSE, .reg Reg.ZN_UHT_CNT_HAZE, .reg Reg.ZN_UHT_CNT_OVERCAST,
        .reg Reg.ZN_UHT_CNT_SET] s t) ∧
  (∀ (st : PageStore) (n : Nat) (s : State), (s.dev.page (pageKey st n)).hits = 0 ∨ s.dev.storeDown st = true →
    exec (.pageDecodeDone ⟨st, n⟩) s = .next s) ∧
  (∀ s : State, s.dev.zf Reg.ZN_PROT_CTL 4 0 ≠ 0 → s.dev.imageInUse = true →
    s.dev.prot.patrolAt + 2 ^ s.dev.zf Reg.ZN_PROT_CTL 4 0 ≤ s.dev.clock.frame →
    ∃ t, exec .patrol s = .next t ∧ t.dev.prot.patrolAt = s.dev.clock.frame ∧
      (s.dev.prot.patrolBusy = false → s.dev.hang.chipReset = false →
        t.dev.prot.patrolBusy = true ∧ t.dev.prot.patrolFrom = s.dev.clock.frame) ∧
      (s.dev.prot.patrolBusy = true → t.dev.prot.patrolBusy = true ∧ t.dev.prot.patrolFrom = s.dev.prot.patrolFrom) ∧
      t.dev.prot.scrub = s.dev.prot.scrub ∧ State.SameBut [.prot] s t) ∧
  (∀ s : State, s.dev.zf Reg.ZN_PROT_CTL 4 0 = 0 ∨ s.dev.imageInUse = false ∨
    s.dev.clock.frame < s.dev.prot.patrolAt + 2 ^ s.dev.zf Reg.ZN_PROT_CTL 4 0 → exec .patrol s = .next s) ∧
  (∀ (p : Path) (s : State), s.dev.takesZ p Reg.ZN_PROT_CMD 1 →
    ∃ t, exec (.patrolNow p) s = .next t ∧
      (s.dev.prot.patrolBusy = false → s.dev.hang.chipReset = false →
        t.dev.prot.patrolBusy = true ∧ t.dev.prot.patrolFrom = s.dev.clock.frame) ∧
      (s.dev.prot.patrolBusy = true ∨ s.dev.hang.chipReset = true → t = s) ∧
      t.dev.prot.scrub = s.dev.prot.scrub ∧ State.SameBut [.prot] s t)

/-- HOST_MEMORY_REPORT and HMR_DROP_COUNT. The model's readings in it: log entries 73, 131 and 132. -/
def Obligations.HostReportsAreAppliedToTheirUnit : Prop :=
  (∀ (ue consumed scrub : Bool) (loc : HostLoc) (s : State), s.dev.clamped = false → s.dev.hang.chipReset = false →
    ∃ t, exec (.hostMemoryReport ue consumed scrub loc) s = .next t ∧
      (s.dev.locUnit loc = none →
        t.dev.zreg Reg.ZN_HMR_CNT_UNMAPPED = s.dev.zreg Reg.ZN_HMR_CNT_UNMAPPED + 1 ∧
        t.dev.zreg Reg.ZN_HMR_LAST = s.dev.zreg Reg.ZN_HMR_LAST ∧ t.dev.health = s.dev.health) ∧
      (∀ u, s.dev.locUnit loc = some u →
        t.dev.zreg Reg.ZN_HMR_LAST = w32 (u + 2 ^ 17 * bit ue + 2 ^ 18 * bit consumed + 2 ^ 19 * bit scrub) ∧
        t.dev.zreg Reg.ZN_HMR_CNT_UNMAPPED = s.dev.zreg Reg.ZN_HMR_CNT_UNMAPPED ∧
        t.dev.zreg Reg.ZN_HMR_CNT_CE = s.dev.zreg Reg.ZN_HMR_CNT_CE + (if ue then 0 else 1) ∧
        t.dev.zreg Reg.ZN_HMR_CNT_UE = s.dev.zreg Reg.ZN_HMR_CNT_UE + (if ue then 1 else 0) ∧
        (ue = true → consumed = false → s.dev.clock.stopped = false → t.dev.healthOf u = .eclipse) ∧
        (s.dev.clock.stopped = true → t.dev.health = s.dev.health ∧ t.dev.clock.stopHealth = s.dev.clock.stopHealth ++
          (if ue then (u, .charge rHOST_REPORT) :: (if consumed then [] else [(u, .retire)]) else [(u, .ce)]))) ∧
      (ue = true → consumed = true → s.dev.hang.chipCause = none → t.dev.hang.chipCause = some 2) ∧
      (ue = false ∨ consumed = false → t.dev.hang = s.dev.hang) ∧
      (scrub = false → t.dev.zreg Reg.ZN_SCR_CE = s.dev.zreg Reg.ZN_SCR_CE ∧ t.dev.zreg Reg.ZN_SCR_UE = s.dev.zreg Reg.ZN_SCR_UE) ∧
      (scrub = true → ue = false →
        t.dev.zreg Reg.ZN_SCR_CE = w32 (min 0xFFFFFFFF ((s.dev.zreg Reg.ZN_SCR_CE).toNat + 1))) ∧
      (scrub = true → ue = true → consumed = false →
        t.dev.zreg Reg.ZN_SCR_UE = w32 (min 0xFFFFFFFF ((s.dev.zreg Reg.ZN_SCR_UE).toNat + 1))) ∧
      State.SameBut [.afsin, .banks, .clock, .ctxs, .hang, .health, .jnl, .pat, .prot, .wisps, .reg Reg.ZN_HMR_LAST,
        .reg Reg.ZN_HMR_CNT_CE, .reg Reg.ZN_HMR_CNT_UE, .reg Reg.ZN_HMR_CNT_UNMAPPED, .reg Reg.ZN_SCR_CE, .reg Reg.ZN_SCR_UE,
        .reg Reg.ZN_SCR_RETIRED, .reg Reg.ZN_AFS_CNT_LOST, .reg Reg.ZN_AFS_CNT_SENT, .reg Reg.ZN_HANG_CNT_ANV_ISO,
        .reg Reg.ZN_HANG_CNT_BANK_ISO, .reg Reg.ZN_UHT_CNT_CLEAR, .reg Reg.ZN_UHT_CNT_ECLIPSE, .reg Reg.ZN_UHT_CNT_HAZE,
        .reg Reg.ZN_UHT_CNT_OVERCAST, .reg Reg.ZN_UHT_CNT_SET] s t) ∧
  (∀ (ue consumed scrub : Bool) (loc : HostLoc) (s : State), s.dev.clamped = true ∨ s.dev.hang.chipReset = true →
    exec (.hostMemoryReport ue consumed scrub loc) s = .next s) ∧
  (∀ (n : BitVec 16) (s : State), s.dev.clamped = false →
    ∃ t, exec (.hmrDropCount n) s = .next t ∧
      t.dev.zreg Reg.ZN_HMR_CNT_HOSTDROP = s.dev.zreg Reg.ZN_HMR_CNT_HOSTDROP + w32 n.toNat ∧
      State.SameBut [.reg Reg.ZN_HMR_CNT_HOSTDROP] s t) ∧
  (∀ (n : BitVec 16) (s : State), s.dev.clamped = true → exec (.hmrDropCount n) s = .next s)

/-- SCRUB_START and SCRUB_CANCEL where the write is accepted, and SCRUB_DONE.
The model's readings in it: log entries 6, 16, 132 and 133. -/
def Obligations.ScrubFollowsItsResults : Prop :=
  (∀ (p : Path) (s : State), s.dev.takesZ p Reg.ZN_SCR_CMD 1 →
    ∃ t, exec (.scrubStart p) s = .next t ∧
      (s.dev.prot.scrub.isSome = true ∨ s.dev.sdActive = true →
        t.dev.zf Reg.ZN_SCR_STAT 5 2 = 4 ∧ State.SameBut [.reg Reg.ZN_SCR_STAT] s t) ∧
      (s.dev.prot.scrub = none → s.dev.sdActive = false → s.dev.zf Reg.ZN_SCR_LEN 23 0 = 0 →
        t.dev.zf Reg.ZN_SCR_STAT 5 2 = 3 ∧ State.SameBut [.reg Reg.ZN_SCR_STAT] s t) ∧
      (s.dev.prot.scrub = none → s.dev.sdActive = false → s.dev.zf Reg.ZN_SCR_LEN 23 0 ≠ 0 → s.dev.scrubBase = none →
        t.dev.zf Reg.ZN_SCR_STAT 5 2 = 6 ∧ State.SameBut [.reg Reg.ZN_SCR_STAT] s t) ∧
      (∀ a, s.dev.prot.scrub = none → s.dev.sdActive = false → s.dev.zf Reg.ZN_SCR_LEN 23 0 ≠ 0 → s.dev.scrubBase = some a →
        (s.dev.zf Reg.ZN_SCR_CTL 1 0 = 1 → (s.dev.bank (bitsOf (s.dev.zreg Reg.ZN_SCR_BASE_LO) 16 0 / 264)).isolated = true →
          t.dev.zf Reg.ZN_SCR_STAT 5 2 = 7 ∧ State.SameBut [.reg Reg.ZN_SCR_STAT] s t) ∧
        (s.dev.zf Reg.ZN_SCR_CTL 1 0 = 1 → (s.dev.bank (bitsOf (s.dev.zreg Reg.ZN_SCR_BASE_LO) 16 0 / 264)).isolated = false →
          a = s.dev.cfg.t1Base + bitsOf (s.dev.zreg Reg.ZN_SCR_BASE_LO) 16 0 * sliceBytes ∧ s.dev.zf Reg.ZN_SCR_LEN 23 0 ≤ 1024 ∧
          bitsOf (s.dev.zreg Reg.ZN_SCR_BASE_LO) 16 0 < 50688) ∧
        (s.dev.zf Reg.ZN_SCR_CTL 1 0 = 0 →
          a = (s.dev.zreg Reg.ZN_SCR_BASE_LO).toNat + 2 ^ 32 * s.dev.zf Reg.ZN_SCR_BASE_HI 15 0 ∧ a % 4096 = 0 ∧
          (s.dev.regionOf a).isSome = true ∧
          (a - s.dev.cfg.t2Base) % s.dev.cfg.t2Stride + 4096 * s.dev.zf Reg.ZN_SCR_LEN 23 0 ≤ stackBytes) ∧
        (s.dev.zf Reg.ZN_SCR_CTL 1 0 ≠ 1 ∨ (s.dev.bank (bitsOf (s.dev.zreg Reg.ZN_SCR_BASE_LO) 16 0 / 264)).isolated = false →
          t.dev.zf Reg.ZN_SCR_STAT 5 2 = 1 ∧
          (∃ x, t.dev.prot.scrub = some x ∧ x.base = a ∧ x.len = s.dev.zf Reg.ZN_SCR_LEN 23 0 ∧
            x.target = s.dev.zf Reg.ZN_SCR_CTL 1 0 ∧ x.verify = bitOf (s.dev.zreg Reg.ZN_SCR_CTL) 2 ∧ x.read = 0 ∧ x.ueSeen = []) ∧
          (∀ r ∈ [Reg.ZN_SCR_PAGES, Reg.ZN_SCR_CE, Reg.ZN_SCR_UE, Reg.ZN_SCR_RETIRED, Reg.ZN_SCR_CWFAIL], t.dev.zreg r = 0))) ∧
      State.SameBut [.prot, .reg Reg.ZN_SCR_STAT, .reg Reg.ZN_SCR_PAGES, .reg Reg.ZN_SCR_CE, .reg Reg.ZN_SCR_UE,
        .reg Reg.ZN_SCR_RETIRED, .reg Reg.ZN_SCR_CWFAIL] s t) ∧
  (∀ (p : Path) (s : State), s.dev.off = false → s.dev.locked = true → pathHost p = true → s.dev.notReady p = false →
    s.dev.prot.scrub = none → s.dev.sdActive = false →
    ∃ t, exec (.scrubStart p) s = .next t ∧ t.dev.zf Reg.ZN_SCR_STAT 5 2 = 5 ∧
      State.SameBut [.reg Reg.ZN_ALM_CNT_FROZEN, .reg Reg.ZN_SCR_STAT] s t) ∧
  (∀ (p : Path) (s : State), s.dev.takesZ p Reg.ZN_SCR_CMD 2 →
    ∃ t, exec (.scrubCancel p) s = .next t ∧ t.dev.prot.scrub = none ∧
      (s.dev.prot.scrub.isSome = true → t.dev.zf Reg.ZN_SCR_STAT 5 2 = 8) ∧ (s.dev.prot.scrub = none → t = s) ∧
      State.SameBut [.prot, .reg Reg.ZN_SCR_STAT] s t) ∧
  (∀ (x : Scrub) (s : State), s.dev.prot.scrub = some x → s.dev.clock.stopped = false → x.len ≤ x.read →
    x.lastAt < s.dev.clock.frame →
    ∃ t, exec .scrubDone s = .next t ∧ t.dev.prot.scrub = none ∧ t.dev.zf Reg.ZN_SCR_STAT 5 2 = 2 ∧
      (∀ u ∈ s.dev.wholeRegions x.base x.len, x.target = 0 → u ∉ x.ueSeen → unitKind u = .region → s.dev.healthOf u = .dawn →
        t.dev.healthOf u = .clear) ∧
      (∀ u : Nat, x.target ≠ 0 ∨ u ∈ x.ueSeen ∨ s.dev.healthOf u ≠ .dawn → t.dev.healthOf u = s.dev.healthOf u) ∧
      (x.target ≠ 0 → State.SameBut [.prot, .reg Reg.ZN_SCR_STAT] s t) ∧
      State.SameBut [.afsin, .banks, .health, .jnl, .prot, .reg Reg.ZN_AFS_CNT_LOST, .reg Reg.ZN_AFS_CNT_SENT, .reg Reg.ZN_SCR_STAT,
        .reg Reg.ZN_UHT_CNT_CLEAR, .reg Reg.ZN_UHT_CNT_ECLIPSE, .reg Reg.ZN_UHT_CNT_HAZE, .reg Reg.ZN_UHT_CNT_OVERCAST] s t) ∧
  (∀ s : State, s.dev.clock.stopped = true ∨ s.dev.prot.scrub = none → exec .scrubDone s = .next s) ∧
  (∀ (x : Scrub) (s : State), s.dev.prot.scrub = some x → (x.read < x.len ∨ s.dev.clock.frame ≤ x.lastAt) →
    exec .scrubDone s = .next s)

/-! ## Start, reset and the pins -/

/-- START_SELFTEST_DONE, IMAGE_READ_DONE, JOURNAL_REPLAY_DONE, HOST_CORES_UP, HOSTWAIT_EXPIRE and STARTUP_TESTS_DONE. Which module
authenticates is the model's reading (log entry 150).
The model's readings in it: log entries 136, 137, 149, 151, 152, 153, 154, 156 and 185. -/
def Obligations.StartRunsItsSteps : Prop :=
  (∀ (l : List ArrayFail) (m : Option ModuleId) (s : State), s.dev.startAt 1 = true →
    ∃ t, exec (.startSelftestDone l m) s = .next t ∧
      ((∃ x ∈ l, x.loc = .zenith) → t.dev.start.mode = .unconfigured ∧ t.dev.start.step = 10 ∧ t.dev.start.ready = true ∧
        t.dev.zreg Reg.ZN_CFG_STAT = 0xA ∧ t.dev.zreg Reg.ZN_START_FRAMES = w32 s.dev.clock.frame) ∧
      ((∀ x ∈ l, x.loc ≠ .zenith) →
        ((m = none ∨ ∃ x, m = some x ∧ (x.density.toNat < 29 ∨ x.uid = 0 ∨ x.uid = BitVec.allOnes 64)) →
          t.dev.ledger.state = .absent ∧ t.dev.start.mode = .unconfigured ∧ t.dev.start.ready = true ∧
          t.dev.zreg Reg.ZN_CFG_STAT = 2) ∧
        (∀ x a b es, m = some x → 29 ≤ x.density.toNat → x.uid ≠ 0 → x.uid ≠ BitVec.allOnes 64 →
          (a, b, es) = (match x.content with
            | some y => (y.copyA, y.copyB, y.sectors)
            | none => (s.dev.ledger.copyA, s.dev.ledger.copyB, s.dev.jnl.sectors)) →
          t.dev.start.mode = .starting ∧ t.dev.start.step = 3 ∧ t.dev.ledger.uid = x.uid ∧ t.dev.ledger.density = x.density.toNat ∧
          (∀ h, (a = some h ∧ (b = none ∨ ∃ k, b = some k ∧ (k.salt ≠ some s.dev.aon.salt ∨ k.wear ≤ h.wear)) ∨
              b = some h ∧ (a = none ∨ ∃ k, a = some k ∧ (k.salt ≠ some s.dev.aon.salt ∨ k.wear < h.wear))) →
            h.chip = Config.chipId → s.dev.aon.saltValid = true → h.salt = some s.dev.aon.salt → h.uid = x.uid →
            t.dev.ledger.state = .bound ∧ t.dev.ledger.keyHeld = true ∧ t.dev.ledger.header = some h ∧ t.dev.jnl.sectors = es ∧
            t.dev.ledger.ledgerKey = Crypto.ledgerKey x.uid s.dev.aon.salt h.gen ∧ t.dev.aon = s.dev.aon) ∧
          (a = none → b = none → t.dev.ledger.state = .bound ∧ t.dev.ledger.keyHeld = true ∧ t.dev.jnl.sectors = [] ∧
            t.dev.ledger.copyA = t.dev.ledger.header ∧ t.dev.ledger.copyB = t.dev.ledger.header) ∧
          ((∃ h, (a = some h ∨ b = some h) ∧ h.chip = Config.chipId) →
            (∀ h, a = some h ∨ b = some h → s.dev.aon.saltValid = false ∨ h.salt ≠ some s.dev.aon.salt ∨ h.uid ≠ x.uid) →
            t.dev.ledger.state = .bound ∧ t.dev.ledger.keyHeld = true ∧ t.dev.jnl.sectors = []) ∧
          ((a.isSome = true ∨ b.isSome = true) → (∀ h, a = some h ∨ b = some h → h.chip ≠ Config.chipId) →
            t.dev.ledger.state = .foreign ∧ t.dev.jnl.volatileRun = true ∧ t.dev.ledger.copyA = a ∧ t.dev.ledger.copyB = b ∧
            t.dev.jnl.sectors = es ∧ t.dev.ledger.keyHeld = s.dev.ledger.keyHeld))) ∧
      (l = [] → t.dev.zf Reg.ZN_PROT_STAT 1 1 = 1) ∧
      State.SameBut [.afsin, .alarm, .alarms, .aon, .banks, .draws, .jnl, .ledger, .pat, .sd, .start, .reg Reg.ZN_AFS_CNT_LOST,
        .reg Reg.ZN_AFS_CNT_SENT, .reg Reg.ZN_ALM_CNT_RAISE, .reg Reg.ZN_CFG_STAT, .reg Reg.ZN_CFG_WHERE, .reg Reg.ZN_EXP_STAT,
        .reg Reg.ZN_PROT_STAT, .reg Reg.ZN_SD_STAT, .reg Reg.ZN_START_FRAMES] s t) ∧
  (∀ (l : List ArrayFail) (m : Option ModuleId) (s : State), s.dev.startAt 1 = false →
    exec (.startSelftestDone l m) s = .next s) ∧
  (∀ (img : List Byte) (s : State), s.dev.startAt 3 = true →
    ∃ t, exec (.imageReadDone img) s = .next t ∧
      (s.dev.checkImage img = none → t.dev.start.mode = .starting ∧ t.dev.start.step = 5 ∧ t.dev.hang.wdog = 0 ∧
        t.dev.zreg Reg.ZN_CFG_STAT = 1 ∧ t.dev.cfg = imageCfg img) ∧
      (∀ x, s.dev.checkImage img = some x → t.dev.start.mode = .unconfigured ∧ t.dev.start.step = 10 ∧ t.dev.start.ready = true ∧
        t.dev.cfg = s.dev.cfg ∧ t.dev.zreg Reg.ZN_CFG_STAT = w32 (x.result + 65536 * (x.type % 256)) ∧
        t.dev.zreg Reg.ZN_CFG_WHERE = w32 (x.off % 2 ^ 24) ∧ (x.result ≠ 6 → t.dev.aon = s.dev.aon)) ∧
      State.SameBut [.afsin, .alarm, .alarms, .aon, .banks, .cfg, .hang, .jnl, .ledger, .regs, .sd, .start] s t) ∧
  (∀ (img : List Byte) (s : State), s.dev.startAt 3 = false →
    exec (.imageReadDone img) s = .next s) ∧
  (∀ (bad : Option DWord) (err : Bool) (s : State), s.dev.startAt 5 = true →
    ∃ t, exec (.journalReplayDone bad err) s = .next t ∧
      (s.dev.pins.hostCoresUp = false → t.dev.start.step = 7 ∧ t.dev.start.hostWaitFrom = s.dev.clock.frame ∧
        t.dev.start.banksReleased = s.dev.start.banksReleased) ∧
      (s.dev.pins.hostCoresUp = true → t.dev.start.step = 8 ∧ t.dev.start.banksReleased = true) ∧
      (s.dev.ledger.state ≠ .bound ∨ err = true → t.dev.jnl.volatileRun = true) ∧
      (∃ k, .entry (JBody.start t.dev.jnl.start k s.dev.aon.rstWord Config.chipId s.dev.cfg.digest) ∈ t.dev.jnl.waiting) ∧
      (∀ e, s.dev.ledger.state = .bound → s.dev.ledger.keyHeld = true →
        (acceptedFrom (bad.map (fun x => x.toNat)) none s.dev.jnl.log).getLast? = some e →
        t.dev.jnl.nextSeq = e.seq + 1 ∧ t.dev.jnl.durableSeq = some e.seq) ∧
      State.SameBut [.afsin, .aon, .banks, .clock, .ctxs, .health, .jnl, .ledger, .pat, .start, .thm, .wisps,
        .reg Reg.ZN_AFS_CNT_LOST, .reg Reg.ZN_AFS_CNT_SENT, .reg Reg.ZN_HANG_CNT_ANV_ISO, .reg Reg.ZN_HANG_CNT_BANK_ISO,
        .reg Reg.ZN_PAT_CNT_INSTALL, .reg Reg.ZN_PAT_CNT_ROUNDS, .reg Reg.ZN_UHT_CNT_CLEAR, .reg Reg.ZN_UHT_CNT_ECLIPSE,
        .reg Reg.ZN_UHT_CNT_HAZE, .reg Reg.ZN_UHT_CNT_OVERCAST, .reg Reg.ZN_UHT_CNT_SET] s t) ∧
  (∀ (bad : Option DWord) (err : Bool) (s : State), s.dev.startAt 5 = false →
    exec (.journalReplayDone bad err) s = .next s) ∧
  (∀ s : State, ∃ t, exec .hostCoresUp s = .next t ∧ t.dev.pins.hostCoresUp = true ∧
    (s.dev.startAt 7 = true →
      t.dev.start.step = 8 ∧ t.dev.start.banksReleased = true) ∧
    (s.dev.startAt 7 = false → State.SameBut [.pins] s t) ∧
    State.SameBut [.afsin, .aon, .banks, .clock, .ctxs, .health, .jnl, .pat, .pins, .start, .thm, .wisps,
      .reg Reg.ZN_AFS_CNT_LOST, .reg Reg.ZN_AFS_CNT_SENT, .reg Reg.ZN_HANG_CNT_ANV_ISO, .reg Reg.ZN_HANG_CNT_BANK_ISO,
      .reg Reg.ZN_PAT_CNT_INSTALL, .reg Reg.ZN_PAT_CNT_ROUNDS, .reg Reg.ZN_UHT_CNT_CLEAR, .reg Reg.ZN_UHT_CNT_ECLIPSE,
      .reg Reg.ZN_UHT_CNT_HAZE, .reg Reg.ZN_UHT_CNT_OVERCAST, .reg Reg.ZN_UHT_CNT_SET] s t) ∧
  (∀ s : State, s.dev.startAt 7 = true →
    s.dev.start.hostWaitFrom + s.dev.cfg.hostWait ≤ s.dev.clock.frame →
    ∃ t, exec .hostwaitExpire s = .next t ∧ t.dev.start.lateHost = true ∧ t.dev.start.step = 8 ∧
      t.dev.start.banksReleased = true ∧
      State.SameBut [.afsin, .aon, .banks, .clock, .ctxs, .health, .jnl, .pat, .start, .thm, .wisps, .reg Reg.ZN_AFS_CNT_LOST,
        .reg Reg.ZN_AFS_CNT_SENT, .reg Reg.ZN_HANG_CNT_ANV_ISO, .reg Reg.ZN_HANG_CNT_BANK_ISO, .reg Reg.ZN_PAT_CNT_INSTALL,
        .reg Reg.ZN_PAT_CNT_ROUNDS, .reg Reg.ZN_UHT_CNT_CLEAR, .reg Reg.ZN_UHT_CNT_ECLIPSE, .reg Reg.ZN_UHT_CNT_HAZE,
        .reg Reg.ZN_UHT_CNT_OVERCAST, .reg Reg.ZN_UHT_CNT_SET] s t) ∧
  (∀ s : State, s.dev.startAt 7 = false ∨
    s.dev.clock.frame < s.dev.start.hostWaitFrom + s.dev.cfg.hostWait → exec .hostwaitExpire s = .next s) ∧
  (∀ s : State, s.dev.startAt 9 = true → s.dev.startupLeft = false →
    ∃ t, exec .startupTestsDone s = .next t ∧ t.dev.start.mode = .configured ∧ t.dev.start.step = 10 ∧ t.dev.start.ready = true ∧
      t.dev.start.active = true ∧ t.dev.pins.swChecker = true ∧ t.dev.zreg Reg.ZN_START_FRAMES = w32 s.dev.clock.frame ∧
      State.SameBut [.draws, .hz, .jnl, .pins, .start, .reg Reg.ZN_START_FRAMES] s t) ∧
  (∀ s : State, s.dev.startAt 9 = false ∨ s.dev.startupLeft = true →
    exec .startupTestsDone s = .next s)

/-- HOST_CORE_RESET, CORE_SUPPLY_LOSS, PARK_REQUEST and PARK_RELEASE. That the histogram, the extremes and the counters are what the
rules call record and counters is the model's reading (log entry 158). The model's readings in it: log entries 88 and 159. -/
def Obligations.CorePinsKeepOrLoseTheRecord : Prop :=
  (∀ (bank : BankId) (pos : Pos) (s : State), s.dev.off = false → s.dev.bankDown bank.val = false →
    ∃ t, exec (.hostCoreReset bank pos) s = .next t ∧
      (s.dev.clock.stopped = false → (t.dev.wisp bank.val pos.val).pend = [] ∧
        (t.dev.wisp bank.val pos.val).reg Reg.WS_SMP_DROPPED =
          (s.dev.wisp bank.val pos.val).reg Reg.WS_SMP_DROPPED + w32 (s.dev.wisp bank.val pos.val).pend.length ∧
        State.SameBut [.banks, .ctxs, .wisps] s t) ∧
      (s.dev.clock.stopped = true → t.dev.wisps = s.dev.wisps ∧
        t.dev.zreg Reg.ZN_STOP_LOST = w32 (min 0xFFFFFFFF ((s.dev.zreg Reg.ZN_STOP_LOST).toNat + 1))) ∧
      (∀ x, s.dev.testOn bank.val pos.val = some x → x.phase = .running → x.voidReason = 0 →
        t.dev.testOn bank.val pos.val = some { x with voidReason := 5, voidFrame := s.dev.clock.frame }) ∧
      (∀ b p : Nat, coreUnit b p ≠ coreUnit bank.val pos.val → t.dev.wisp b p = s.dev.wisp b p) ∧
      (∀ b : Nat, b ≠ bank.val → t.dev.bank b = s.dev.bank b) ∧ State.SameBut [.banks, .ctxs, .wisps, .reg Reg.ZN_STOP_LOST] s t) ∧
  (∀ (bank : BankId) (pos : Pos) (s : State), s.dev.off = true ∨ s.dev.bankDown bank.val = true →
    exec (.hostCoreReset bank pos) s = .next s) ∧
  (∀ (bank : BankId) (pos : Pos) (s : State),
    ∃ t, exec (.coreSupplyLoss bank pos) s = .next t ∧
      (t.dev.wisp bank.val pos.val).pat.unpowered =
        ((s.dev.wisp bank.val pos.val).pat.valid || !(s.dev.wisp bank.val pos.val).pat.bitmap.isEmpty) ∧
      ((s.dev.wisp bank.val pos.val).parked = true → (t.dev.wisp bank.val pos.val).hist = (s.dev.wisp bank.val pos.val).hist ∧
        (t.dev.wisp bank.val pos.val).counters = (s.dev.wisp bank.val pos.val).counters ∧ t.dev.banks = s.dev.banks) ∧
      ((s.dev.wisp bank.val pos.val).parked = false → (t.dev.wisp bank.val pos.val).hist = [] ∧
        (t.dev.wisp bank.val pos.val).extremes = [] ∧ (t.dev.wisp bank.val pos.val).counters = [] ∧
        (t.dev.wisp bank.val pos.val).pend = [] ∧ (t.dev.wisp bank.val pos.val).supplyLost = true) ∧
      (∀ b p : Nat, coreUnit b p ≠ coreUnit bank.val pos.val → t.dev.wisp b p = s.dev.wisp b p) ∧
      (∀ b : Nat, b ≠ bank.val → t.dev.bank b = s.dev.bank b) ∧ State.SameBut [.banks, .ctxs, .wisps] s t) ∧
  (∀ (bank : BankId) (pos : Pos) (s : State), (s.dev.wisp bank.val pos.val).parkReq = true →
    exec (.parkRequest bank pos) s = .next s) ∧
  (∀ (bank : BankId) (pos : Pos) (s : State), (s.dev.wisp bank.val pos.val).parkReq = false →
    ∃ t, exec (.parkRequest bank pos) s = .next t ∧ (t.dev.wisp bank.val pos.val).parkReq = true ∧
      (s.dev.off = true ∨ s.dev.bankDown bank.val = true → (t.dev.wisp bank.val pos.val).parked = true ∧
        (t.dev.wisp bank.val pos.val).supplyLost = true ∧ (t.dev.wisp bank.val pos.val).hist = [] ∧
        (t.dev.wisp bank.val pos.val).extremes = [] ∧ (t.dev.wisp bank.val pos.val).counters = [] ∧
        State.SameBut [.wisps] s t) ∧
      (s.dev.off = false → s.dev.bankDown bank.val = false → s.dev.testedAt bank.val pos.val = true →
        (t.dev.wisp bank.val pos.val).parked = (s.dev.wisp bank.val pos.val).parked ∧ State.SameBut [.banks, .wisps] s t) ∧
      (s.dev.off = false → s.dev.bankDown bank.val = false → s.dev.testedAt bank.val pos.val = false →
        (t.dev.wisp bank.val pos.val).parked = true ∧ (t.dev.wisp bank.val pos.val).pend = [] ∧
        (t.dev.wisp bank.val pos.val).busy = false ∧ (t.dev.wisp bank.val pos.val).inProgress = false ∧
        (t.dev.wisp bank.val pos.val).opens = [] ∧ (t.dev.wisp bank.val pos.val).closed = [] ∧
        (∃ c, Tbl.get none (t.dev.bank bank.val).parkCopies pos.val = some c ∧ c.hist = (t.dev.wisp bank.val pos.val).hist ∧
          c.extremes = (t.dev.wisp bank.val pos.val).extremes ∧ c.counters = (t.dev.wisp bank.val pos.val).counters) ∧
        (t.dev.wisp bank.val pos.val).hist = (s.dev.wisp bank.val pos.val).hist ∧
        (t.dev.wisp bank.val pos.val).counters = (s.dev.wisp bank.val pos.val).counters ∧
        (∀ a : Nat, (∀ x ∈ ((s.dev.closeAll s.mem bank.val pos.val).wisp bank.val pos.val).closed,
          a / 4096 % 2 ^ 36 ≠ x.blockAddr / 4096 % 2 ^ 36) → t.mem.slot a = s.mem.slot a)) ∧
      t.pending = s.pending ∧ (∀ a : Nat, t.mem.byte a = s.mem.byte a) ∧
      (∀ b p : Nat, coreUnit b p ≠ coreUnit bank.val pos.val → t.dev.wisp b p = s.dev.wisp b p) ∧
      (∀ b : Nat, b ≠ bank.val → t.dev.bank b = s.dev.bank b) ∧
      Dev.SameBut [.banks, .ctxs, .wisps, .reg Reg.ZN_STOP_LOST] s.dev t.dev) ∧
  (∀ (bank : BankId) (pos : Pos) (s : State),
    ∃ t, exec (.parkRelease bank pos) s = .next t ∧ (t.dev.wisp bank.val pos.val).parked = false ∧
      (t.dev.wisp bank.val pos.val).parkReq = false ∧
      (t.dev.wisp bank.val pos.val).missed = ((s.dev.wisp bank.val pos.val).missed || ((s.dev.wisp bank.val pos.val).parked &&
        decide ((s.dev.wisp bank.val pos.val).lastRx ≠ some s.dev.clock.frame))) ∧ Tbl.get none (t.dev.bank bank.val).parkCopies pos.val = none ∧
      (∀ c, Tbl.get none (s.dev.bank bank.val).parkCopies pos.val = some c → (t.dev.wisp bank.val pos.val).hist = c.hist ∧
        (t.dev.wisp bank.val pos.val).extremes = c.extremes ∧ (t.dev.wisp bank.val pos.val).counters = c.counters) ∧
      (Tbl.get none (s.dev.bank bank.val).parkCopies pos.val = none →
        (t.dev.wisp bank.val pos.val).hist = (s.dev.wisp bank.val pos.val).hist ∧ t.dev.banks = s.dev.banks) ∧
      (∀ b p : Nat, coreUnit b p ≠ coreUnit bank.val pos.val → t.dev.wisp b p = s.dev.wisp b p) ∧
      (∀ b : Nat, b ≠ bank.val → t.dev.bank b = s.dev.bank b) ∧ State.SameBut [.banks, .wisps] s t)

/-- ODT_RESET_RELEASE, ODT_RESET_ASSERT, ODT_PWR_OK_FALL and AON_POR. That the release implies good power, and that AON_POR holds the
rest of the part, are the model's choices (log entry 155). The model's readings in it: log entries 8, 9 and 13. -/
def Obligations.ResetsKeepTheAlwaysOnSlice : Prop :=
  (∀ s : State, s.dev.off = true → s.dev.pins.chkPresent = true →
    ∃ t, exec .odtResetRelease s = .next t ∧ t.pending = s.pending ∧ t.mem = s.mem ∧ t.dev.off = false ∧
      t.dev.clock.frame = 0 ∧ t.dev.clock.ticked = false ∧ t.dev.clock.stopped = false ∧ t.dev.start.mode = .starting ∧
      t.dev.start.step = 1 ∧ t.dev.start.ready = false ∧ t.dev.start.banksReleased = false ∧
      t.dev.start.kind = (if s.dev.aon.powered then 1 else 2) ∧
      t.dev.aon = { s.dev.aon with powered := false } ∧ t.dev.ledger.copyA = s.dev.ledger.copyA ∧
      t.dev.ledger.copyB = s.dev.ledger.copyB ∧ t.dev.pat.slotBytes = s.dev.pat.slotBytes ∧
      t.dev.jnl.sectors = s.dev.jnl.sectors ∧ t.dev.jnl.staging = [] ∧ t.dev.banks = [] ∧ t.dev.ctxs = [(0, ctx0)] ∧
      (Tbl.wf Wisp.init s.dev.wisps = true → ∀ b p : Nat, (t.dev.wisp b p).pat = (s.dev.wisp b p).pat) ∧
      t.dev.draws = s.dev.draws) ∧
  (∀ s : State, s.dev.off = false ∨ s.dev.pins.chkPresent = false → exec .odtResetRelease s = .next s) ∧
  (∀ s : State, s.dev.pins.resetHeld = false →
    ∃ t, exec .odtResetAssert s = .next t ∧ t.pending = s.pending ∧ t.mem = s.mem ∧ t.dev.off = true ∧
      t.dev.pins.resetHeld = true ∧ t.dev.pins.swChecker = false ∧ t.dev.clamped = true ∧ t.dev.clock.frame = 0 ∧
      t.dev.aon = s.dev.aon ∧ t.dev.ledger.copyA = s.dev.ledger.copyA ∧
      t.dev.ledger.copyB = s.dev.ledger.copyB ∧ t.dev.pat.slotBytes = s.dev.pat.slotBytes ∧ t.dev.jnl.sectors = s.dev.jnl.sectors ∧
      t.dev.draws = s.dev.draws) ∧
  (∀ s : State, s.dev.pins.resetHeld = true → exec .odtResetAssert s = .next s) ∧
  (∀ s : State, s.dev.pins.pwrOk = true →
    ∃ t, exec .odtPwrOkFall s = .next t ∧ t.pending = s.pending ∧ t.mem = s.mem ∧ t.dev.off = true ∧
      t.dev.pins.pwrOk = false ∧ t.dev.pins.swChecker = false ∧ t.dev.clamped = true ∧ t.dev.clock.frame = 0 ∧
      t.dev.aon = s.dev.aon ∧ t.dev.ledger.copyA = s.dev.ledger.copyA ∧
      t.dev.ledger.copyB = s.dev.ledger.copyB ∧ t.dev.pat.slotBytes = s.dev.pat.slotBytes ∧ t.dev.jnl.sectors = s.dev.jnl.sectors ∧
      t.dev.draws = s.dev.draws) ∧
  (∀ s : State, s.dev.pins.pwrOk = false → exec .odtPwrOkFall s = .next s) ∧
  (∀ s : State,
    ∃ t, exec .aonPor s = .next t ∧ t.pending = s.pending ∧ t.mem = s.mem ∧ t.dev.off = true ∧ t.dev.pins.resetHeld = true ∧
      t.dev.clock.frame = 0 ∧ t.dev.aon =
        { AlwaysOn.cold with
          salt := s.dev.aon.salt, saltValid := s.dev.aon.saltValid, floor := s.dev.aon.floor, cacheValid := s.dev.aon.cacheValid,
          cacheVersion := s.dev.aon.cacheVersion, cacheDigest := s.dev.aon.cacheDigest, fuses := s.dev.aon.fuses,
          powered := true } ∧
      t.dev.aon.alarmLevel = 0 ∧ t.dev.ledger.copyA = s.dev.ledger.copyA ∧
      t.dev.ledger.copyB = s.dev.ledger.copyB ∧ t.dev.pat.slotBytes = s.dev.pat.slotBytes ∧ t.dev.jnl.sectors = s.dev.jnl.sectors ∧
      t.dev.draws = s.dev.draws)

/-! ## The register interface -/

/-- REGISTER_WRITE, IND_DATA_WRITE, IND_DATA_READ, ACCUMULATOR_READ, MAILBOX_LAST_READ and BIT_ALIAS_WRITE. A plain register is one
without a CMD bit, of no context, path or debug unit. The model's readings in it: log entries 6, 15, 16, 18 and 21. -/
def Obligations.RegistersActAsTheirRowsSay : Prop :=
  (∀ (p : Path) (o : BitVec 16) (v : Word) (be : BitVec 4) (off : Nat) (r : Reg.Row) (s : State), be = 15 →
    off = o.toNat / 4 * 4 → s.dev.takesZ p off v → Reg.find .zn off = some r → r.cmd = 0 →
    off ∉ [Reg.ZN_HZ_CTX_GROUP, Reg.ZN_IND_ADDR, Reg.ZN_IND_CTL, Reg.ZN_IND_DATA, Reg.ZN_TRC_CTL] →
    idxIn off Reg.ZN_BRK_CFG 8 0x10 = none → idxIn off Reg.ZN_CTR_S_CFG 8 0x20 = none →
    ∃ t, exec (.registerWrite p o v be) s = .next t ∧
      (∀ i < 32, (t.dev.zreg off).getLsbD i =
        if r.rw.testBit i || (r.rwm.testBit i && v.getLsbD (i + 16)) then v.getLsbD i else (s.dev.zreg off).getLsbD i) ∧
      State.SameBut [.reg off] s t) ∧
  (∀ (p : Path) (v : Word) (s : State), s.dev.takesZ p Reg.ZN_IND_ADDR v →
    ∃ t, exec (.registerWrite p (BitVec.ofNat 16 Reg.ZN_IND_ADDR) v 15) s = .next t ∧
      (t.dev.path p).indAddr = v &&& 0xFFFFFFFC ∧ (t.dev.path p).indWrap = false ∧
      (∀ q : Path, pathNo q ≠ pathNo p → t.dev.path q = s.dev.path q) ∧ State.SameBut [.port] s t) ∧
  (∀ (p : Path) (s : State), pathCc p = false → ∀ x ∈ [
      (Reg.ZN_SEED_CMD, (1 : Word), Instr.seedRead p), (Reg.ZN_LAUNCH_CMD, 1, .launchArm p), (Reg.ZN_CTX_CMD, 1, .create p),
      (Reg.ZN_CTX_CMD, 2, .setlvl p), (Reg.ZN_CTX_CMD, 4, .teardown p), (Reg.ZN_HZ_CTX_CMD, 1, .resume p),
      (Reg.ZN_UHT_CMD, 1, .uhtRead p), (Reg.ZN_UHT_CMD, 2, .uhtSet p), (Reg.ZN_TST_REQ_CMD, 1, .testReqStart p),
      (Reg.ZN_TST_REQ_CMD, 2, .testReqCancel p), (Reg.ZN_PAT_CMD, 1, .install p), (Reg.ZN_PAT_CMD, 2, .rebcast p),
      (Reg.ZN_SD_CMD, 1, .shutdown p), (Reg.ZN_SD_CMD, 2, .sdCancel p), (Reg.ZN_WDOG_KICK, 1, .kick p),
      (Reg.ZN_RECOV_CMD, 1, .recover p), (Reg.ZN_JNL_SEQ_CMD, 1, .jnlSeqSnap p), (Reg.ZN_BRK_CMD, 2, .continueAll p),
      (Reg.ZN_WFG_CMD, 1, .graph p), (Reg.ZN_EXP_CMD, 1, .exportCmd p), (Reg.ZN_PROT_CMD, 1, .patrolNow p),
      (Reg.ZN_SCR_CMD, 1, .scrubStart p), (Reg.ZN_SCR_CMD, 2, .scrubCancel p), (Reg.ZN_MB_CMD, 1, .accumulatorRead p)],
    exec (.registerWrite p (BitVec.ofNat 16 x.1) x.2.1 15) s = exec x.2.2 s) ∧
  (∀ (p : Path) (o : BitVec 16) (v : Word) (be : BitVec 4) (s : State), be ≠ 15 → s.dev.off = false → s.dev.notReady p = false →
    ∃ t, exec (.registerWrite p o v be) s = .next t ∧
      t.dev.zreg Reg.ZN_REG_CNT_HOLE = s.dev.zreg Reg.ZN_REG_CNT_HOLE + 1 ∧ State.SameBut [.reg Reg.ZN_REG_CNT_HOLE] s t) ∧
  (∀ (p : Path) (o : BitVec 16) (v : Word) (off : Nat) (s : State), pathCc p = false → off = o.toNat / 4 * 4 →
    off ≠ Reg.ZN_IND_DATA → s.dev.off = false →
    ∃ t, exec (.registerWrite p o v 15) s = .next t ∧
      (s.dev.refuse p (.zn off) v = some .frozen → answersLock (.zn off) v = false → t.dev.zreg Reg.ZN_ALM_CNT_FROZEN = s.dev.zreg Reg.ZN_ALM_CNT_FROZEN + 1 ∧
        State.SameBut [.reg Reg.ZN_ALM_CNT_FROZEN] s t) ∧
      (s.dev.refuse p (.zn off) v = some .hole → t.dev.zreg Reg.ZN_REG_CNT_HOLE = s.dev.zreg Reg.ZN_REG_CNT_HOLE + 1 ∧
        State.SameBut [.reg Reg.ZN_REG_CNT_HOLE] s t) ∧
      (s.dev.refuse p (.zn off) v = some .denied → pathPriv p = 2 → (Target.zn off).isDebug = true →
        t.dev.zreg Reg.ZN_DBG_CNT_DENIED = s.dev.zreg Reg.ZN_DBG_CNT_DENIED + 1 ∧ State.SameBut [.reg Reg.ZN_DBG_CNT_DENIED] s t) ∧
      (s.dev.refuse p (.zn off) v = some .denied → (pathPriv p ≠ 2 ∨ (Target.zn off).isDebug = false) →
        t.dev.zreg Reg.ZN_REG_CNT_DENIED = s.dev.zreg Reg.ZN_REG_CNT_DENIED + 1 ∧
        State.SameBut [.jnl, .port, .reg Reg.ZN_REG_CNT_DENIED] s t) ∧
      (s.dev.refuse p (.zn off) v = some .cmds ∨ s.dev.refuse p (.zn off) v = some (.value .range) ∨
          s.dev.refuse p (.zn off) v = some (.value .zero) ∨ s.dev.refuse p (.zn off) v = some (.value .nested) ∨
          s.dev.refuse p (.zn off) v = some .notReady →
        t.dev.zreg Reg.ZN_CFG_CNT_REJECT = s.dev.zreg Reg.ZN_CFG_CNT_REJECT + 1 ∧
        State.SameBut [.jnl, .port, .reg Reg.ZN_CFG_CNT_REJECT] s t)) ∧
  (∀ (p : Path) (o : BitVec 16) (v : Word) (be : BitVec 4) (s : State), s.dev.off = true →
    exec (.registerWrite p o v be) s = .next s ∧ exec (.indDataWrite p v) s = .next s) ∧
  (∀ (p : Path) (v : Word) (s : State), s.dev.off = false → pathCc p = false → s.dev.notReady p = false →
    ∃ t, exec (.indDataWrite p v) s = .next t ∧
      (∀ b : Nat, b = bitsOf (s.dev.path p).indAddr 31 24 →
        (192 ≤ b → b ≠ 0xFF → (t.dev.path p).indResult = 1 ∧ t.dev.banks = s.dev.banks ∧ t.dev.wisps = s.dev.wisps) ∧
        (b < 192 → 264 ≤ bitsOf (s.dev.path p).indAddr 23 15 → bitsOf (s.dev.path p).indAddr 23 15 ≠ 0x1FF →
          (t.dev.path p).indResult = 1 ∧ t.dev.banks = s.dev.banks ∧ t.dev.wisps = s.dev.wisps) ∧
        (∀ g, b < 192 → indTarget (s.dev.path p).indAddr b = some g → s.dev.reach g false = 2 ∨ s.dev.reach g false = 3 →
          (t.dev.path p).indResult = s.dev.reach g false ∧ t.dev.banks = s.dev.banks ∧ t.dev.wisps = s.dev.wisps) ∧
        (∀ g, b < 192 → indTarget (s.dev.path p).indAddr b = some g → s.dev.reach g false = 5 →
          (t.dev.path p).indResult = 5 ∧ t.dev.banks = s.dev.banks ∧ t.dev.wisps = s.dev.wisps) ∧
        (∀ (q off : Nat) (r : Reg.Row), b < 192 → indTarget (s.dev.path p).indAddr b = some (.ws b q off) →
          s.dev.reach (.ws b q off) false = 0 → s.dev.refuse p (.ws b q off) v = none → s.dev.inReset (.ws b q off) = false →
          Reg.find .ws off = some r → r.cmd = 0 → off ≠ Reg.WS_REC_CTL →
          (t.dev.path p).indResult = 0 ∧ (∀ i < 32, ((t.dev.wisp b q).reg off).getLsbD i =
            if r.rw.testBit i || (r.rwm.testBit i && v.getLsbD (i + 16)) then v.getLsbD i
            else ((s.dev.wisp b q).reg off).getLsbD i) ∧
          (∀ b' q' : Nat, coreUnit b' q' ≠ coreUnit b q → t.dev.wisp b' q' = s.dev.wisp b' q') ∧
          State.SameBut [.port, .wisps] s t)) ∧
      ((s.dev.path p).indInc = 0 → (t.dev.path p).indAddr = (s.dev.path p).indAddr) ∧
      ((s.dev.path p).indInc = 1 → bitsOf (t.dev.path p).indAddr 14 2 = (bitsOf (s.dev.path p).indAddr 14 2 + 1) % 8192 ∧
        bitsOf (t.dev.path p).indAddr 31 15 = bitsOf (s.dev.path p).indAddr 31 15)) ∧
  (∀ (p : Path) (s : State), s.dev.readClamped p = false → pathCc p = false →
    ∃ t, exec (.indDataRead p) s = .next t ∧
      (∀ b : Nat, b = bitsOf (s.dev.path p).indAddr 31 24 →
        (b = 0xFF → (∃ g, indTarget (s.dev.path p).indAddr b = some g) → (t.dev.path p).indResult = 6 ∧ t.dev.regs.readData = 0) ∧
        (192 ≤ b → b ≠ 0xFF → (t.dev.path p).indResult = 1 ∧ t.dev.regs.readData = 0) ∧
        (∀ g, b < 192 → indTarget (s.dev.path p).indAddr b = some g → s.dev.reach g false = 2 ∨ s.dev.reach g false = 3 →
          (t.dev.path p).indResult = s.dev.reach g false ∧ t.dev.regs.readData = 0) ∧
        (∀ q off : Nat, b < 192 → indTarget (s.dev.path p).indAddr b = some (.ws b q off) → s.dev.reach (.ws b q off) false = 0 →
          s.dev.privReadOk p (.ws b q off) = true →
          (t.dev.path p).indResult = 0 ∧ t.dev.regs.readData = s.dev.readTarget p (.ws b q off) ∧ State.SameBut [.port] s t)) ∧
      (∀ b : Nat, (t.dev.bank b).ring.ring = (s.dev.bank b).ring.ring) ∧
      State.SameBut [.banks, .port, .reg Reg.ZN_DBG_CNT_DENIED, .reg Reg.ZN_REG_CNT_DENIED, .reg Reg.ZN_REG_CNT_HOLE] s t) ∧
  (∀ (p : Path) (s : State), s.dev.takesZ p Reg.ZN_MB_CMD 1 → ∀ src b c : Nat, src = s.dev.zf Reg.ZN_MB_SEL 1 0 →
    b = s.dev.zf Reg.ZN_MB_SEL 9 2 → c = s.dev.zf Reg.ZN_MB_SEL 13 10 →
    ∃ t, exec (.accumulatorRead p) s = .next t ∧
      (2 ≤ src ∨ 192 ≤ b → t.dev.zf Reg.ZN_MB_STAT 2 1 = 2 ∧ (t.dev.path p).wide.valid = false) ∧
      (src < 2 → b < 192 → (s.dev.bank b).isolated = true →
        t.dev.zf Reg.ZN_MB_STAT 2 1 = 3 ∧ (t.dev.path p).wide.valid = false) ∧
      (src < 2 → b < 192 → (s.dev.bank b).isolated = false →
        t.dev.zf Reg.ZN_MB_STAT 2 1 = 1 ∧ (t.dev.path p).wide.valid = true ∧
        (t.dev.path p).wide.data = leWords 20 (if src = 0 then (Tbl.get ChanCtx.init (s.dev.bank b).anv.ctxs c).sum
          else (Tbl.get ChanCtx.init (s.dev.bank b).anv.ctxs c).abs).toNat) ∧
      (∀ q : Path, pathNo q ≠ pathNo p → t.dev.path q = s.dev.path q) ∧ State.SameBut [.port, .reg Reg.ZN_MB_STAT] s t) ∧
  (∀ (p : Path) (off : Nat) (s : State), pathCc p = false → s.dev.readClamped p = false →
    off ∈ [Reg.ZN_TIME_MB_HI, Reg.ZN_SEED_MB_HI, Reg.ZN_UHT_MB + 12, Reg.ZN_THM_NODE_MB + 12, Reg.ZN_JNL_DUR_HI, Reg.ZN_MB_DATA + 76] →
    s.dev.privReadOk p (.zn off) = true →
    ∃ t, exec (.mailboxLastRead p (BitVec.ofNat 16 off)) s = .next t ∧ t.dev.regs.readData = s.dev.readTarget p (.zn off) ∧
      (off = Reg.ZN_TIME_MB_HI → (t.dev.path p).time.valid = false) ∧ (off = Reg.ZN_SEED_MB_HI → (t.dev.path p).seed.valid = false) ∧
      (off = Reg.ZN_UHT_MB + 12 → (t.dev.path p).uht.valid = false) ∧
      (off = Reg.ZN_THM_NODE_MB + 12 → (t.dev.path p).node.valid = false) ∧
      (off = Reg.ZN_JNL_DUR_HI → (t.dev.path p).jnl.valid = false) ∧
      (off = Reg.ZN_MB_DATA + 76 → (t.dev.path p).wide.valid = false) ∧
      (∀ q : Path, pathNo q ≠ pathNo p → t.dev.path q = s.dev.path q) ∧ State.SameBut [.port] s t) ∧
  (∀ (bank : BankId) (o k : Nat) (v w : Word) (r : Reg.Row) (s : State), o % 4 = 0 → o < 0x8000 → k < 32 →
    Reg.find .bk o = some r → s.dev.frozen (.cc bank) (.bk bank.val o) = false →
    (r.cmd = 0 ∧ r.rwm.testBit k = true ∧ w = w32 ((if v.getLsbD 0 then 2 ^ k else 0) + 2 ^ (16 + k)) ∨
        r.cmd = 0 ∧ r.rwm.testBit k = false ∧ r.rw.testBit k = true ∧
          w = setBits (s.dev.readBk bank.val o) k k (if v.getLsbD 0 then 1 else 0) ∨
        r.cmd.testBit k = true ∧ r.wo = 0 ∧ v.getLsbD 0 = true ∧ w = w32 (2 ^ k) →
      exec (.bitAliasWrite bank (BitVec.ofNat 21 (0x100000 + 32 * o + 4 * k)) v) s = .next (s.writeReg (.cc bank) o w) ∧
      exec (.registerWrite (.cc bank) (BitVec.ofNat 16 o) w 15) s = .next (s.writeReg (.cc bank) o w)) ∧
    (r.cmd.testBit k = true → r.wo = 0 → v.getLsbD 0 = false →
      exec (.bitAliasWrite bank (BitVec.ofNat 21 (0x100000 + 32 * o + 4 * k)) v) s = .next s) ∧
    (s.dev.off = false → (s.dev.bank bank.val).isolated = false →
      (r.cmd ≠ 0 ∧ r.wo ≠ 0) ∨ (r.cmd.testBit k = false ∧ r.rwm.testBit k = false ∧ r.rw.testBit k = false) →
      ∃ t, exec (.bitAliasWrite bank (BitVec.ofNat 21 (0x100000 + 32 * o + 4 * k)) v) s = .next t ∧
        t.dev.zreg Reg.ZN_REG_CNT_HOLE = s.dev.zreg Reg.ZN_REG_CNT_HOLE + 1 ∧ State.SameBut [.reg Reg.ZN_REG_CNT_HOLE] s t)) ∧
  (∀ (bank : BankId) (v w : Word) (s : State), w = w32 (bit (v.getLsbD 0) + 65536) →
    s.dev.takesAt (.cc bank) (.bk bank.val Reg.BK_REC_CTL) w →
    ∃ t, exec (.bitAliasWrite bank (BitVec.ofNat 21 (0x100000 + 32 * Reg.BK_REC_CTL)) v) s = .next t ∧
      (t.dev.bank bank.val).ring.frozenAt = (if v.getLsbD 0 then some s.dev.clock.frame else none) ∧
      (∀ b : Nat, b ≠ bank.val → t.dev.bank b = s.dev.bank b) ∧ State.SameBut [.banks, .draws] s t) ∧
  (∀ (bank : BankId) (k : Nat) (v w : Word) (s : State), k < 11 →
    w = setBits (w32 (s.dev.bank bank.val).ring.idx) k k (bit (v.getLsbD 0)) →
    s.dev.takesAt (.cc bank) (.bk bank.val Reg.BK_REC_IDX) w →
    ∃ t, exec (.bitAliasWrite bank (BitVec.ofNat 21 (0x100000 + 32 * Reg.BK_REC_IDX + 4 * k)) v) s = .next t ∧
      (t.dev.bank bank.val).ring.idx = bitsOf w 10 0 ∧
      t.dev.bank bank.val = { s.dev.bank bank.val with ring := { (s.dev.bank bank.val).ring with idx := bitsOf w 10 0 } } ∧
      (∀ b : Nat, b ≠ bank.val → t.dev.bank b = s.dev.bank b) ∧ State.SameBut [.banks] s t) ∧
  (∀ (bank : BankId) (a : BitVec 21) (v : Word) (s : State), s.dev.off = false → (s.dev.bank bank.val).isolated = false →
    (a.toNat < 0x8000 → exec (.bitAliasWrite bank a v) s = .next (s.writeReg (.cc bank) (a.toNat / 4 * 4) v)) ∧
    (0x8000 ≤ a.toNat → a.toNat < 0x100000 → ∃ t, exec (.bitAliasWrite bank a v) s = .next t ∧
      t.dev.zreg Reg.ZN_REG_CNT_HOLE = s.dev.zreg Reg.ZN_REG_CNT_HOLE + 1 ∧ State.SameBut [.reg Reg.ZN_REG_CNT_HOLE] s t) ∧
    (∀ o k : Nat, o < 0x8000 → k < 32 → o % 4 = 0 → a = BitVec.ofNat 21 (0x100000 + 32 * o + 4 * k) →
      s.dev.frozen (.cc bank) (.bk bank.val o) = true →
      ∃ t, exec (.bitAliasWrite bank a v) s = .next t ∧
        t.dev.zreg Reg.ZN_ALM_CNT_FROZEN = s.dev.zreg Reg.ZN_ALM_CNT_FROZEN + 1 ∧ State.SameBut [.reg Reg.ZN_ALM_CNT_FROZEN] s t)) ∧
  (∀ (bank : BankId) (a : BitVec 21) (v : Word) (s : State), s.dev.off = true ∨ (s.dev.bank bank.val).isolated = true →
    exec (.bitAliasWrite bank a v) s = .next s)

/-- The tag, and a word's length encoding. A slot of 0 holds no word. -/
def Obligations.TagsAndMalformedWords : Prop :=
  (∀ h i : Nat, blockTag h i = (h ^^^ (i * 0x9E37)) % 2 ^ 16) ∧
  (∀ h i : Nat, blockTag h i = blockTag (h % 2 ^ 16) (i % 2 ^ 16)) ∧
  (∀ h i j : Nat, blockTag h i = blockTag h j ↔ i % 65536 = j % 65536) ∧
  (∀ h g i : Nat, blockTag h i = blockTag g i ↔ h % 2 ^ 16 = g % 2 ^ 16) ∧
  (∀ w : DWord, w.getLsbD 9 = true → wordValid w = (w.toNat % 256 + 1) * 16) ∧
  (∀ w : DWord, w.getLsbD 9 = true → w.toNat % 256 = 0 → wordValid w = 16) ∧
  (∀ w : DWord, wordMalformed w = true ↔
    (w.getLsbD 9 = true ∧ w.toNat % 256 = 0xFF) ∨ (w.getLsbD 9 = false ∧ w.toNat % 256 ≠ 0xFF)) ∧
  (∀ (w : DWord) (c : Cmd) (i : Nat), wordMalformed w = true → fieldOutcome w c i ≠ none) ∧
  (∀ (w : DWord) (h i : Nat) (l : List Byte), wordMalformed w = true → w ≠ 0 → examine w h i l ≠ .clean) ∧
  (∀ (m : HostMem) (a : Nat), wordMalformed (m.slot a) = true → m.slot a ≠ 0 → pageFails m a = true)

/-- The bins of R361, and those of R362 for margins, a margin of the binary32 word m being n for `2^n ≤ m * 2^149 < 2^(n+1)`. -/
def Obligations.HistogramBins : Prop :=
  (∀ v : Nat, (v = 0 → histBin v = 0) ∧ (∀ n, 2 ^ n ≤ v → v < 2 ^ (n + 1) → histBin v = min 31 (1 + n))) ∧
  (∀ v : Nat, (histBin v = 1 ↔ v = 1) ∧ (histBin v = 2 ↔ v = 2 ∨ v = 3) ∧ (histBin v = 31 ↔ 2 ^ 30 ≤ v)) ∧
  (∀ (w : Wisp) (metric v frame : Nat), w.frozenAt = none →
    Tbl.get 0 (w.sampleNat metric v frame).hist (metric * 32 + histBin v) = Tbl.get 0 w.hist (metric * 32 + histBin v) + 1 ∧
    ∀ k, k ≠ metric * 32 + histBin v → Tbl.get 0 (w.sampleNat metric v frame).hist k = Tbl.get 0 w.hist k) ∧
  (∀ (isMatch : Bool) (m : Word), marginBin true isMatch m = 31) ∧
  (∀ m : Word, marginBin false true m = 0) ∧
  (∀ (m : Word) (x n : Nat), m.getLsbD 31 = false →
    x = (if bitsOf m 30 23 = 0 then bitsOf m 22 0 else (2 ^ 23 + bitsOf m 22 0) * 2 ^ (bitsOf m 30 23 - 1)) →
    (x = 0 → marginBin false false m = 0) ∧
    (2 ^ n ≤ x → x < 2 ^ (n + 1) → marginBin false false m = min 30 (max 1 (n - 118)))) ∧
  (∀ (w : Wisp) (metric bin frame : Nat) (v : Word), w.frozenAt = none →
    Tbl.get 0 (w.sample metric bin v frame).hist (metric * 32 + bin) = Tbl.get 0 w.hist (metric * 32 + bin) + 1)
end

