-- ==== Sys2Proof/Laws/Table.lean ====
section
/-! SUPPORT. The laws of tables: reading back what was written, at the same key and at another, and that the canonical form is
kept. The reading laws need no canonical form. -/

namespace Sys2Proof.Machine

/-! ## Reading after writing -/

variable {α : Type}

theorem Tbl.find_put (t : Tbl α) (k j : Nat) (v : α) : Tbl.find (Tbl.put t k v) j = if j = k then some v else Tbl.find t j := by
  induction t with
  | nil => simp [Tbl.put, Tbl.find]
  | cons e t ih =>
    obtain ⟨i, x⟩ := e
    simp only [Tbl.put]
    split
    · subst_vars; simp only [Tbl.find]; split <;> rfl
    · split <;> simp only [Tbl.find, ih]
      split <;> split <;> first | rfl | omega

theorem Tbl.find_erase (t : Tbl α) (k j : Nat) : Tbl.find (Tbl.erase t k) j = if j = k then none else Tbl.find t j := by
  induction t with
  | nil => simp [Tbl.erase, Tbl.find]
  | cons e t ih =>
    obtain ⟨i, x⟩ := e
    simp only [Tbl.erase]
    split
    · rw [ih]; subst_vars; simp only [Tbl.find]; split <;> rfl
    · simp only [Tbl.find, ih]; split <;> split <;> first | rfl | omega

@[simp] theorem Tbl.get_nil (d : α) (k : Nat) : Tbl.get d [] k = d := rfl

theorem Tbl.get_set [DecidableEq α] (d : α) (t : Tbl α) (k j : Nat) (v : α) :
    Tbl.get d (Tbl.set d t k v) j = if j = k then v else Tbl.get d t j := by
  unfold Tbl.get Tbl.set
  split
  · rw [Tbl.find_erase]; split <;> simp [*]
  · rw [Tbl.find_put]; split <;> simp

@[simp] theorem Tbl.get_set_same [DecidableEq α] (d : α) (t : Tbl α) (k : Nat) (v : α) : Tbl.get d (Tbl.set d t k v) k = v := by
  simp [Tbl.get_set]

theorem Tbl.get_set_ne [DecidableEq α] (d : α) (t : Tbl α) {k j : Nat} (v : α) (h : j ≠ k) :
    Tbl.get d (Tbl.set d t k v) j = Tbl.get d t j := by
  simp [Tbl.get_set, h]

@[simp] theorem Tbl.get_modify_same [DecidableEq α] (d : α) (t : Tbl α) (k : Nat) (f : α → α) :
    Tbl.get d (Tbl.modify d t k f) k = f (Tbl.get d t k) := by
  simp [Tbl.modify]

theorem Tbl.get_modify_ne [DecidableEq α] (d : α) (t : Tbl α) {k j : Nat} (f : α → α) (h : j ≠ k) :
    Tbl.get d (Tbl.modify d t k f) j = Tbl.get d t j := by
  simp [Tbl.modify, Tbl.get_set, h]

theorem Tbl.getK_setK [DecidableEq α] (f : Nat → α) (t : Tbl α) (k j : Nat) (v : α) :
    Tbl.getK f (Tbl.setK f t k v) j = if j = k then v else Tbl.getK f t j := by
  unfold Tbl.getK Tbl.setK
  split
  · rw [Tbl.find_erase]; split <;> simp [*]
  · rw [Tbl.find_put]; split <;> simp

/-! ## The canonical form -/

/-- Every key is above `lo`, keys rise, and no entry is the default. -/
def Tbl.wfFrom [DecidableEq α] (d : α) : Option Nat → Tbl α → Prop
  | _, [] => True
  | lo, (k, x) :: t => (∀ i ∈ lo, i < k) ∧ x ≠ d ∧ Tbl.wfFrom d (some k) t

theorem Tbl.wfFrom_none [DecidableEq α] {d : α} {lo : Option Nat} {t : Tbl α} (h : Tbl.wfFrom d lo t) : Tbl.wfFrom d none t := by
  cases t with
  | nil => trivial
  | cons e t => exact ⟨by simp, h.2⟩

theorem Tbl.wfFrom_mono [DecidableEq α] {d : α} {i j : Nat} {t : Tbl α} (hij : i ≤ j) (h : Tbl.wfFrom d (some j) t) :
    Tbl.wfFrom d (some i) t := by
  cases t with
  | nil => trivial
  | cons e t => exact ⟨by have := h.1; simp at *; omega, h.2⟩

theorem Tbl.wf_iff [DecidableEq α] (d : α) (t : Tbl α) : Tbl.wf d t = true ↔ Tbl.wfFrom d none t := by
  induction t with
  | nil => simp [Tbl.wf, Tbl.wfFrom]
  | cons e t ih =>
    obtain ⟨k, x⟩ := e
    cases t with
    | nil => simp [Tbl.wf, Tbl.wfFrom]
    | cons e2 t =>
      obtain ⟨j, y⟩ := e2
      simp only [Tbl.wf, Bool.and_eq_true, decide_eq_true_eq, ih]
      simp only [Tbl.wfFrom]
      simp
      exact ⟨fun ⟨⟨a, b⟩, c⟩ => ⟨b, a, c⟩, fun ⟨b, a, c⟩ => ⟨⟨a, b⟩, c⟩⟩

theorem Tbl.wfFrom_put [DecidableEq α] {d : α} {lo : Option Nat} {t : Tbl α} {k : Nat} {v : α} (h : Tbl.wfFrom d lo t)
    (hk : ∀ i ∈ lo, i < k) (hv : v ≠ d) : Tbl.wfFrom d lo (Tbl.put t k v) := by
  induction t generalizing lo with
  | nil => exact ⟨hk, hv, trivial⟩
  | cons e t ih =>
    obtain ⟨j, x⟩ := e
    simp only [Tbl.put]
    split
    · subst_vars; exact ⟨hk, hv, h.2.2⟩
    · split
      · exact ⟨hk, hv, by simpa using ‹k < j›, h.2⟩
      · exact ⟨h.1, h.2.1, ih h.2.2 (by simp; omega)⟩

theorem Tbl.wfFrom_erase [DecidableEq α] {d : α} {lo : Option Nat} {t : Tbl α} (k : Nat) (h : Tbl.wfFrom d lo t) :
    Tbl.wfFrom d lo (Tbl.erase t k) := by
  induction t generalizing lo with
  | nil => trivial
  | cons e t ih =>
    obtain ⟨j, x⟩ := e
    simp only [Tbl.erase]
    split
    · cases lo with
      | none => exact Tbl.wfFrom_none (ih h.2.2)
      | some i => exact Tbl.wfFrom_mono (Nat.le_of_lt (h.1 i rfl)) (ih h.2.2)
    · exact ⟨h.1, h.2.1, ih h.2.2⟩

theorem Tbl.wf_set [DecidableEq α] {d : α} {t : Tbl α} (k : Nat) (v : α) (h : Tbl.wf d t = true) : Tbl.wf d (Tbl.set d t k v) = true := by
  rw [Tbl.wf_iff] at *
  unfold Tbl.set
  split
  · exact Tbl.wfFrom_erase k h
  · exact Tbl.wfFrom_put h (by simp) ‹_›

theorem Tbl.wf_modify [DecidableEq α] {d : α} {t : Tbl α} (k : Nat) (f : α → α) (h : Tbl.wf d t = true) :
    Tbl.wf d (Tbl.modify d t k f) = true := Tbl.wf_set k _ h

theorem Tbl.wfFrom_mapAll [DecidableEq α] {d : α} {lo : Option Nat} {t : Tbl α} (f : Nat → α → α) (h : Tbl.wfFrom d lo t) :
    Tbl.wfFrom d lo (Tbl.mapAll d f t) := by
  induction t generalizing lo with
  | nil => trivial
  | cons e t ih =>
    obtain ⟨j, x⟩ := e
    simp only [Tbl.mapAll]
    split
    · refine Tbl.wfFrom_erase j ?_
      cases lo with
      | none => exact Tbl.wfFrom_none (ih h.2.2)
      | some i => exact Tbl.wfFrom_mono (Nat.le_of_lt (h.1 i rfl)) (ih h.2.2)
    · exact ⟨h.1, ‹_›, ih h.2.2⟩

theorem Tbl.wf_mapAll [DecidableEq α] {d : α} {t : Tbl α} (f : Nat → α → α) (h : Tbl.wf d t = true) :
    Tbl.wf d (Tbl.mapAll d f t) = true := by
  rw [Tbl.wf_iff] at *; exact Tbl.wfFrom_mapAll f h

/-- A change that leaves the default alone changes the value of every key. -/
theorem Tbl.get_mapAll [DecidableEq α] {d : α} {f : Nat → α → α} (hf : ∀ k, f k d = d) (t : Tbl α) (k : Nat) :
    Tbl.get d (Tbl.mapAll d f t) k = f k (Tbl.get d t k) := by
  induction t with
  | nil => simp [Tbl.mapAll, hf]
  | cons e t ih =>
    obtain ⟨j, x⟩ := e
    simp only [Tbl.mapAll]
    by_cases hk : k = j
    · subst hk
      by_cases h : f k x = d
      · simp [h, Tbl.get, Tbl.find_erase, Tbl.find]
      · simp [h, Tbl.get, Tbl.find]
    · have hg : Tbl.get d ((j, x) :: t) k = Tbl.get d t k := by simp [Tbl.get, Tbl.find, hk]
      rw [hg, ← ih]
      split
      · simp [Tbl.get, Tbl.find_erase, hk]
      · simp [Tbl.get, Tbl.find, hk]

theorem Tbl.find_append (t u : Tbl α) (k : Nat) : Tbl.find (t ++ u) k = (Tbl.find t k).or (Tbl.find u k) := by
  induction t with
  | nil => simp [Tbl.find]
  | cons e t ih =>
    obtain ⟨j, x⟩ := e
    by_cases hk : k = j <;> simp [Tbl.find, hk, ih]

theorem Tbl.find_filter (p : Nat → Bool) (t : Tbl α) (k : Nat) :
    Tbl.find (t.filter (fun e => p e.1)) k = if p k then Tbl.find t k else none := by
  induction t with
  | nil => simp [Tbl.find]
  | cons e t ih =>
    obtain ⟨j, x⟩ := e
    by_cases hk : k = j
    · subst hk
      by_cases hp : p k = true <;> simp [Tbl.find, hp, ih]
    · by_cases hp : p j = true <;> simp [Tbl.find, hp, hk, ih]

/-- A change of a range of keys, key by key. -/
theorem Tbl.get_updRange [DecidableEq α] {d : α} (f : Nat → α → α) (n lo : Nat) (t : Tbl α) (k : Nat) :
    Tbl.get d (Tbl.updRange d f n lo t) k = if lo ≤ k ∧ k < lo + n then f k (Tbl.get d t k) else Tbl.get d t k := by
  have mid : ∀ (g : Nat → α) (l : List Nat), Tbl.find (l.filterMap (fun i => if g (lo + i) = d then none else some (lo + i, g (lo + i)))) k
      = if lo ≤ k ∧ k - lo ∈ l ∧ g k ≠ d then some (g k) else none := by
    intro g l
    induction l with
    | nil => simp [Tbl.find]
    | cons i l ih =>
      by_cases hi : k = lo + i
      · subst hi
        by_cases hg : g (lo + i) = d
        · simp [hg, ih]
        · simp [hg, Tbl.find]
      · have hne : ¬ (lo ≤ k ∧ k - lo = i) := by omega
        by_cases hg : g (lo + i) = d
        · simp only [List.filterMap_cons, hg, if_true, ih, List.mem_cons]
          congr 1; ext; constructor
          · rintro ⟨a, b, c⟩; exact ⟨a, .inr b, c⟩
          · rintro ⟨a, b, c⟩; exact ⟨a, b.resolve_left (fun e => hne ⟨a, e⟩), c⟩
        · simp only [List.filterMap_cons, hg, if_false, Tbl.find, hi, ih, List.mem_cons]
          congr 1; ext; constructor
          · rintro ⟨a, b, c⟩; exact ⟨a, .inr b, c⟩
          · rintro ⟨a, b, c⟩; exact ⟨a, b.resolve_left (fun e => hne ⟨a, e⟩), c⟩
  rw [show Tbl.get d (Tbl.updRange d f n lo t) k = (Tbl.find (Tbl.updRange d f n lo t) k).getD d from rfl, Tbl.updRange,
    Tbl.find_append, Tbl.find_append, mid (fun j => f j (Tbl.get d _ j)), Tbl.find_filter (fun j => decide (j < lo)),
    Tbl.find_filter (fun j => decide (lo + n ≤ j))]
  have inner : lo ≤ k → k < lo + n →
      Tbl.get d (t.filter (fun e => decide (lo ≤ e.1) && decide (e.1 < lo + n))) k = Tbl.get d t k := by
    intro h1 h2
    simp [Tbl.get, Tbl.find_filter (fun j => decide (lo ≤ j) && decide (j < lo + n)), h1, h2]
  by_cases h1 : lo ≤ k
  · by_cases h2 : k < lo + n
    · have h3 : k - lo < n := by omega
      have h4 : ¬ (k < lo) := by omega
      have h5 : ¬ (lo + n ≤ k) := by omega
      by_cases hf : f k (Tbl.get d t k) = d <;> simp [h1, h2, h3, h4, h5, inner h1 h2, hf]
    · have h3 : ¬ (k - lo < n) := by omega
      have h4 : ¬ (k < lo) := by omega
      have h5 : lo + n ≤ k := by omega
      simp [h1, h2, h3, h4, h5, Tbl.get]
  · have h4 : k < lo := by omega
    have h5 : ¬ (lo + n ≤ k) := by omega
    simp [h1, h4, h5, Tbl.get]

/-- Two tables in canonical form that read alike are the same table. -/
theorem Tbl.find_of_wfFrom [DecidableEq α] {d : α} {i k : Nat} {t : Tbl α} (h : Tbl.wfFrom d (some i) t) (hk : k ≤ i) :
    Tbl.find t k = none := by
  induction t generalizing i with
  | nil => rfl
  | cons e t ih =>
    obtain ⟨j, x⟩ := e
    have hj : i < j := h.1 i rfl
    have hne : k ≠ j := by omega
    simp only [Tbl.find, hne, if_false]
    exact ih h.2.2 (by omega)

end Sys2Proof.Machine
end

