-- ==== Sys2Proof/Laws/Frame.lean ====
section
/-! SUPPORT. The laws of `SameBut`: it composes, it holds of a change of the pieces listed, and of a fold. -/

namespace Sys2Proof.Machine

/-- A number for each piece, which the kernel compares fast. -/
def Part.code : Part → Nat
  | .frame => 0
  | .clock => 1
  | .regs => 2
  | .port => 3
  | .ctxs => 4
  | .hz => 5
  | .health => 6
  | .banks => 7
  | .wisps => 8
  | .thm => 9
  | .pat => 10
  | .sd => 11
  | .hang => 12
  | .jnl => 13
  | .dbg => 14
  | .fuses => 15
  | .floor => 16
  | .alarm => 17
  | .aon => 18
  | .ledger => 19
  | .afsin => 20
  | .alarms => 21
  | .cfg => 22
  | .start => 23
  | .prot => 24
  | .pins => 25
  | .draws => 26
  | .stop => 27
  | .reg off => 100 + off

theorem Part.code_inj {f g : Part} (h : f.code = g.code) : f = g := by
  cases f <;> cases g <;> simp_all [Part.code] <;> omega

/-- A list holds a piece, by its number. -/
def Part.has : List Part → Nat → Bool
  | [], _ => false
  | g :: t, n => Nat.beq g.code n || Part.has t n

theorem Part.has_iff (l : List Part) (f : Part) : Part.has l f.code = true ↔ f ∈ l := by
  induction l with
  | nil => simp [Part.has]
  | cons g t ih =>
    simp only [Part.has, Bool.or_eq_true, ih, List.mem_cons]
    exact or_congr ⟨fun h => (Part.code_inj (Nat.eq_of_beq_eq_true h)).symm, fun h => by rw [h]; exact Nat.beq_refl _⟩ Iff.rfl

/-- Every piece of `a` stands in `b`; a register also where `b` takes in all of them. -/
def Part.sub : List Part → List Part → Bool
  | [], _ => true
  | .reg o :: t, b => (Part.has b 2 || Part.has b (100 + o)) && Part.sub t b
  | g :: t, b => Part.has b g.code && Part.sub t b

theorem Part.sub_mem {a b : List Part} (hs : Part.sub a b = true) {g : Part} (hg : g ∈ a) : g ∈ b ∨ (∃ o, g = .reg o) ∧ .regs ∈ b := by
  induction a with
  | nil => simp at hg
  | cons x t ih =>
    rcases List.mem_cons.mp hg with rfl | hg
    · cases g with
      | reg o =>
        simp only [Part.sub, Bool.and_eq_true, Bool.or_eq_true] at hs
        rcases hs.1 with h | h
        · exact .inr ⟨⟨o, rfl⟩, (Part.has_iff b .regs).mp h⟩
        · exact .inl ((Part.has_iff b (.reg o)).mp h)
      | _ => simp only [Part.sub, Bool.and_eq_true] at hs; exact .inl ((Part.has_iff b _).mp hs.1)
    · exact ih (by cases x <;> simp_all [Part.sub]) hg

theorem Part.sub_covers {a b : List Part} (hs : Part.sub a b = true) {f : Part} (h : covers b f = false) : covers a f = false := by
  have key := fun g (hg : g ∈ a) => Part.sub_mem hs hg
  cases f with
  | reg o =>
    simp only [covers, Bool.or_eq_false_iff, List.contains_eq_mem, decide_eq_false_iff_not] at *
    refine ⟨fun hm => ?_, fun hm => ?_⟩
    · rcases key _ hm with h1 | h1
      · exact h.1 h1
      · exact h.2 h1.2
    · rcases key _ hm with h1 | ⟨⟨_, h1⟩, _⟩
      · exact h.2 h1
      · cases h1
  | regs =>
    simp only [covers, List.any_eq_false] at *
    intro g hg hr
    rcases key _ hg with h1 | h1
    · exact h _ h1 hr
    · exact h _ h1.2 rfl
  | _ =>
    simp only [covers, List.contains_eq_mem, decide_eq_false_iff_not] at *
    intro hm
    rcases key _ hm with h1 | ⟨⟨_, h1⟩, _⟩
    · exact h h1
    · cases h1

theorem Dev.agree_refl (a : Dev) (f : Part) : Dev.agree a a f := by
  cases f <;> first | rfl | exact ⟨rfl, rfl⟩

theorem Dev.agree_trans {a b c : Dev} {f : Part} (h1 : Dev.agree a b f) (h2 : Dev.agree b c f) : Dev.agree a c f := by
  cases f <;> first | exact Eq.trans h2 h1 | exact ⟨h2.1.trans h1.1, h2.2.trans h1.2⟩

theorem Dev.SameBut.refl (l : List Part) (a : Dev) : Dev.SameBut l a a := fun f _ => Dev.agree_refl a f

theorem Dev.SameBut.trans {l : List Part} {a b c : Dev} (h0 : Dev.SameBut l a b) (h : Dev.SameBut l b c) : Dev.SameBut l a c :=
  fun f hf => Dev.agree_trans (h0 f hf) (h f hf)

/-- A further change of pieces that are listed. -/
theorem Dev.SameBut.step {k l : List Part} {a b c : Dev} (h : Dev.SameBut k b c) (hs : Part.sub k l = true)
    (h0 : Dev.SameBut l a b) : Dev.SameBut l a c :=
  fun f hf => Dev.agree_trans (h0 f hf) (h f (Part.sub_covers hs hf))

theorem Dev.SameBut.mono {k l : List Part} {a b : Dev} (h : Dev.SameBut k a b) (hs : Part.sub k l = true) : Dev.SameBut l a b :=
  h.step hs (.refl l a)

/-- A choice between two changes of pieces that are listed. -/
theorem Dev.SameBut.ite {l : List Part} {a b c : Dev} {p : Prop} [Decidable p] (h1 : Dev.SameBut l a b) (h2 : Dev.SameBut l a c) :
    Dev.SameBut l a (if p then b else c) := by
  split <;> assumption

/-- A fold whose every step changes pieces that are listed. -/
theorem Dev.SameBut.foldl {l : List Part} {a b : Dev} {α : Type} {g : Dev → α → Dev} {xs : List α}
    (h : ∀ d x, Dev.SameBut l d (g d x)) (h0 : Dev.SameBut l a b) : Dev.SameBut l a (xs.foldl g b) := by
  induction xs generalizing b with
  | nil => exact h0
  | cons x xs ih => exact ih (h0.trans (h b x))

/-- A list that takes in all registers takes in any. -/
theorem Part.sub_reg {l : List Part} {o : Nat} (h : Part.has l 2 = true) : Part.sub [.reg o] l = true := by
  simp [Part.sub, h]

/-- Writing one register changes that register. -/
theorem Dev.setZ_touch (d : Dev) (off : Nat) (w : Word) : Dev.SameBut [.reg off] d (d.setZ off w) := by
  intro f hf
  cases f with
  | reg o =>
    have : o ≠ off := by rintro rfl; simp [covers] at hf
    exact Tbl.get_set_ne 0 d.regs.zn w this
  | regs => simp [covers, Part.isReg] at hf
  | _ => first | rfl | exact ⟨rfl, rfl⟩

/-- The same where the register is listed. -/
theorem Dev.setZ_keeps {l : List Part} {a d : Dev} (off : Nat) (w : Word) (hs : Part.sub [.reg off] l = true)
    (h : Dev.SameBut l a d) : Dev.SameBut l a (d.setZ off w) := (d.setZ_touch off w).step hs h

theorem Dev.setZf_keeps {l : List Part} {a d : Dev} (off hi lo v : Nat) (hs : Part.sub [.reg off] l = true)
    (h : Dev.SameBut l a d) : Dev.SameBut l a (d.setZf off hi lo v) := Dev.setZ_keeps off _ hs h

theorem Dev.addZ_keeps {l : List Part} {a d : Dev} (off n : Nat) (hs : Part.sub [.reg off] l = true)
    (h : Dev.SameBut l a d) : Dev.SameBut l a (d.addZ off n) := Dev.setZ_keeps off _ hs h

theorem Dev.bumpZ_keeps {l : List Part} {a d : Dev} (off : Nat) (hs : Part.sub [.reg off] l = true)
    (h : Dev.SameBut l a d) : Dev.SameBut l a (d.bumpZ off) := Dev.setZ_keeps off _ hs h

theorem Dev.satZ_keeps {l : List Part} {a d : Dev} (off n : Nat) (hs : Part.sub [.reg off] l = true)
    (h : Dev.SameBut l a d) : Dev.SameBut l a (d.satZ off n) := Dev.setZ_keeps off _ hs h

/-- A fold over the part and something beside it. -/
theorem Dev.SameBut.foldl_fst {l : List Part} {a : Dev} {α β : Type} {g : Dev × β → α → Dev × β} {xs : List α} {b : Dev × β}
    (h : ∀ d x, Dev.SameBut l d.1 (g d x).1) (h0 : Dev.SameBut l a b.1) : Dev.SameBut l a (xs.foldl g b).1 := by
  induction xs generalizing b with
  | nil => exact h0
  | cons x xs ih => exact ih (h0.trans (h b x))

theorem Part.not_has {l : List Part} {f : Part} {n : Nat} (hn : f.code = n) (h : covers l f = false) : ¬ Part.has l n = true := by
  subst hn
  intro hc
  have := (Part.has_iff l f).mp hc
  cases f <;> simp_all [covers]
  exact absurd (h _ this) (by simp [Part.isReg])

/-- A part built from another: each piece is listed or taken over. -/
theorem Dev.SameBut.mk' {l : List Part} {a b : Dev} {x_clock : Clock} {x_regs : RegState} {x_ctxs : Tbl Ctx} {x_hz : Horizon} {x_health : HealthEngine} {x_banks : Tbl Bank} {x_wisps : Tbl Wisp} {x_thm : Thermal} {x_pat : PatStore} {x_sd : Shutdown} {x_hang : HangState} {x_jnl : Journal} {x_dbg : DebugState} {x_aon : AlwaysOn} {x_ledger : Ledger} {x_afsin : Afsin} {x_alarms : Alarms} {x_cfg : ImageCfg} {x_start : StartState} {x_prot : Protection} {x_pins : Pins} {x_draws : Nat}
        (h_ctxs : Part.has l 4 = true ∨ x_ctxs = b.ctxs)
    (h_hz : Part.has l 5 = true ∨ x_hz = b.hz)
    (h_health : Part.has l 6 = true ∨ x_health = b.health)
    (h_banks : Part.has l 7 = true ∨ x_banks = b.banks)
    (h_wisps : Part.has l 8 = true ∨ x_wisps = b.wisps)
    (h_thm : Part.has l 9 = true ∨ x_thm = b.thm)
    (h_pat : Part.has l 10 = true ∨ x_pat = b.pat)
    (h_sd : Part.has l 11 = true ∨ x_sd = b.sd)
    (h_hang : Part.has l 12 = true ∨ x_hang = b.hang)
    (h_jnl : Part.has l 13 = true ∨ x_jnl = b.jnl)
    (h_dbg : Part.has l 14 = true ∨ x_dbg = b.dbg)
    (h_ledger : Part.has l 19 = true ∨ x_ledger = b.ledger)
    (h_afsin : Part.has l 20 = true ∨ x_afsin = b.afsin)
    (h_alarms : Part.has l 21 = true ∨ x_alarms = b.alarms)
    (h_cfg : Part.has l 22 = true ∨ x_cfg = b.cfg)
    (h_start : Part.has l 23 = true ∨ x_start = b.start)
    (h_prot : Part.has l 24 = true ∨ x_prot = b.prot)
    (h_pins : Part.has l 25 = true ∨ x_pins = b.pins)
    (h_draws : Part.has l 26 = true ∨ x_draws = b.draws)
    (h_frame : Part.has l 0 = true ∨ (x_clock.frame = b.clock.frame ∧ x_clock.ticked = b.clock.ticked))
    (h_stop : Part.has l 27 = true ∨ x_clock.stopped = b.clock.stopped)
    (h_clock : Part.has l 1 = true ∨ { x_clock with frame := 0, ticked := false, stopped := false } = { b.clock with frame := 0, ticked := false, stopped := false })
    (h_regs : Part.has l 2 = true ∨ x_regs.zn = b.regs.zn)
    (h_port : Part.has l 3 = true ∨ { x_regs with zn := [] } = { b.regs with zn := [] })
    (h_fuses : Part.has l 15 = true ∨ x_aon.fuses = b.aon.fuses)
    (h_floor : Part.has l 16 = true ∨ x_aon.floor = b.aon.floor)
    (h_alarm : Part.has l 17 = true ∨ (x_aon.alarmLevel = b.aon.alarmLevel ∧ x_aon.raised = b.aon.raised))
    (h_aon : Part.has l 18 = true ∨ { x_aon with fuses := [], floor := 0, alarmLevel := 0, raised := 0 } = { b.aon with fuses := [], floor := 0, alarmLevel := 0, raised := 0 })
    (h0 : Dev.SameBut l a b) :
    Dev.SameBut l a ⟨x_clock, x_regs, x_ctxs, x_hz, x_health, x_banks, x_wisps, x_thm, x_pat, x_sd, x_hang, x_jnl, x_dbg, x_aon, x_ledger, x_afsin, x_alarms, x_cfg, x_start, x_prot, x_pins, x_draws⟩ := by
  intro f hf
  cases f with
  | reg o =>
    have hz : x_regs.zn = b.regs.zn := h_regs.resolve_left (fun hc => by
      have := (Part.has_iff l .regs).mp hc
      simp [covers, this] at hf)
    exact Dev.agree_trans (h0 _ hf) (by simp only [Dev.agree, Dev.zreg, hz])
  | ctxs => exact Dev.agree_trans (h0 _ hf) (h_ctxs.resolve_left (Part.not_has rfl hf))
  | hz => exact Dev.agree_trans (h0 _ hf) (h_hz.resolve_left (Part.not_has rfl hf))
  | health => exact Dev.agree_trans (h0 _ hf) (h_health.resolve_left (Part.not_has rfl hf))
  | banks => exact Dev.agree_trans (h0 _ hf) (h_banks.resolve_left (Part.not_has rfl hf))
  | wisps => exact Dev.agree_trans (h0 _ hf) (h_wisps.resolve_left (Part.not_has rfl hf))
  | thm => exact Dev.agree_trans (h0 _ hf) (h_thm.resolve_left (Part.not_has rfl hf))
  | pat => exact Dev.agree_trans (h0 _ hf) (h_pat.resolve_left (Part.not_has rfl hf))
  | sd => exact Dev.agree_trans (h0 _ hf) (h_sd.resolve_left (Part.not_has rfl hf))
  | hang => exact Dev.agree_trans (h0 _ hf) (h_hang.resolve_left (Part.not_has rfl hf))
  | jnl => exact Dev.agree_trans (h0 _ hf) (h_jnl.resolve_left (Part.not_has rfl hf))
  | dbg => exact Dev.agree_trans (h0 _ hf) (h_dbg.resolve_left (Part.not_has rfl hf))
  | ledger => exact Dev.agree_trans (h0 _ hf) (h_ledger.resolve_left (Part.not_has rfl hf))
  | afsin => exact Dev.agree_trans (h0 _ hf) (h_afsin.resolve_left (Part.not_has rfl hf))
  | alarms => exact Dev.agree_trans (h0 _ hf) (h_alarms.resolve_left (Part.not_has rfl hf))
  | cfg => exact Dev.agree_trans (h0 _ hf) (h_cfg.resolve_left (Part.not_has rfl hf))
  | start => exact Dev.agree_trans (h0 _ hf) (h_start.resolve_left (Part.not_has rfl hf))
  | prot => exact Dev.agree_trans (h0 _ hf) (h_prot.resolve_left (Part.not_has rfl hf))
  | pins => exact Dev.agree_trans (h0 _ hf) (h_pins.resolve_left (Part.not_has rfl hf))
  | draws => exact Dev.agree_trans (h0 _ hf) (h_draws.resolve_left (Part.not_has rfl hf))
  | frame => exact Dev.agree_trans (h0 _ hf) (h_frame.resolve_left (Part.not_has rfl hf))
  | stop => exact Dev.agree_trans (h0 _ hf) (h_stop.resolve_left (Part.not_has rfl hf))
  | clock => exact Dev.agree_trans (h0 _ hf) (h_clock.resolve_left (Part.not_has rfl hf))
  | regs =>
    exact Dev.agree_trans (h0 _ hf) (h_regs.resolve_left (by
      intro hc
      simp only [covers, List.any_eq_false] at hf
      exact hf _ ((Part.has_iff l .regs).mp hc) rfl))
  | port => exact Dev.agree_trans (h0 _ hf) (h_port.resolve_left (Part.not_has rfl hf))
  | fuses => exact Dev.agree_trans (h0 _ hf) (h_fuses.resolve_left (Part.not_has rfl hf))
  | floor => exact Dev.agree_trans (h0 _ hf) (h_floor.resolve_left (Part.not_has rfl hf))
  | alarm => exact Dev.agree_trans (h0 _ hf) (h_alarm.resolve_left (Part.not_has rfl hf))
  | aon => exact Dev.agree_trans (h0 _ hf) (h_aon.resolve_left (Part.not_has rfl hf))

/-- An update of a part that leaves the draw count: each piece is listed or taken over. -/
theorem Dev.SameBut.upd {l : List Part} {a b : Dev} {x_clock : Clock} {x_regs : RegState} {x_ctxs : Tbl Ctx} {x_hz : Horizon} {x_health : HealthEngine} {x_banks : Tbl Bank} {x_wisps : Tbl Wisp} {x_thm : Thermal} {x_pat : PatStore} {x_sd : Shutdown} {x_hang : HangState} {x_jnl : Journal} {x_dbg : DebugState} {x_aon : AlwaysOn} {x_ledger : Ledger} {x_afsin : Afsin} {x_alarms : Alarms} {x_cfg : ImageCfg} {x_start : StartState} {x_prot : Protection} {x_pins : Pins}
        (h_ctxs : Part.has l 4 = true ∨ x_ctxs = b.ctxs)
    (h_hz : Part.has l 5 = true ∨ x_hz = b.hz)
    (h_health : Part.has l 6 = true ∨ x_health = b.health)
    (h_banks : Part.has l 7 = true ∨ x_banks = b.banks)
    (h_wisps : Part.has l 8 = true ∨ x_wisps = b.wisps)
    (h_thm : Part.has l 9 = true ∨ x_thm = b.thm)
    (h_pat : Part.has l 10 = true ∨ x_pat = b.pat)
    (h_sd : Part.has l 11 = true ∨ x_sd = b.sd)
    (h_hang : Part.has l 12 = true ∨ x_hang = b.hang)
    (h_jnl : Part.has l 13 = true ∨ x_jnl = b.jnl)
    (h_dbg : Part.has l 14 = true ∨ x_dbg = b.dbg)
    (h_ledger : Part.has l 19 = true ∨ x_ledger = b.ledger)
    (h_afsin : Part.has l 20 = true ∨ x_afsin = b.afsin)
    (h_alarms : Part.has l 21 = true ∨ x_alarms = b.alarms)
    (h_cfg : Part.has l 22 = true ∨ x_cfg = b.cfg)
    (h_start : Part.has l 23 = true ∨ x_start = b.start)
    (h_prot : Part.has l 24 = true ∨ x_prot = b.prot)
    (h_pins : Part.has l 25 = true ∨ x_pins = b.pins)
    (h_frame : Part.has l 0 = true ∨ (x_clock.frame = b.clock.frame ∧ x_clock.ticked = b.clock.ticked))
    (h_stop : Part.has l 27 = true ∨ x_clock.stopped = b.clock.stopped)
    (h_clock : Part.has l 1 = true ∨ { x_clock with frame := 0, ticked := false, stopped := false } = { b.clock with frame := 0, ticked := false, stopped := false })
    (h_regs : Part.has l 2 = true ∨ x_regs.zn = b.regs.zn)
    (h_port : Part.has l 3 = true ∨ { x_regs with zn := [] } = { b.regs with zn := [] })
    (h_fuses : Part.has l 15 = true ∨ x_aon.fuses = b.aon.fuses)
    (h_floor : Part.has l 16 = true ∨ x_aon.floor = b.aon.floor)
    (h_alarm : Part.has l 17 = true ∨ (x_aon.alarmLevel = b.aon.alarmLevel ∧ x_aon.raised = b.aon.raised))
    (h_aon : Part.has l 18 = true ∨ { x_aon with fuses := [], floor := 0, alarmLevel := 0, raised := 0 } = { b.aon with fuses := [], floor := 0, alarmLevel := 0, raised := 0 })
    (h0 : Dev.SameBut l a b) :
    Dev.SameBut l a ⟨x_clock, x_regs, x_ctxs, x_hz, x_health, x_banks, x_wisps, x_thm, x_pat, x_sd, x_hang, x_jnl, x_dbg, x_aon, x_ledger, x_afsin, x_alarms, x_cfg, x_start, x_prot, x_pins, b.draws⟩ :=
  Dev.SameBut.mk' h_ctxs h_hz h_health h_banks h_wisps h_thm h_pat h_sd h_hang h_jnl h_dbg h_ledger h_afsin h_alarms h_cfg h_start h_prot h_pins (.inr rfl) h_frame h_stop h_clock h_regs h_port h_fuses h_floor h_alarm h_aon h0

/-- An update of a part that leaves the scrub state: each piece is listed or taken over. -/
theorem Dev.SameBut.upd' {l : List Part} {a b : Dev} {x_clock : Clock} {x_regs : RegState} {x_ctxs : Tbl Ctx} {x_hz : Horizon} {x_health : HealthEngine} {x_banks : Tbl Bank} {x_wisps : Tbl Wisp} {x_thm : Thermal} {x_pat : PatStore} {x_sd : Shutdown} {x_hang : HangState} {x_jnl : Journal} {x_dbg : DebugState} {x_aon : AlwaysOn} {x_ledger : Ledger} {x_afsin : Afsin} {x_alarms : Alarms} {x_cfg : ImageCfg} {x_start : StartState} {x_pins : Pins} {x_draws : Nat}
        (h_ctxs : Part.has l 4 = true ∨ x_ctxs = b.ctxs)
    (h_hz : Part.has l 5 = true ∨ x_hz = b.hz)
    (h_health : Part.has l 6 = true ∨ x_health = b.health)
    (h_banks : Part.has l 7 = true ∨ x_banks = b.banks)
    (h_wisps : Part.has l 8 = true ∨ x_wisps = b.wisps)
    (h_thm : Part.has l 9 = true ∨ x_thm = b.thm)
    (h_pat : Part.has l 10 = true ∨ x_pat = b.pat)
    (h_sd : Part.has l 11 = true ∨ x_sd = b.sd)
    (h_hang : Part.has l 12 = true ∨ x_hang = b.hang)
    (h_jnl : Part.has l 13 = true ∨ x_jnl = b.jnl)
    (h_dbg : Part.has l 14 = true ∨ x_dbg = b.dbg)
    (h_ledger : Part.has l 19 = true ∨ x_ledger = b.ledger)
    (h_afsin : Part.has l 20 = true ∨ x_afsin = b.afsin)
    (h_alarms : Part.has l 21 = true ∨ x_alarms = b.alarms)
    (h_cfg : Part.has l 22 = true ∨ x_cfg = b.cfg)
    (h_start : Part.has l 23 = true ∨ x_start = b.start)
    (h_pins : Part.has l 25 = true ∨ x_pins = b.pins)
    (h_draws : Part.has l 26 = true ∨ x_draws = b.draws)
    (h_frame : Part.has l 0 = true ∨ (x_clock.frame = b.clock.frame ∧ x_clock.ticked = b.clock.ticked))
    (h_stop : Part.has l 27 = true ∨ x_clock.stopped = b.clock.stopped)
    (h_clock : Part.has l 1 = true ∨ { x_clock with frame := 0, ticked := false, stopped := false } = { b.clock with frame := 0, ticked := false, stopped := false })
    (h_regs : Part.has l 2 = true ∨ x_regs.zn = b.regs.zn)
    (h_port : Part.has l 3 = true ∨ { x_regs with zn := [] } = { b.regs with zn := [] })
    (h_fuses : Part.has l 15 = true ∨ x_aon.fuses = b.aon.fuses)
    (h_floor : Part.has l 16 = true ∨ x_aon.floor = b.aon.floor)
    (h_alarm : Part.has l 17 = true ∨ (x_aon.alarmLevel = b.aon.alarmLevel ∧ x_aon.raised = b.aon.raised))
    (h_aon : Part.has l 18 = true ∨ { x_aon with fuses := [], floor := 0, alarmLevel := 0, raised := 0 } = { b.aon with fuses := [], floor := 0, alarmLevel := 0, raised := 0 })
    (h0 : Dev.SameBut l a b) :
    Dev.SameBut l a ⟨x_clock, x_regs, x_ctxs, x_hz, x_health, x_banks, x_wisps, x_thm, x_pat, x_sd, x_hang, x_jnl, x_dbg, x_aon, x_ledger, x_afsin, x_alarms, x_cfg, x_start, b.prot, x_pins, x_draws⟩ :=
  Dev.SameBut.mk' h_ctxs h_hz h_health h_banks h_wisps h_thm h_pat h_sd h_hang h_jnl h_dbg h_ledger h_afsin h_alarms h_cfg h_start (.inr rfl) h_pins h_draws h_frame h_stop h_clock h_regs h_port h_fuses h_floor h_alarm h_aon h0

end Sys2Proof.Machine
end

