-- ==== Sys2Proof/Laws/KeepsOps.lean ====
section
/-! SUPPORT. What each operation of the shared operations, registers, records, alarms, launch, resets and health can change:
one lemma an operation, in the form in which it composes. -/

-- One proof after another: in one text with every other file, a task for each would take a thread for each.
set_option Elab.async false

namespace Sys2Proof.Machine

set_option linter.unusedSimpArgs false
variable {l : List Part} {a d : Dev}

theorem Dev.modBank_keeps (x1) (x2)
    (hs : Part.sub [.banks] l = true)
    (h : Dev.SameBut l a d) : Dev.SameBut l a (Dev.modBank d x1 x2) := by
  refine .step ?_ hs h
  unfold Dev.modBank
  simp +decide (maxDischargeDepth := 30) only [Dev.SameBut.refl, Dev.SameBut.ite, Dev.SameBut.upd, Dev.SameBut.upd', true_or, or_true, and_self]

theorem Dev.modBanks_keeps (x1)
    (hs : Part.sub [.banks] l = true)
    (h : Dev.SameBut l a d) : Dev.SameBut l a (Dev.modBanks d x1) := by
  refine .step ?_ hs h
  unfold Dev.modBanks
  simp +decide (maxDischargeDepth := 30) only [Dev.SameBut.refl, Dev.SameBut.ite, Dev.SameBut.upd, Dev.SameBut.upd', true_or, or_true, and_self]

theorem Dev.modWisp_keeps (x1) (x2) (x3)
    (hs : Part.sub [.wisps] l = true)
    (h : Dev.SameBut l a d) : Dev.SameBut l a (Dev.modWisp d x1 x2 x3) := by
  refine .step ?_ hs h
  unfold Dev.modWisp
  simp +decide (maxDischargeDepth := 30) only [Dev.SameBut.refl, Dev.SameBut.ite, Dev.SameBut.upd, Dev.SameBut.upd', true_or, or_true, and_self]

theorem Dev.modCtx_keeps (x1) (x2)
    (hs : Part.sub [.ctxs] l = true)
    (h : Dev.SameBut l a d) : Dev.SameBut l a (Dev.modCtx d x1 x2) := by
  refine .step ?_ hs h
  unfold Dev.modCtx
  simp +decide (maxDischargeDepth := 30) only [Dev.SameBut.refl, Dev.SameBut.ite, Dev.SameBut.upd, Dev.SameBut.upd', true_or, or_true, and_self]

theorem Dev.dropBase_keeps (x1)
    (hs : Part.sub [.dbg] l = true)
    (h : Dev.SameBut l a d) : Dev.SameBut l a (Dev.dropBase d x1) := by
  refine .step ?_ hs h
  unfold Dev.dropBase
  simp +decide (maxDischargeDepth := 30) only [Dev.SameBut.refl, Dev.SameBut.ite, Dev.SameBut.upd, Dev.SameBut.upd', true_or, or_true, and_self]

theorem Dev.modUht_keeps (x1) (x2)
    (hs : Part.sub [.health] l = true)
    (h : Dev.SameBut l a d) : Dev.SameBut l a (Dev.modUht d x1 x2) := by
  refine .step ?_ hs h
  unfold Dev.modUht
  simp +decide (maxDischargeDepth := 30) only [Dev.SameBut.refl, Dev.SameBut.ite, Dev.SameBut.upd, Dev.SameBut.upd', true_or, or_true, and_self]

theorem Dev.arbPush_keeps (x1)
    (hs : Part.sub [.jnl] l = true)
    (h : Dev.SameBut l a d) : Dev.SameBut l a (Dev.arbPush d x1) := by
  refine .step ?_ hs h
  unfold Dev.arbPush
  simp +decide (maxDischargeDepth := 30) only [Dev.SameBut.refl, Dev.SameBut.ite, Dev.SameBut.upd, Dev.SameBut.upd', true_or, or_true, and_self]

theorem Dev.jPush_keeps (x1)
    (hs : Part.sub [.jnl] l = true)
    (h : Dev.SameBut l a d) : Dev.SameBut l a (Dev.jPush d x1) := by
  refine .step ?_ hs h
  unfold Dev.jPush
  simp +decide (maxDischargeDepth := 30) only [Dev.SameBut.refl, Dev.arbPush_keeps, Dev.SameBut.ite]

theorem Dev.zEvent_keeps (x1) (x2) (x3) (x4) (x5) (x6) (x7)
    (hs : Part.sub [.jnl] l = true)
    (h : Dev.SameBut l a d) : Dev.SameBut l a (Dev.zEvent d x1 x2 x3 x4 x5 x6 x7) := by
  refine .step ?_ hs h
  unfold Dev.zEvent
  simp +decide (maxDischargeDepth := 30) only [Dev.SameBut.refl, Dev.jPush_keeps, Dev.SameBut.ite]

theorem Dev.recordLate_keeps (x1) (x2) (x3) (x4) (x5) (x6)
    (hs : Part.sub [.jnl, .reg Reg.ZN_HANG_CNT_LATE] l = true)
    (h : Dev.SameBut l a d) : Dev.SameBut l a (Dev.recordLate d x1 x2 x3 x4 x5 x6) := by
  refine .step ?_ hs h
  unfold Dev.recordLate
  simp +decide (maxDischargeDepth := 30) only [Dev.SameBut.refl, Dev.bumpZ_keeps, Dev.zEvent_keeps, Dev.SameBut.ite]

theorem Dev.present_keeps (x1) (x2) (x3) (x4) (x5)
    (hs : Part.sub [.banks, .reg Reg.ZN_STOP_LOST] l = true)
    (h : Dev.SameBut l a d) : Dev.SameBut l a (Dev.present d x1 x2 x3 x4 x5) := by
  refine .step ?_ hs h
  unfold Dev.present
  simp +decide (maxDischargeDepth := 30) only [Dev.SameBut.refl, Dev.satZ_keeps, Dev.modBank_keeps, Dev.SameBut.ite]

theorem Dev.bankEvent_keeps (x1) (x2) (x3) (x4) (x5) (x6) (x7) (x8) (x9)
    (hs : Part.sub [.banks, .reg Reg.ZN_STOP_LOST] l = true)
    (h : Dev.SameBut l a d) : Dev.SameBut l a (Dev.bankEvent d x1 x2 x3 x4 x5 x6 x7 x8 x9) := by
  refine .step ?_ hs h
  unfold Dev.bankEvent
  simp +decide (maxDischargeDepth := 30) only [Dev.SameBut.refl, Dev.present_keeps, Dev.SameBut.ite]

theorem Dev.wispEvent_keeps (x1) (x2) (x3) (x4) (x5) (x6) (x7) (x8) (x9)
    (hs : Part.sub [.banks, .reg Reg.ZN_STOP_LOST] l = true)
    (h : Dev.SameBut l a d) : Dev.SameBut l a (Dev.wispEvent d x1 x2 x3 x4 x5 x6 x7 x8 x9) := by
  refine .step ?_ hs h
  unfold Dev.wispEvent
  simp +decide (maxDischargeDepth := 30) only [Dev.SameBut.refl, Dev.present_keeps, Dev.SameBut.ite]

theorem Dev.loseNotice_keeps
    (hs : Part.sub [.afsin, .reg Reg.ZN_AFS_CNT_LOST] l = true)
    (h : Dev.SameBut l a d) : Dev.SameBut l a (Dev.loseNotice d) := by
  refine .step ?_ hs h
  unfold Dev.loseNotice
  simp +decide (maxDischargeDepth := 30) only [Dev.SameBut.refl, Dev.bumpZ_keeps, Dev.SameBut.ite, Dev.SameBut.upd, Dev.SameBut.upd', true_or, or_true, and_self]

theorem Dev.queueNotice_keeps (x1) (x2) (x3)
    (hs : Part.sub [.afsin, .reg Reg.ZN_AFS_CNT_SENT] l = true)
    (h : Dev.SameBut l a d) : Dev.SameBut l a (Dev.queueNotice d x1 x2 x3) := by
  refine .step ?_ hs h
  unfold Dev.queueNotice
  simp +decide (maxDischargeDepth := 30) only [Dev.SameBut.refl, Dev.bumpZ_keeps, Dev.SameBut.ite, Dev.SameBut.upd, Dev.SameBut.upd', true_or, or_true, and_self]

theorem Dev.notice_keeps (x1) (x2) (x3)
    (hs : Part.sub [.afsin, .reg Reg.ZN_AFS_CNT_LOST, .reg Reg.ZN_AFS_CNT_SENT] l = true)
    (h : Dev.SameBut l a d) : Dev.SameBut l a (Dev.notice d x1 x2 x3) := by
  refine .step ?_ hs h
  unfold Dev.notice
  repeat' first
    | simp +decide (maxDischargeDepth := 30) only [Dev.SameBut.refl, Dev.queueNotice_keeps, Dev.loseNotice_keeps, Dev.SameBut.ite, Dev.SameBut.upd, Dev.SameBut.upd', true_or, or_true, and_self]
    | split

theorem Dev.eventNotice_keeps (x1) (x2) (x3) (x4) (x5) (x6) (x7) (x8) (x9)
    (hs : Part.sub [.afsin, .reg Reg.ZN_AFS_CNT_LOST, .reg Reg.ZN_AFS_CNT_SENT] l = true)
    (h : Dev.SameBut l a d) : Dev.SameBut l a (Dev.eventNotice d x1 x2 x3 x4 x5 x6 x7 x8 x9) := by
  refine .step ?_ hs h
  unfold Dev.eventNotice
  simp +decide (maxDischargeDepth := 30) only [Dev.SameBut.refl, Dev.notice_keeps, Dev.SameBut.ite]

theorem Dev.recNotice_keeps (x1) (x2) (x3) (x4) (x5) (x6) (x7) (x8)
    (hs : Part.sub [.afsin, .reg Reg.ZN_AFS_CNT_LOST, .reg Reg.ZN_AFS_CNT_SENT] l = true)
    (h : Dev.SameBut l a d) : Dev.SameBut l a (Dev.recNotice d x1 x2 x3 x4 x5 x6 x7 x8) := by
  refine .step ?_ hs h
  unfold Dev.recNotice
  simp +decide (maxDischargeDepth := 30) only [Dev.SameBut.refl, Dev.notice_keeps, Dev.SameBut.ite]

theorem Dev.sdNotice_keeps (x1) (x2)
    (hs : Part.sub [.afsin, .reg Reg.ZN_AFS_CNT_LOST, .reg Reg.ZN_AFS_CNT_SENT] l = true)
    (h : Dev.SameBut l a d) : Dev.SameBut l a (Dev.sdNotice d x1 x2) := by
  refine .step ?_ hs h
  unfold Dev.sdNotice
  simp +decide (maxDischargeDepth := 30) only [Dev.SameBut.refl, Dev.eventNotice_keeps, Dev.SameBut.ite]

theorem Dev.sdAbort_keeps (x1)
    (hs : Part.sub [.afsin, .sd, .reg Reg.ZN_AFS_CNT_LOST, .reg Reg.ZN_AFS_CNT_SENT, .reg Reg.ZN_SD_STAT] l = true)
    (h : Dev.SameBut l a d) : Dev.SameBut l a (Dev.sdAbort d x1) := by
  refine .step ?_ hs h
  unfold Dev.sdAbort
  simp +decide (maxDischargeDepth := 30) only [Dev.SameBut.refl, Dev.sdNotice_keeps, Dev.setZf_keeps, Dev.SameBut.ite, Dev.SameBut.upd, Dev.SameBut.upd', true_or, or_true, and_self]

theorem Dev.erase_keeps
    (hs : Part.sub [.afsin, .alarms, .aon, .jnl, .ledger, .sd, .reg Reg.ZN_AFS_CNT_LOST, .reg Reg.ZN_AFS_CNT_SENT, .reg Reg.ZN_EXP_STAT, .reg Reg.ZN_SD_STAT] l = true)
    (h : Dev.SameBut l a d) : Dev.SameBut l a (Dev.erase d) := by
  refine .step ?_ hs h
  unfold Dev.erase
  simp +decide (maxDischargeDepth := 30) only [Dev.SameBut.refl, Dev.setZf_keeps, Dev.sdAbort_keeps, Dev.SameBut.ite, Dev.SameBut.upd, Dev.SameBut.upd', true_or, or_true, and_self]

theorem Dev.ringCopy_keeps (x1) (x2) (x3)
    (hs : Part.sub [.banks] l = true)
    (h : Dev.SameBut l a d) : Dev.SameBut l a (Dev.ringCopy d x1 x2 x3) := by
  refine .step ?_ hs h
  unfold Dev.ringCopy
  simp +decide (maxDischargeDepth := 30) only [Dev.SameBut.refl, Dev.modBanks_keeps, Dev.SameBut.ite]

theorem Dev.raiseAlarm_keeps (x1)
    (hs : Part.sub [.afsin, .alarm, .alarms, .aon, .banks, .jnl, .ledger, .sd, .reg Reg.ZN_AFS_CNT_LOST, .reg Reg.ZN_AFS_CNT_SENT, .reg Reg.ZN_ALM_CNT_RAISE, .reg Reg.ZN_EXP_STAT, .reg Reg.ZN_SD_STAT] l = true)
    (h : Dev.SameBut l a d) : Dev.SameBut l a (Dev.raiseAlarm d x1) := by
  refine .step ?_ hs h
  unfold Dev.raiseAlarm
  simp +decide (maxDischargeDepth := 30) only [Dev.SameBut.refl, Dev.bumpZ_keeps, Dev.jPush_keeps, Dev.ringCopy_keeps, Dev.zEvent_keeps, Dev.notice_keeps, Dev.erase_keeps, Dev.SameBut.ite, Dev.SameBut.upd, Dev.SameBut.upd', true_or, or_true, and_self]

theorem Dev.modPath_keeps (x1) (x2)
    (hs : Part.sub [.port] l = true)
    (h : Dev.SameBut l a d) : Dev.SameBut l a (Dev.modPath d x1 x2) := by
  refine .step ?_ hs h
  unfold Dev.modPath
  simp +decide (maxDischargeDepth := 30) only [Dev.SameBut.refl, Dev.SameBut.ite, Dev.SameBut.upd, Dev.SameBut.upd', true_or, or_true, and_self]

theorem Dev.regReject_keeps (x1) (x2) (x3)
    (hs : Part.sub [.jnl, .port] l = true)
    (h : Dev.SameBut l a d) : Dev.SameBut l a (Dev.regReject d x1 x2 x3) := by
  refine .step ?_ hs h
  unfold Dev.regReject
  simp +decide (maxDischargeDepth := 30) only [Dev.SameBut.refl, Dev.zEvent_keeps, Dev.SameBut.ite, Dev.SameBut.upd, Dev.SameBut.upd', true_or, or_true, and_self]

theorem Dev.onRefuse_keeps (x1) (x2) (x3) (x4)
    (hs : Part.sub [.jnl, .port, .reg Reg.ZN_ALM_CNT_FROZEN, .reg Reg.ZN_CFG_CNT_REJECT, .reg Reg.ZN_DBG_CNT_DENIED, .reg Reg.ZN_DBG_CNT_REJECT, .reg Reg.ZN_REG_CNT_DENIED, .reg Reg.ZN_REG_CNT_HOLE] l = true)
    (h : Dev.SameBut l a d) : Dev.SameBut l a (Dev.onRefuse d x1 x2 x3 x4) := by
  refine .step ?_ hs h
  unfold Dev.onRefuse
  repeat' first
    | simp +decide (maxDischargeDepth := 30) only [Dev.SameBut.refl, Dev.bumpZ_keeps, Dev.regReject_keeps, Dev.SameBut.ite]
    | split

theorem Dev.cmdZ_keeps (x1) (x2) (x3) (x4)
    (hs : Part.sub [.jnl, .port, .reg Reg.ZN_ALM_CNT_FROZEN, .reg Reg.ZN_CFG_CNT_REJECT, .reg Reg.ZN_DBG_CNT_DENIED, .reg Reg.ZN_DBG_CNT_REJECT, .reg Reg.ZN_REG_CNT_DENIED, .reg Reg.ZN_REG_CNT_HOLE] l = true)
    (hf : ∀ e, Dev.SameBut l e (x4 e))
    (h : Dev.SameBut l a d) : Dev.SameBut l a (Dev.cmdZ d x1 x2 x3 x4) := by
  have hR : ∀ r, Dev.SameBut l a (d.onRefuse x1 (.zn x2) x3 r) := fun r =>
    Dev.SameBut.step (k := [.jnl, .port, .reg Reg.ZN_ALM_CNT_FROZEN, .reg Reg.ZN_CFG_CNT_REJECT, .reg Reg.ZN_DBG_CNT_DENIED, .reg Reg.ZN_DBG_CNT_REJECT, .reg Reg.ZN_REG_CNT_DENIED, .reg Reg.ZN_REG_CNT_HOLE]) (Dev.onRefuse_keeps _ _ _ _ (Eq.refl true) (.refl _ _)) hs h
  unfold Dev.cmdZ
  split
  · exact h
  split
  · exact Dev.SameBut.step (k := [.jnl, .port, .reg Reg.ZN_ALM_CNT_FROZEN, .reg Reg.ZN_CFG_CNT_REJECT, .reg Reg.ZN_DBG_CNT_DENIED, .reg Reg.ZN_DBG_CNT_REJECT, .reg Reg.ZN_REG_CNT_DENIED, .reg Reg.ZN_REG_CNT_HOLE]) (Dev.bumpZ_keeps _ (Eq.refl true) (.refl _ _)) hs h
  split
  · dsimp only
    split
    · exact (hR _).trans (hf _)
    · exact hR _
  · exact h.trans (hf d)

theorem Dev.indResult_keeps (x1) (x2)
    (hs : Part.sub [.port] l = true)
    (h : Dev.SameBut l a d) : Dev.SameBut l a (Dev.indResult d x1 x2) := by
  refine .step ?_ hs h
  unfold Dev.indResult
  simp +decide (maxDischargeDepth := 30) only [Dev.SameBut.refl, Dev.modPath_keeps, Dev.SameBut.ite]

theorem Dev.cmdAt_keeps (x1) (x2) (x3) (x4)
    (hs : Part.sub [.jnl, .port, .reg Reg.ZN_ALM_CNT_FROZEN, .reg Reg.ZN_CFG_CNT_REJECT, .reg Reg.ZN_DBG_CNT_DENIED, .reg Reg.ZN_DBG_CNT_REJECT, .reg Reg.ZN_REG_CNT_DENIED, .reg Reg.ZN_REG_CNT_HOLE] l = true)
    (hf : ∀ e, Dev.SameBut l e (x4 e))
    (h : Dev.SameBut l a d) : Dev.SameBut l a (Dev.cmdAt d x1 x2 x3 x4) := by
  have hR : ∀ (e : Dev) r, Dev.SameBut l a e → Dev.SameBut l a (e.onRefuse x1 x2 x3 r) := fun e r he =>
    Dev.SameBut.step (k := [.jnl, .port, .reg Reg.ZN_ALM_CNT_FROZEN, .reg Reg.ZN_CFG_CNT_REJECT, .reg Reg.ZN_DBG_CNT_DENIED, .reg Reg.ZN_DBG_CNT_REJECT, .reg Reg.ZN_REG_CNT_DENIED, .reg Reg.ZN_REG_CNT_HOLE]) (Dev.onRefuse_keeps _ _ _ _ (Eq.refl true) (.refl _ _)) hs he
  have hA : ∀ (e b : Dev), Dev.SameBut l a e → Dev.SameBut l a b → Dev.SameBut l a (e.atTarget x1 x2 x3 id b) := by
    intro e b he hb
    unfold Dev.atTarget
    split
    · exact hR _ _ he
    split
    · exact he
    · exact hb
  have hr : ∀ r, Dev.SameBut l a (d.indResult x1 r) := fun r =>
    Dev.SameBut.step (k := [.jnl, .port, .reg Reg.ZN_ALM_CNT_FROZEN, .reg Reg.ZN_CFG_CNT_REJECT, .reg Reg.ZN_DBG_CNT_DENIED, .reg Reg.ZN_DBG_CNT_REJECT, .reg Reg.ZN_REG_CNT_DENIED, .reg Reg.ZN_REG_CNT_HOLE]) (Dev.indResult_keeps _ _ (Eq.refl true) (.refl _ _)) hs h
  unfold Dev.cmdAt
  split
  · exact h
  split
  · split
    · exact Dev.SameBut.step (k := [.jnl, .port, .reg Reg.ZN_ALM_CNT_FROZEN, .reg Reg.ZN_CFG_CNT_REJECT, .reg Reg.ZN_DBG_CNT_DENIED, .reg Reg.ZN_DBG_CNT_REJECT, .reg Reg.ZN_REG_CNT_DENIED, .reg Reg.ZN_REG_CNT_HOLE]) (Dev.bumpZ_keeps _ (Eq.refl true) (.refl _ _)) hs h
    split
    · exact h
    · exact hA _ _ h (h.trans (hf _))
  split
  · exact hR _ _ h
  dsimp only
  split
  · split
    · exact hR _ _ (hr _)
    · exact hr _
  · exact hA _ _ (hr _) ((hr _).trans (hf _))

theorem Dev.cmdB_keeps (x1) (x2) (x3) (x4) (x5)
    (hs : Part.sub [.jnl, .port, .reg Reg.ZN_ALM_CNT_FROZEN, .reg Reg.ZN_CFG_CNT_REJECT, .reg Reg.ZN_DBG_CNT_DENIED, .reg Reg.ZN_DBG_CNT_REJECT, .reg Reg.ZN_REG_CNT_DENIED, .reg Reg.ZN_REG_CNT_HOLE] l = true)
    (hf : ∀ e, Dev.SameBut l e (x5 e))
    (h : Dev.SameBut l a d) : Dev.SameBut l a (Dev.cmdB d x1 x2 x3 x4 x5) := by
  exact Dev.cmdAt_keeps _ _ _ _ hs hf h

theorem Dev.cmdW_keeps (x1) (x2) (x3) (x4) (x5) (x6)
    (hs : Part.sub [.jnl, .port, .reg Reg.ZN_ALM_CNT_FROZEN, .reg Reg.ZN_CFG_CNT_REJECT, .reg Reg.ZN_DBG_CNT_DENIED, .reg Reg.ZN_DBG_CNT_REJECT, .reg Reg.ZN_REG_CNT_DENIED, .reg Reg.ZN_REG_CNT_HOLE] l = true)
    (hf : ∀ e, Dev.SameBut l e (x6 e))
    (h : Dev.SameBut l a d) : Dev.SameBut l a (Dev.cmdW d x1 x2 x3 x4 x5 x6) := by
  exact Dev.cmdAt_keeps _ _ _ _ hs hf h

theorem Dev.applyClear_keeps (x1)
    (hs : Part.sub [.banks, .jnl, .wisps, .reg Reg.ZN_REC_CNT_CLEAR] l = true)
    (h : Dev.SameBut l a d) : Dev.SameBut l a (Dev.applyClear d x1) := by
  refine .step ?_ hs h
  unfold Dev.applyClear
  repeat' first
    | simp +decide (maxDischargeDepth := 30) only [Dev.SameBut.refl, Dev.bumpZ_keeps, Dev.modBank_keeps, Dev.jPush_keeps, Dev.SameBut.ite, Dev.SameBut.upd, Dev.SameBut.upd', true_or, or_true, and_self]
    | split

theorem Dev.markClear_keeps (x1) (x2)
    (hs : Part.sub [.banks] l = true)
    (h : Dev.SameBut l a d) : Dev.SameBut l a (Dev.markClear d x1 x2) := by
  refine .step ?_ hs h
  unfold Dev.markClear
  simp +decide (maxDischargeDepth := 30) only [Dev.SameBut.refl, Dev.modBanks_keeps, Dev.modBank_keeps, Dev.SameBut.ite]

theorem Dev.checkpoint_keeps
    (hs : Part.sub [.jnl, .reg Reg.ZN_JNL_CNT_CKPT] l = true)
    (h : Dev.SameBut l a d) : Dev.SameBut l a (Dev.checkpoint d) := by
  refine .step ?_ hs h
  unfold Dev.checkpoint
  simp +decide (maxDischargeDepth := 30) only [Dev.SameBut.refl, Dev.bumpZ_keeps, Dev.SameBut.ite, Dev.SameBut.upd, Dev.SameBut.upd', true_or, or_true, and_self]

theorem Dev.writeHeader_keeps
    (hs : Part.sub [.ledger] l = true)
    (h : Dev.SameBut l a d) : Dev.SameBut l a (Dev.writeHeader d) := by
  refine .step ?_ hs h
  unfold Dev.writeHeader
  repeat' first
    | simp +decide (maxDischargeDepth := 30) only [Dev.SameBut.refl, Dev.SameBut.ite, Dev.SameBut.upd, Dev.SameBut.upd', true_or, or_true, and_self]
    | split

theorem Dev.ledgerNotice_keeps (x1)
    (hs : Part.sub [.afsin, .reg Reg.ZN_AFS_CNT_LOST, .reg Reg.ZN_AFS_CNT_SENT] l = true)
    (h : Dev.SameBut l a d) : Dev.SameBut l a (Dev.ledgerNotice d x1) := by
  refine .step ?_ hs h
  unfold Dev.ledgerNotice
  simp +decide (maxDischargeDepth := 30) only [Dev.SameBut.refl, Dev.notice_keeps, Dev.SameBut.ite]

theorem Dev.wearStage_keeps (x1)
    (hs : Part.sub [.afsin, .jnl, .ledger, .reg Reg.ZN_AFS_CNT_LOST, .reg Reg.ZN_AFS_CNT_SENT] l = true)
    (h : Dev.SameBut l a d) : Dev.SameBut l a (Dev.wearStage d x1) := by
  refine .step ?_ hs h
  unfold Dev.wearStage
  simp +decide (maxDischargeDepth := 30) only [Dev.SameBut.refl, Dev.zEvent_keeps, Dev.jPush_keeps, Dev.ledgerNotice_keeps, Dev.SameBut.ite, Dev.SameBut.upd, Dev.SameBut.upd', true_or, or_true, and_self]

theorem Dev.recRd_keeps (x1) (x2)
    (hs : Part.sub [.banks, .draws] l = true)
    (h : Dev.SameBut l a d) : Dev.SameBut l a (Dev.recRd d x1 x2) := by
  refine .step ?_ hs h
  unfold Dev.recRd
  simp +decide (maxDischargeDepth := 30) only [Dev.SameBut.refl, Dev.modBank_keeps, Dev.SameBut.ite, Dev.SameBut.upd, Dev.SameBut.upd', true_or, or_true, and_self, Dev.draw]

theorem Dev.recUnfreeze_keeps (x1)
    (hs : Part.sub [.banks, .draws] l = true)
    (h : Dev.SameBut l a d) : Dev.SameBut l a (Dev.recUnfreeze d x1) := by
  refine .step ?_ hs h
  unfold Dev.recUnfreeze
  simp +decide (maxDischargeDepth := 30) only [Dev.SameBut.refl, Dev.modBank_keeps, Dev.SameBut.ite, Dev.SameBut.upd, Dev.SameBut.upd', true_or, or_true, and_self, Dev.draw]

theorem Dev.recFreeze_keeps (x1) (x2)
    (hs : Part.sub [.banks, .draws] l = true)
    (h : Dev.SameBut l a d) : Dev.SameBut l a (Dev.recFreeze d x1 x2) := by
  refine .step ?_ hs h
  unfold Dev.recFreeze
  simp +decide (maxDischargeDepth := 30) only [Dev.SameBut.refl, Dev.modBank_keeps, Dev.recUnfreeze_keeps, Dev.SameBut.ite]

theorem Dev.wsRecFreeze_keeps (x1) (x2) (x3)
    (hs : Part.sub [.wisps] l = true)
    (h : Dev.SameBut l a d) : Dev.SameBut l a (Dev.wsRecFreeze d x1 x2 x3) := by
  refine .step ?_ hs h
  unfold Dev.wsRecFreeze
  simp +decide (maxDischargeDepth := 30) only [Dev.SameBut.refl, Dev.modWisp_keeps, Dev.SameBut.ite]

theorem Dev.recClrArm_keeps (x1) (x2)
    (hs : Part.sub [.port, .reg Reg.ZN_REC_CLR_STAT] l = true)
    (h : Dev.SameBut l a d) : Dev.SameBut l a (Dev.recClrArm d x1 x2) := by
  refine .step ?_ hs h
  unfold Dev.recClrArm
  repeat' first
    | simp +decide (maxDischargeDepth := 30) only [Dev.SameBut.refl, Dev.setZf_keeps, Dev.modPath_keeps, Dev.SameBut.ite]
    | split

theorem Dev.recClrClear_keeps (x1) (x2)
    (hs : Part.sub [.banks, .port, .reg Reg.ZN_REC_CLR_STAT] l = true)
    (h : Dev.SameBut l a d) : Dev.SameBut l a (Dev.recClrClear d x1 x2) := by
  refine .step ?_ hs h
  unfold Dev.recClrClear
  repeat' first
    | simp +decide (maxDischargeDepth := 30) only [Dev.SameBut.refl, Dev.modPath_keeps, Dev.setZf_keeps, Dev.markClear_keeps, Dev.SameBut.ite]
    | split

theorem Dev.deniedRead_keeps (x1) (x2)
    (hs : Part.sub [.port, .reg Reg.ZN_DBG_CNT_DENIED, .reg Reg.ZN_REG_CNT_DENIED] l = true)
    (h : Dev.SameBut l a d) : Dev.SameBut l a (Dev.deniedRead d x1 x2) := by
  refine .step ?_ hs h
  unfold Dev.deniedRead
  simp +decide (maxDischargeDepth := 30) only [Dev.SameBut.refl, Dev.bumpZ_keeps, Dev.SameBut.ite, Dev.SameBut.upd, Dev.SameBut.upd', true_or, or_true, and_self]

theorem Dev.readAt_keeps (x1) (x2) (x3)
    (hs : Part.sub [.port, .reg Reg.ZN_DBG_CNT_DENIED, .reg Reg.ZN_REG_CNT_DENIED, .reg Reg.ZN_REG_CNT_HOLE] l = true)
    (hf : ∀ e, Dev.SameBut l e (x3 e))
    (h : Dev.SameBut l a d) : Dev.SameBut l a (Dev.readAt d x1 x2 x3) := by
  have hz : ∀ e, Dev.SameBut l a e → Dev.SameBut l a ({ e with regs.readData := 0 }) := fun e he =>
    Dev.SameBut.step (k := [.port, .reg Reg.ZN_DBG_CNT_DENIED, .reg Reg.ZN_REG_CNT_DENIED, .reg Reg.ZN_REG_CNT_HOLE]) (by simp +decide (maxDischargeDepth := 30) only [Dev.SameBut.refl, Dev.SameBut.ite, Dev.SameBut.upd, Dev.SameBut.upd', true_or, or_true, and_self]) hs he
  have hh : ∀ e, Dev.SameBut l a e → Dev.SameBut l a (e.bumpZ Reg.ZN_REG_CNT_HOLE) := fun e he =>
    Dev.SameBut.step (k := [.port, .reg Reg.ZN_DBG_CNT_DENIED, .reg Reg.ZN_REG_CNT_DENIED, .reg Reg.ZN_REG_CNT_HOLE]) (Dev.bumpZ_keeps _ (Eq.refl true) (.refl _ _)) hs he
  have hd : ∀ e, Dev.SameBut l a e → Dev.SameBut l a (e.deniedRead x1 x2) := fun e he =>
    Dev.SameBut.step (k := [.port, .reg Reg.ZN_DBG_CNT_DENIED, .reg Reg.ZN_REG_CNT_DENIED, .reg Reg.ZN_REG_CNT_HOLE]) (Dev.deniedRead_keeps _ _ (Eq.refl true) (.refl _ _)) hs he
  have hr : ∀ r, Dev.SameBut l a (d.indResult x1 r) := fun r =>
    Dev.SameBut.step (k := [.port, .reg Reg.ZN_DBG_CNT_DENIED, .reg Reg.ZN_REG_CNT_DENIED, .reg Reg.ZN_REG_CNT_HOLE]) (Dev.indResult_keeps _ _ (Eq.refl true) (.refl _ _)) hs h
  unfold Dev.readAt
  dsimp only
  split
  · exact hz _ h
  split
  · split
    · exact hh _ (hz _ h)
    split
    · exact hz _ h
    split
    · exact hh _ (hz _ h)
    · exact h.trans (hf d)
  split
  · exact hd _ (hr _)
  split
  · exact hh _ (hz _ (hr _))
  split
  · exact (hr _).trans (hf _)
  · exact hz _ (hr _)

theorem Dev.readB_keeps (x1) (x2) (x3) (x4)
    (hs : Part.sub [.port, .reg Reg.ZN_DBG_CNT_DENIED, .reg Reg.ZN_REG_CNT_DENIED, .reg Reg.ZN_REG_CNT_HOLE] l = true)
    (hf : ∀ e, Dev.SameBut l e (x4 e))
    (h : Dev.SameBut l a d) : Dev.SameBut l a (Dev.readB d x1 x2 x3 x4) := by
  exact Dev.readAt_keeps _ _ _ hs hf h

theorem Dev.recW0_keeps (x1)
    (hs : Part.sub [.banks, .port] l = true)
    (h : Dev.SameBut l a d) : Dev.SameBut l a (Dev.recW0 d x1) := by
  refine .step ?_ hs h
  unfold Dev.recW0
  simp +decide (maxDischargeDepth := 30) only [Dev.SameBut.refl, Dev.modBank_keeps, Dev.SameBut.ite, Dev.SameBut.upd, Dev.SameBut.upd', true_or, or_true, and_self]

theorem Dev.recW7_keeps (x1)
    (hs : Part.sub [.banks, .port] l = true)
    (h : Dev.SameBut l a d) : Dev.SameBut l a (Dev.recW7 d x1) := by
  refine .step ?_ hs h
  unfold Dev.recW7
  simp +decide (maxDischargeDepth := 30) only [Dev.SameBut.refl, Dev.modBank_keeps, Dev.SameBut.ite, Dev.SameBut.upd, Dev.SameBut.upd', true_or, or_true, and_self]

theorem Dev.jnlSnap_keeps (x1)
    (hs : Part.sub [.port] l = true)
    (h : Dev.SameBut l a d) : Dev.SameBut l a (Dev.jnlSnap d x1) := by
  refine .step ?_ hs h
  unfold Dev.jnlSnap
  simp +decide (maxDischargeDepth := 30) only [Dev.SameBut.refl, Dev.modPath_keeps, Dev.SameBut.ite]

theorem Dev.extremeRead_keeps (x1) (x2) (x3)
    (hs : Part.sub [.port] l = true)
    (h : Dev.SameBut l a d) : Dev.SameBut l a (Dev.extremeRead d x1 x2 x3) := by
  refine .step ?_ hs h
  unfold Dev.extremeRead
  simp +decide (maxDischargeDepth := 30) only [Dev.SameBut.refl, Dev.modPath_keeps, Dev.SameBut.ite]

theorem Dev.alarmSource_keeps (x1)
    (hs : Part.sub [.afsin, .alarm, .alarms, .aon, .banks, .jnl, .ledger, .sd, .reg Reg.ZN_AFS_CNT_LOST, .reg Reg.ZN_AFS_CNT_SENT, .reg Reg.ZN_ALM_CNT_RAISE, .reg Reg.ZN_EXP_STAT, .reg Reg.ZN_SD_STAT] l = true)
    (h : Dev.SameBut l a d) : Dev.SameBut l a (Dev.alarmSource d x1) := by
  refine .step ?_ hs h
  unfold Dev.alarmSource
  simp +decide (maxDischargeDepth := 30) only [Dev.SameBut.refl, Dev.erase_keeps, Dev.raiseAlarm_keeps, Dev.SameBut.ite, Dev.SameBut.upd, Dev.SameBut.upd', true_or, or_true, and_self]

theorem Dev.debugAttempt_keeps (x1)
    (hs : Part.sub [.afsin, .alarm, .alarms, .aon, .banks, .jnl, .ledger, .sd, .reg Reg.ZN_AFS_CNT_LOST, .reg Reg.ZN_AFS_CNT_SENT, .reg Reg.ZN_ALM_CNT_RAISE, .reg Reg.ZN_EXP_STAT, .reg Reg.ZN_SD_STAT] l = true)
    (h : Dev.SameBut l a d) : Dev.SameBut l a (Dev.debugAttempt d x1) := by
  refine .step ?_ hs h
  unfold Dev.debugAttempt
  simp +decide (maxDischargeDepth := 30) only [Dev.SameBut.refl, Dev.ringCopy_keeps, Dev.zEvent_keeps, Dev.alarmSource_keeps, Dev.SameBut.ite, Dev.SameBut.upd, Dev.SameBut.upd', true_or, or_true, and_self]

theorem Dev.startExport_keeps (x1)
    (hs : Part.sub [.alarms, .reg Reg.ZN_EXP_STAT] l = true)
    (h : Dev.SameBut l a d) : Dev.SameBut l a (Dev.startExport d x1).1 := by
  refine .step ?_ hs h
  unfold Dev.startExport
  repeat' first
    | simp +decide (maxDischargeDepth := 30) only [Dev.SameBut.refl, Dev.setZf_keeps, Dev.SameBut.ite, Dev.SameBut.upd, Dev.SameBut.upd', true_or, or_true, and_self]
    | split

theorem Dev.snapExport_keeps
    (hs : Part.sub [.alarms] l = true)
    (h : Dev.SameBut l a d) : Dev.SameBut l a (Dev.snapExport d) := by
  refine .step ?_ hs h
  unfold Dev.snapExport
  simp +decide (maxDischargeDepth := 30) only [Dev.SameBut.refl, Dev.SameBut.ite, Dev.SameBut.upd, Dev.SameBut.upd', true_or, or_true, and_self]

theorem Dev.ensureSeedKey_keeps
    (hs : Part.sub [.clock, .draws] l = true)
    (h : Dev.SameBut l a d) : Dev.SameBut l a (Dev.ensureSeedKey d) := by
  refine .step ?_ hs h
  unfold Dev.ensureSeedKey
  repeat' first
    | simp +decide (maxDischargeDepth := 30) only [Dev.SameBut.refl, Dev.SameBut.ite, Dev.SameBut.upd, Dev.SameBut.upd', true_or, or_true, and_self, Dev.draw]
    | split

theorem Dev.seedRead_keeps (x1)
    (hs : Part.sub [.port, .reg Reg.ZN_SEED_MB_STAT] l = true)
    (h : Dev.SameBut l a d) : Dev.SameBut l a (Dev.seedRead d x1) := by
  refine .step ?_ hs h
  unfold Dev.seedRead
  repeat' first
    | simp +decide (maxDischargeDepth := 30) only [Dev.SameBut.refl, Dev.setZf_keeps, Dev.modPath_keeps, Dev.SameBut.ite]
    | split

theorem Dev.timeSnap_keeps (x1) (x2)
    (hs : Part.sub [.port] l = true)
    (h : Dev.SameBut l a d) : Dev.SameBut l a (Dev.timeSnap d x1 x2) := by
  refine .step ?_ hs h
  unfold Dev.timeSnap
  simp +decide (maxDischargeDepth := 30) only [Dev.SameBut.refl, Dev.modPath_keeps, Dev.SameBut.ite]

theorem Dev.arm_keeps (x1) (x2) (x3)
    (hs : Part.sub [.clock] l = true)
    (h : Dev.SameBut l a d) : Dev.SameBut l a (Dev.arm d x1 x2 x3).1 := by
  refine .step ?_ hs h
  unfold Dev.arm
  repeat' first
    | simp +decide (maxDischargeDepth := 30) only [Dev.SameBut.refl, Dev.SameBut.ite, Dev.SameBut.upd, Dev.SameBut.upd', true_or, or_true, and_self]
    | split

theorem Dev.launchArm_keeps
    (hs : Part.sub [.clock, .reg Reg.ZN_LAUNCH_FRAME_HI, .reg Reg.ZN_LAUNCH_FRAME_LO, .reg Reg.ZN_LAUNCH_STAT] l = true)
    (h : Dev.SameBut l a d) : Dev.SameBut l a (Dev.launchArm d) := by
  refine .step ?_ hs h
  unfold Dev.launchArm
  simp +decide (maxDischargeDepth := 30) only [Dev.SameBut.refl, Dev.arm_keeps, Dev.setZf_keeps, Dev.setZ_keeps, Dev.SameBut.ite]

theorem Dev.launchCancel_keeps (x1)
    (hs : Part.sub [.clock, .reg Reg.ZN_LAUNCH_STAT] l = true)
    (h : Dev.SameBut l a d) : Dev.SameBut l a (Dev.launchCancel d x1) := by
  refine .step ?_ hs h
  unfold Dev.launchCancel
  repeat' first
    | simp +decide (maxDischargeDepth := 30) only [Dev.SameBut.refl, Dev.setZf_keeps, Dev.SameBut.ite, Dev.SameBut.upd, Dev.SameBut.upd', true_or, or_true, and_self]
    | split

theorem Dev.startAnvilReset_keeps (x1) (x2) (x3)
    (hs : Part.sub [.banks, .jnl, .reg Reg.ZN_HANG_CNT_ANV_RESET, .reg Reg.ZN_STOP_LOST] l = true)
    (h : Dev.SameBut l a d) : Dev.SameBut l a (Dev.startAnvilReset d x1 x2 x3) := by
  refine .step ?_ hs h
  unfold Dev.startAnvilReset
  simp +decide (maxDischargeDepth := 30) only [Dev.SameBut.refl, Dev.zEvent_keeps, Dev.bumpZ_keeps, Dev.modBank_keeps, Dev.bankEvent_keeps, Dev.SameBut.ite]

theorem Dev.startBankReset_keeps (x1) (x2) (x3)
    (hs : Part.sub [.banks, .dbg, .jnl, .wisps, .reg Reg.ZN_HANG_CNT_BANKLOST, .reg Reg.ZN_HANG_CNT_BANK_RESET] l = true)
    (h : Dev.SameBut l a d) : Dev.SameBut l a (Dev.startBankReset d x1 x2 x3) := by
  refine .step ?_ hs h
  unfold Dev.startBankReset
  simp +decide (maxDischargeDepth := 30) only [Dev.SameBut.refl, Dev.zEvent_keeps, Dev.bumpZ_keeps, Dev.addZ_keeps, Dev.modBank_keeps, Dev.SameBut.ite, Dev.SameBut.upd, Dev.SameBut.upd', true_or, or_true, and_self]

theorem Dev.anvilOff_keeps (x1)
    (hs : Part.sub [.banks, .jnl, .reg Reg.ZN_HANG_CNT_ANV_ISO] l = true)
    (h : Dev.SameBut l a d) : Dev.SameBut l a (Dev.anvilOff d x1) := by
  refine .step ?_ hs h
  unfold Dev.anvilOff
  simp +decide (maxDischargeDepth := 30) only [Dev.SameBut.refl, Dev.modBank_keeps, Dev.zEvent_keeps, Dev.bumpZ_keeps, Dev.SameBut.ite]

theorem Dev.markLostFail_keeps (x1)
    (hs : Part.sub [.ctxs] l = true)
    (h : Dev.SameBut l a d) : Dev.SameBut l a (Dev.markLostFail d x1) := by
  refine .step ?_ hs h
  unfold Dev.markLostFail
  simp +decide (maxDischargeDepth := 30) only [Dev.SameBut.refl, Dev.SameBut.ite, Dev.SameBut.upd, Dev.SameBut.upd', true_or, or_true, and_self]

theorem Dev.bankOff_keeps (x1)
    (hs : Part.sub [.banks, .ctxs, .jnl, .pat, .reg Reg.ZN_HANG_CNT_BANK_ISO] l = true)
    (h : Dev.SameBut l a d) : Dev.SameBut l a (Dev.bankOff d x1) := by
  refine .step ?_ hs h
  unfold Dev.bankOff
  simp +decide (maxDischargeDepth := 30) only [Dev.SameBut.refl, Dev.zEvent_keeps, Dev.bumpZ_keeps, Dev.modBank_keeps, Dev.markLostFail_keeps, Dev.SameBut.ite, Dev.SameBut.upd, Dev.SameBut.upd', true_or, or_true, and_self]

theorem Dev.askCheck_keeps (x1)
    (hs : Part.sub [.wisps] l = true)
    (h : Dev.SameBut l a d) : Dev.SameBut l a (Dev.askCheck d x1) := by
  refine .step ?_ hs h
  unfold Dev.askCheck
  simp +decide (maxDischargeDepth := 30) only [Dev.SameBut.refl, Dev.modWisp_keeps, Dev.SameBut.ite]

theorem Dev.countInto_keeps (x1)
    (hs : Part.sub [.reg Reg.ZN_UHT_CNT_CLEAR, .reg Reg.ZN_UHT_CNT_ECLIPSE, .reg Reg.ZN_UHT_CNT_HAZE, .reg Reg.ZN_UHT_CNT_OVERCAST] l = true)
    (h : Dev.SameBut l a d) : Dev.SameBut l a (Dev.countInto d x1) := by
  refine .step ?_ hs h
  unfold Dev.countInto
  repeat' first
    | simp +decide (maxDischargeDepth := 30) only [Dev.SameBut.refl, Dev.bumpZ_keeps, Dev.SameBut.ite]
    | split

theorem Dev.markRemap_keeps (x1) (x2)
    (hs : Part.sub [.banks] l = true)
    (h : Dev.SameBut l a d) : Dev.SameBut l a (Dev.markRemap d x1 x2) := by
  refine .step ?_ hs h
  unfold Dev.markRemap
  repeat' first
    | simp +decide (maxDischargeDepth := 30) only [Dev.SameBut.refl, Dev.modBank_keeps, Dev.SameBut.ite]
    | split

theorem Dev.unmarkRemap_keeps (x1) (x2)
    (hs : Part.sub [.banks] l = true)
    (h : Dev.SameBut l a d) : Dev.SameBut l a (Dev.unmarkRemap d x1 x2) := by
  refine .step ?_ hs h
  unfold Dev.unmarkRemap
  simp +decide (maxDischargeDepth := 30) only [Dev.SameBut.refl, Dev.modBank_keeps, Dev.SameBut.ite]

theorem Dev.transition_keeps (x1) (x2) (x3)
    (hs : Part.sub [.afsin, .banks, .health, .jnl, .wisps, .reg Reg.ZN_AFS_CNT_LOST, .reg Reg.ZN_AFS_CNT_SENT, .reg Reg.ZN_UHT_CNT_CLEAR, .reg Reg.ZN_UHT_CNT_ECLIPSE, .reg Reg.ZN_UHT_CNT_HAZE, .reg Reg.ZN_UHT_CNT_OVERCAST] l = true)
    (h : Dev.SameBut l a d) : Dev.SameBut l a (Dev.transition d x1 x2 x3) := by
  refine .step ?_ hs h
  unfold Dev.transition
  repeat' first
    | simp +decide (maxDischargeDepth := 30) only [Dev.SameBut.refl, Dev.countInto_keeps, Dev.modUht_keeps, Dev.askCheck_keeps, Dev.notice_keeps, Dev.jPush_keeps, Dev.markRemap_keeps, Dev.SameBut.ite]
    | split

theorem Dev.zeroAge_keeps (x1)
    (hs : Part.sub [.health] l = true)
    (h : Dev.SameBut l a d) : Dev.SameBut l a (Dev.zeroAge d x1) := by
  refine .step ?_ hs h
  unfold Dev.zeroAge
  simp +decide (maxDischargeDepth := 30) only [Dev.SameBut.refl, Dev.modUht_keeps, Dev.SameBut.ite]

theorem Dev.observeRaw_keeps (x1) (x2)
    (hs : Part.sub [.afsin, .banks, .health, .jnl, .wisps, .reg Reg.ZN_AFS_CNT_LOST, .reg Reg.ZN_AFS_CNT_SENT, .reg Reg.ZN_UHT_CNT_CLEAR, .reg Reg.ZN_UHT_CNT_ECLIPSE, .reg Reg.ZN_UHT_CNT_HAZE, .reg Reg.ZN_UHT_CNT_OVERCAST] l = true)
    (h : Dev.SameBut l a d) : Dev.SameBut l a (Dev.observeRaw d x1 x2) := by
  refine .step ?_ hs h
  unfold Dev.observeRaw
  simp +decide (maxDischargeDepth := 30) only [Dev.SameBut.refl, Dev.zeroAge_keeps, Dev.transition_keeps, Dev.modUht_keeps, Dev.SameBut.ite]

theorem Dev.unwatchRaw_keeps (x1)
    (hs : Part.sub [.afsin, .banks, .health, .jnl, .wisps, .reg Reg.ZN_AFS_CNT_LOST, .reg Reg.ZN_AFS_CNT_SENT, .reg Reg.ZN_UHT_CNT_CLEAR, .reg Reg.ZN_UHT_CNT_ECLIPSE, .reg Reg.ZN_UHT_CNT_HAZE, .reg Reg.ZN_UHT_CNT_OVERCAST] l = true)
    (h : Dev.SameBut l a d) : Dev.SameBut l a (Dev.unwatchRaw d x1) := by
  refine .step ?_ hs h
  unfold Dev.unwatchRaw
  simp +decide (maxDischargeDepth := 30) only [Dev.SameBut.refl, Dev.modUht_keeps, Dev.observeRaw_keeps, Dev.SameBut.ite]

theorem Dev.unwatch_keeps (x1)
    (hs : Part.sub [.afsin, .banks, .health, .jnl, .wisps, .reg Reg.ZN_AFS_CNT_LOST, .reg Reg.ZN_AFS_CNT_SENT, .reg Reg.ZN_UHT_CNT_CLEAR, .reg Reg.ZN_UHT_CNT_ECLIPSE, .reg Reg.ZN_UHT_CNT_HAZE, .reg Reg.ZN_UHT_CNT_OVERCAST] l = true)
    (h : Dev.SameBut l a d) : Dev.SameBut l a (Dev.unwatch d x1) := by
  refine .step ?_ hs h
  unfold Dev.unwatch
  repeat' first
    | simp +decide (maxDischargeDepth := 30) only [Dev.SameBut.refl, Dev.unwatchRaw_keeps, Dev.SameBut.ite, Dev.SameBut.foldl]
    | split
    | refine Dev.SameBut.foldl (fun _ _ => ?_) ?_

theorem Dev.toEclipse_keeps (x1) (x2)
    (hs : Part.sub [.afsin, .banks, .health, .jnl, .wisps, .reg Reg.ZN_AFS_CNT_LOST, .reg Reg.ZN_AFS_CNT_SENT, .reg Reg.ZN_UHT_CNT_CLEAR, .reg Reg.ZN_UHT_CNT_ECLIPSE, .reg Reg.ZN_UHT_CNT_HAZE, .reg Reg.ZN_UHT_CNT_OVERCAST] l = true)
    (h : Dev.SameBut l a d) : Dev.SameBut l a (Dev.toEclipse d x1 x2) := by
  refine .step ?_ hs h
  unfold Dev.toEclipse
  simp +decide (maxDischargeDepth := 30) only [Dev.SameBut.refl, Dev.transition_keeps, Dev.SameBut.ite]

theorem Dev.afterEclipse_keeps (x1)
    (hs : Part.sub [.afsin, .banks, .ctxs, .health, .jnl, .pat, .wisps, .reg Reg.ZN_AFS_CNT_LOST, .reg Reg.ZN_AFS_CNT_SENT, .reg Reg.ZN_HANG_CNT_ANV_ISO, .reg Reg.ZN_HANG_CNT_BANK_ISO, .reg Reg.ZN_UHT_CNT_CLEAR, .reg Reg.ZN_UHT_CNT_ECLIPSE, .reg Reg.ZN_UHT_CNT_HAZE, .reg Reg.ZN_UHT_CNT_OVERCAST] l = true)
    (h : Dev.SameBut l a d) : Dev.SameBut l a (Dev.afterEclipse d x1) := by
  refine .step ?_ hs h
  unfold Dev.afterEclipse
  repeat' first
    | simp +decide (maxDischargeDepth := 30) only [Dev.SameBut.refl, Dev.anvilOff_keeps, Dev.bankOff_keeps, Dev.unwatch_keeps, Dev.toEclipse_keeps, Dev.SameBut.ite]
    | split

theorem Dev.chargeRaw_keeps (x1) (x2)
    (hs : Part.sub [.afsin, .banks, .ctxs, .health, .jnl, .pat, .wisps, .reg Reg.ZN_AFS_CNT_LOST, .reg Reg.ZN_AFS_CNT_SENT, .reg Reg.ZN_HANG_CNT_ANV_ISO, .reg Reg.ZN_HANG_CNT_BANK_ISO, .reg Reg.ZN_UHT_CNT_CLEAR, .reg Reg.ZN_UHT_CNT_ECLIPSE, .reg Reg.ZN_UHT_CNT_HAZE, .reg Reg.ZN_UHT_CNT_OVERCAST] l = true)
    (h : Dev.SameBut l a d) : Dev.SameBut l a (Dev.chargeRaw d x1 x2) := by
  refine .step ?_ hs h
  unfold Dev.chargeRaw
  repeat' first
    | simp +decide (maxDischargeDepth := 30) only [Dev.SameBut.refl, Dev.modUht_keeps, Dev.zeroAge_keeps, Dev.transition_keeps, Dev.afterEclipse_keeps, Dev.SameBut.ite]
    | split

theorem Dev.qualify_keeps (x1)
    (hs : Part.sub [.afsin, .banks, .health, .jnl, .wisps, .reg Reg.ZN_AFS_CNT_LOST, .reg Reg.ZN_AFS_CNT_SENT, .reg Reg.ZN_UHT_CNT_CLEAR, .reg Reg.ZN_UHT_CNT_ECLIPSE, .reg Reg.ZN_UHT_CNT_HAZE, .reg Reg.ZN_UHT_CNT_OVERCAST] l = true)
    (h : Dev.SameBut l a d) : Dev.SameBut l a (Dev.qualify d x1) := by
  refine .step ?_ hs h
  unfold Dev.qualify
  simp +decide (maxDischargeDepth := 30) only [Dev.SameBut.refl, Dev.transition_keeps, Dev.SameBut.ite]

theorem Dev.sampleRaw_keeps (x1)
    (hs : Part.sub [.afsin, .banks, .health, .jnl, .wisps, .reg Reg.ZN_AFS_CNT_LOST, .reg Reg.ZN_AFS_CNT_SENT, .reg Reg.ZN_UHT_CNT_CLEAR, .reg Reg.ZN_UHT_CNT_ECLIPSE, .reg Reg.ZN_UHT_CNT_HAZE, .reg Reg.ZN_UHT_CNT_OVERCAST] l = true)
    (h : Dev.SameBut l a d) : Dev.SameBut l a (Dev.sampleRaw d x1) := by
  refine .step ?_ hs h
  unfold Dev.sampleRaw
  simp +decide (maxDischargeDepth := 30) only [Dev.SameBut.refl, Dev.qualify_keeps, Dev.modUht_keeps, Dev.SameBut.ite]

theorem Dev.ceRaw_keeps (x1)
    (hs : Part.sub [.afsin, .banks, .health, .jnl, .wisps, .reg Reg.ZN_AFS_CNT_LOST, .reg Reg.ZN_AFS_CNT_SENT, .reg Reg.ZN_UHT_CNT_CLEAR, .reg Reg.ZN_UHT_CNT_ECLIPSE, .reg Reg.ZN_UHT_CNT_HAZE, .reg Reg.ZN_UHT_CNT_OVERCAST] l = true)
    (h : Dev.SameBut l a d) : Dev.SameBut l a (Dev.ceRaw d x1) := by
  refine .step ?_ hs h
  unfold Dev.ceRaw
  simp +decide (maxDischargeDepth := 30) only [Dev.SameBut.refl, Dev.modUht_keeps, Dev.observeRaw_keeps, Dev.SameBut.ite]

theorem Dev.sliceAfterT2_keeps (x1) (x2)
    (hs : Part.sub [.afsin, .banks, .health, .jnl, .wisps, .reg Reg.ZN_AFS_CNT_LOST, .reg Reg.ZN_AFS_CNT_SENT, .reg Reg.ZN_UHT_CNT_CLEAR, .reg Reg.ZN_UHT_CNT_ECLIPSE, .reg Reg.ZN_UHT_CNT_HAZE, .reg Reg.ZN_UHT_CNT_OVERCAST] l = true)
    (h : Dev.SameBut l a d) : Dev.SameBut l a (Dev.sliceAfterT2 d x1 x2) := by
  refine .step ?_ hs h
  unfold Dev.sliceAfterT2
  repeat' first
    | simp +decide (maxDischargeDepth := 30) only [Dev.SameBut.refl, Dev.transition_keeps, Dev.modUht_keeps, Dev.SameBut.ite]
    | split

theorem Dev.passRaw_keeps (x1) (x2)
    (hs : Part.sub [.afsin, .banks, .health, .jnl, .wisps, .reg Reg.ZN_AFS_CNT_LOST, .reg Reg.ZN_AFS_CNT_SENT, .reg Reg.ZN_UHT_CNT_CLEAR, .reg Reg.ZN_UHT_CNT_ECLIPSE, .reg Reg.ZN_UHT_CNT_HAZE, .reg Reg.ZN_UHT_CNT_OVERCAST] l = true)
    (h : Dev.SameBut l a d) : Dev.SameBut l a (Dev.passRaw d x1 x2) := by
  refine .step ?_ hs h
  unfold Dev.passRaw
  repeat' first
    | simp +decide (maxDischargeDepth := 30) only [Dev.SameBut.refl, Dev.modUht_keeps, Dev.transition_keeps, Dev.qualify_keeps, Dev.sliceAfterT2_keeps, Dev.SameBut.ite]
    | split

theorem Dev.failRaw_keeps (x1) (x2)
    (hs : Part.sub [.afsin, .banks, .ctxs, .health, .jnl, .pat, .wisps, .reg Reg.ZN_AFS_CNT_LOST, .reg Reg.ZN_AFS_CNT_SENT, .reg Reg.ZN_HANG_CNT_ANV_ISO, .reg Reg.ZN_HANG_CNT_BANK_ISO, .reg Reg.ZN_UHT_CNT_CLEAR, .reg Reg.ZN_UHT_CNT_ECLIPSE, .reg Reg.ZN_UHT_CNT_HAZE, .reg Reg.ZN_UHT_CNT_OVERCAST] l = true)
    (h : Dev.SameBut l a d) : Dev.SameBut l a (Dev.failRaw d x1 x2) := by
  refine .step ?_ hs h
  unfold Dev.failRaw
  repeat' first
    | simp +decide (maxDischargeDepth := 30) only [Dev.SameBut.refl, Dev.modUht_keeps, Dev.transition_keeps, Dev.afterEclipse_keeps, Dev.sliceAfterT2_keeps, Dev.SameBut.ite]
    | split

theorem Dev.writeSet_keeps (x1) (x2) (x3)
    (hs : Part.sub [.afsin, .banks, .ctxs, .health, .jnl, .pat, .wisps, .reg Reg.ZN_AFS_CNT_LOST, .reg Reg.ZN_AFS_CNT_SENT, .reg Reg.ZN_HANG_CNT_ANV_ISO, .reg Reg.ZN_HANG_CNT_BANK_ISO, .reg Reg.ZN_UHT_CNT_CLEAR, .reg Reg.ZN_UHT_CNT_ECLIPSE, .reg Reg.ZN_UHT_CNT_HAZE, .reg Reg.ZN_UHT_CNT_OVERCAST, .reg Reg.ZN_UHT_CNT_SET] l = true)
    (h : Dev.SameBut l a d) : Dev.SameBut l a (Dev.writeSet d x1 x2 x3) := by
  refine .step ?_ hs h
  unfold Dev.writeSet
  repeat' first
    | simp +decide (maxDischargeDepth := 30) only [Dev.SameBut.refl, Dev.unmarkRemap_keeps, Dev.transition_keeps, Dev.bumpZ_keeps, Dev.zeroAge_keeps, Dev.afterEclipse_keeps, Dev.SameBut.ite]
    | split

theorem Dev.applyHealth_keeps (x1) (x2)
    (hs : Part.sub [.afsin, .banks, .ctxs, .health, .jnl, .pat, .wisps, .reg Reg.ZN_AFS_CNT_LOST, .reg Reg.ZN_AFS_CNT_SENT, .reg Reg.ZN_HANG_CNT_ANV_ISO, .reg Reg.ZN_HANG_CNT_BANK_ISO, .reg Reg.ZN_UHT_CNT_CLEAR, .reg Reg.ZN_UHT_CNT_ECLIPSE, .reg Reg.ZN_UHT_CNT_HAZE, .reg Reg.ZN_UHT_CNT_OVERCAST, .reg Reg.ZN_UHT_CNT_SET] l = true)
    (h : Dev.SameBut l a d) : Dev.SameBut l a (Dev.applyHealth d x1 x2) := by
  refine .step ?_ hs h
  unfold Dev.applyHealth
  repeat' first
    | simp +decide (maxDischargeDepth := 30) only [Dev.SameBut.refl, Dev.chargeRaw_keeps, Dev.observeRaw_keeps, Dev.sampleRaw_keeps, Dev.ceRaw_keeps, Dev.passRaw_keeps, Dev.failRaw_keeps, Dev.modUht_keeps, Dev.afterEclipse_keeps, Dev.toEclipse_keeps, Dev.unwatchRaw_keeps, Dev.writeSet_keeps, Dev.SameBut.ite]
    | split

theorem Dev.hEvent_keeps (x1) (x2)
    (hs : Part.sub [.afsin, .banks, .clock, .ctxs, .health, .jnl, .pat, .wisps, .reg Reg.ZN_AFS_CNT_LOST, .reg Reg.ZN_AFS_CNT_SENT, .reg Reg.ZN_HANG_CNT_ANV_ISO, .reg Reg.ZN_HANG_CNT_BANK_ISO, .reg Reg.ZN_UHT_CNT_CLEAR, .reg Reg.ZN_UHT_CNT_ECLIPSE, .reg Reg.ZN_UHT_CNT_HAZE, .reg Reg.ZN_UHT_CNT_OVERCAST, .reg Reg.ZN_UHT_CNT_SET] l = true)
    (h : Dev.SameBut l a d) : Dev.SameBut l a (Dev.hEvent d x1 x2) := by
  refine .step ?_ hs h
  unfold Dev.hEvent
  simp +decide (maxDischargeDepth := 30) only [Dev.SameBut.refl, Dev.applyHealth_keeps, Dev.SameBut.ite, Dev.SameBut.upd, Dev.SameBut.upd', true_or, or_true, and_self]

theorem Dev.isolateBank_keeps (x1)
    (hs : Part.sub [.afsin, .banks, .clock, .ctxs, .health, .jnl, .pat, .wisps, .reg Reg.ZN_AFS_CNT_LOST, .reg Reg.ZN_AFS_CNT_SENT, .reg Reg.ZN_HANG_CNT_ANV_ISO, .reg Reg.ZN_HANG_CNT_BANK_ISO, .reg Reg.ZN_UHT_CNT_CLEAR, .reg Reg.ZN_UHT_CNT_ECLIPSE, .reg Reg.ZN_UHT_CNT_HAZE, .reg Reg.ZN_UHT_CNT_OVERCAST, .reg Reg.ZN_UHT_CNT_SET] l = true)
    (h : Dev.SameBut l a d) : Dev.SameBut l a (Dev.isolateBank d x1) := by
  refine .step ?_ hs h
  unfold Dev.isolateBank
  repeat' first
    | simp +decide (maxDischargeDepth := 30) only [Dev.SameBut.refl, Dev.hEvent_keeps, Dev.bankOff_keeps, Dev.SameBut.ite, Dev.SameBut.foldl]
    | split
    | generalize hx : List.foldl _ _ _ = y
      have hy : Dev.SameBut [.afsin, .banks, .clock, .ctxs, .health, .jnl, .pat, .wisps, .reg Reg.ZN_AFS_CNT_LOST, .reg Reg.ZN_AFS_CNT_SENT, .reg Reg.ZN_HANG_CNT_ANV_ISO, .reg Reg.ZN_HANG_CNT_BANK_ISO, .reg Reg.ZN_UHT_CNT_CLEAR, .reg Reg.ZN_UHT_CNT_ECLIPSE, .reg Reg.ZN_UHT_CNT_HAZE, .reg Reg.ZN_UHT_CNT_OVERCAST, .reg Reg.ZN_UHT_CNT_SET] d y := by
        rw [← hx]
        refine Dev.SameBut.foldl (fun _ _ => ?_) ?_ <;> repeat' first
          | simp +decide (maxDischargeDepth := 30) only [Dev.SameBut.refl, Dev.hEvent_keeps, Dev.bankOff_keeps, Dev.SameBut.ite, Dev.SameBut.foldl]
          | split
      clear hx
      simp +decide (maxDischargeDepth := 30) only [hy, Dev.SameBut.refl, Dev.hEvent_keeps, Dev.bankOff_keeps, Dev.SameBut.ite, Dev.SameBut.foldl]

theorem Dev.isolateAnvil_keeps (x1)
    (hs : Part.sub [.afsin, .banks, .clock, .ctxs, .health, .jnl, .pat, .wisps, .reg Reg.ZN_AFS_CNT_LOST, .reg Reg.ZN_AFS_CNT_SENT, .reg Reg.ZN_HANG_CNT_ANV_ISO, .reg Reg.ZN_HANG_CNT_BANK_ISO, .reg Reg.ZN_UHT_CNT_CLEAR, .reg Reg.ZN_UHT_CNT_ECLIPSE, .reg Reg.ZN_UHT_CNT_HAZE, .reg Reg.ZN_UHT_CNT_OVERCAST, .reg Reg.ZN_UHT_CNT_SET] l = true)
    (h : Dev.SameBut l a d) : Dev.SameBut l a (Dev.isolateAnvil d x1) := by
  refine .step ?_ hs h
  unfold Dev.isolateAnvil
  simp +decide (maxDischargeDepth := 30) only [Dev.SameBut.refl, Dev.anvilOff_keeps, Dev.hEvent_keeps, Dev.SameBut.ite]

theorem Dev.setDue_keeps (x1) (x2)
    (hs : Part.sub [.health, .wisps] l = true)
    (h : Dev.SameBut l a d) : Dev.SameBut l a (Dev.setDue d x1 x2) := by
  refine .step ?_ hs h
  unfold Dev.setDue
  simp +decide (maxDischargeDepth := 30) only [Dev.SameBut.refl, Dev.askCheck_keeps, Dev.modUht_keeps, Dev.SameBut.ite]

theorem Dev.uhtRead_keeps (x1)
    (hs : Part.sub [.port] l = true)
    (h : Dev.SameBut l a d) : Dev.SameBut l a (Dev.uhtRead d x1) := by
  refine .step ?_ hs h
  unfold Dev.uhtRead
  simp +decide (maxDischargeDepth := 30) only [Dev.SameBut.refl, Dev.modPath_keeps, Dev.SameBut.ite]

theorem Dev.setUnit_keeps (x1) (x2) (x3)
    (hs : Part.sub [.afsin, .banks, .clock, .ctxs, .dbg, .health, .jnl, .pat, .wisps, .reg Reg.ZN_AFS_CNT_LOST, .reg Reg.ZN_AFS_CNT_SENT, .reg Reg.ZN_HANG_CNT_ANV_ISO, .reg Reg.ZN_HANG_CNT_ANV_RESET, .reg Reg.ZN_HANG_CNT_BANKLOST, .reg Reg.ZN_HANG_CNT_BANK_ISO, .reg Reg.ZN_HANG_CNT_BANK_RESET, .reg Reg.ZN_STOP_LOST, .reg Reg.ZN_UHT_CNT_CLEAR, .reg Reg.ZN_UHT_CNT_ECLIPSE, .reg Reg.ZN_UHT_CNT_HAZE, .reg Reg.ZN_UHT_CNT_OVERCAST, .reg Reg.ZN_UHT_CNT_SET] l = true)
    (h : Dev.SameBut l a d) : Dev.SameBut l a (Dev.setUnit d x1 x2 x3) := by
  refine .step ?_ hs h
  unfold Dev.setUnit
  repeat' first
    | simp +decide (maxDischargeDepth := 30) only [Dev.SameBut.refl, Dev.startAnvilReset_keeps, Dev.hEvent_keeps, Dev.startBankReset_keeps, Dev.SameBut.ite]
    | split

theorem Dev.uhtSet_keeps
    (hs : Part.sub [.afsin, .banks, .clock, .ctxs, .dbg, .health, .jnl, .pat, .wisps, .reg Reg.ZN_AFS_CNT_LOST, .reg Reg.ZN_AFS_CNT_SENT, .reg Reg.ZN_HANG_CNT_ANV_ISO, .reg Reg.ZN_HANG_CNT_ANV_RESET, .reg Reg.ZN_HANG_CNT_BANKLOST, .reg Reg.ZN_HANG_CNT_BANK_ISO, .reg Reg.ZN_HANG_CNT_BANK_RESET, .reg Reg.ZN_STOP_LOST, .reg Reg.ZN_UHT_CNT_CLEAR, .reg Reg.ZN_UHT_CNT_ECLIPSE, .reg Reg.ZN_UHT_CNT_HAZE, .reg Reg.ZN_UHT_CNT_OVERCAST, .reg Reg.ZN_UHT_CNT_SET] l = true)
    (h : Dev.SameBut l a d) : Dev.SameBut l a (Dev.uhtSet d) := by
  refine .step ?_ hs h
  unfold Dev.uhtSet
  simp +decide (maxDischargeDepth := 30) only [Dev.SameBut.refl, Dev.setUnit_keeps, Dev.SameBut.ite]

end Sys2Proof.Machine
end

