-- ==== Sys2Proof/Laws/KeepsCheck.lean ====
section
/-! SUPPORT. What each operation of contexts, the horizon, descriptors, replays, verdicts, field tests and check words can change:
one lemma an operation, in the form in which it composes. -/

-- One proof after another: in one text with every other file, a task for each would take a thread for each.
set_option Elab.async false

namespace Sys2Proof.Machine

set_option linter.unusedSimpArgs false
variable {l : List Part} {a d : Dev}

theorem Dev.modEpoch_keeps (x1) (x2) (x3)
    (hs : Part.sub [.ctxs] l = true)
    (h : Dev.SameBut l a d) : Dev.SameBut l a (Dev.modEpoch d x1 x2 x3) := by
  refine .step ?_ hs h
  unfold Dev.modEpoch
  simp +decide (maxDischargeDepth := 30) only [Dev.SameBut.refl, Dev.modCtx_keeps, Dev.SameBut.ite]

theorem Dev.swSend_keeps (x1) (x2)
    (hs : Part.sub [.hz] l = true)
    (h : Dev.SameBut l a d) : Dev.SameBut l a (Dev.swSend d x1 x2) := by
  refine .step ?_ hs h
  unfold Dev.swSend
  simp +decide (maxDischargeDepth := 30) only [Dev.SameBut.refl, Dev.SameBut.ite, Dev.SameBut.upd, Dev.SameBut.upd', true_or, or_true, and_self]

theorem Dev.hzSend_keeps (x1) (x2)
    (hs : Part.sub [.hz] l = true)
    (h : Dev.SameBut l a d) : Dev.SameBut l a (Dev.hzSend d x1 x2) := by
  refine .step ?_ hs h
  unfold Dev.hzSend
  simp +decide (maxDischargeDepth := 30) only [Dev.SameBut.refl, Dev.swSend_keeps, Dev.SameBut.ite]

theorem Dev.queueToken_keeps (x1) (x2)
    (hs : Part.sub [.hz] l = true)
    (h : Dev.SameBut l a d) : Dev.SameBut l a (Dev.queueToken d x1 x2) := by
  refine .step ?_ hs h
  unfold Dev.queueToken
  simp +decide (maxDischargeDepth := 30) only [Dev.SameBut.refl, Dev.SameBut.ite, Dev.SameBut.upd, Dev.SameBut.upd', true_or, or_true, and_self]

theorem Dev.expose_keeps (x1) (x2) (x3) (x4) (x5)
    (hs : Part.sub [.ctxs] l = true)
    (h : Dev.SameBut l a d) : Dev.SameBut l a (Dev.expose d x1 x2 x3 x4 x5) := by
  refine .step ?_ hs h
  unfold Dev.expose
  simp +decide (maxDischargeDepth := 30) only [Dev.SameBut.refl, Dev.modCtx_keeps, Dev.SameBut.ite]

theorem Dev.emitExpose_keeps (x1)
    (hs : Part.sub [.afsin, .ctxs, .hz, .reg Reg.ZN_AFS_CNT_LOST, .reg Reg.ZN_AFS_CNT_SENT, .reg Reg.ZN_HZ_CNT_EXPOSE_OUT] l = true)
    (h : Dev.SameBut l a d) : Dev.SameBut l a (Dev.emitExpose d x1) := by
  refine .step ?_ hs h
  unfold Dev.emitExpose
  repeat' first
    | simp +decide (maxDischargeDepth := 30) only [Dev.SameBut.refl, Dev.modCtx_keeps, Dev.bumpZ_keeps, Dev.notice_keeps, Dev.hzSend_keeps, Dev.SameBut.ite, Dev.SameBut.foldl]
    | split
    | generalize hx : List.foldl _ _ _ = y
      have hy : Dev.SameBut [.afsin, .ctxs, .hz, .reg Reg.ZN_AFS_CNT_LOST, .reg Reg.ZN_AFS_CNT_SENT, .reg Reg.ZN_HZ_CNT_EXPOSE_OUT] d y := by
        rw [← hx]
        refine Dev.SameBut.foldl (fun _ _ => ?_) ?_ <;> repeat' first
          | simp +decide (maxDischargeDepth := 30) only [Dev.SameBut.refl, Dev.modCtx_keeps, Dev.bumpZ_keeps, Dev.notice_keeps, Dev.hzSend_keeps, Dev.SameBut.ite, Dev.SameBut.foldl]
      clear hx
      simp +decide (maxDischargeDepth := 30) only [hy, Dev.SameBut.refl, Dev.modCtx_keeps, Dev.bumpZ_keeps, Dev.notice_keeps, Dev.hzSend_keeps, Dev.SameBut.ite, Dev.SameBut.foldl]

theorem Dev.exposeStep_keeps (x1) (x2) (x3)
    (hs : Part.sub [.ctxs] l = true)
    (h : Dev.SameBut l a d) : Dev.SameBut l a (Dev.exposeStep d x1 x2 x3) := by
  refine .step ?_ hs h
  unfold Dev.exposeStep
  repeat' first
    | simp +decide (maxDischargeDepth := 30) only [Dev.SameBut.refl, Dev.expose_keeps, Dev.SameBut.ite]
    | split

theorem Dev.retractRaw_keeps (x1) (x2) (x3) (x4)
    (hs : Part.sub [.ctxs, .hz, .jnl] l = true)
    (h : Dev.SameBut l a d) : Dev.SameBut l a (Dev.retractRaw d x1 x2 x3 x4) := by
  refine .step ?_ hs h
  unfold Dev.retractRaw
  repeat' first
    | simp +decide (maxDischargeDepth := 30) only [Dev.SameBut.refl, Dev.modCtx_keeps, Dev.zEvent_keeps, Dev.queueToken_keeps, Dev.expose_keeps, Dev.SameBut.ite, Dev.SameBut.upd, Dev.SameBut.upd', true_or, or_true, and_self]
    | split

theorem Dev.missDumps_keeps (x1)
    (hs : Part.sub [.dbg] l = true)
    (h : Dev.SameBut l a d) : Dev.SameBut l a (Dev.missDumps d x1) := by
  refine .step ?_ hs h
  unfold Dev.missDumps
  simp +decide (maxDischargeDepth := 30) only [Dev.SameBut.refl, Dev.SameBut.ite, Dev.SameBut.upd, Dev.SameBut.upd', true_or, or_true, and_self]

theorem Dev.failCtx_keeps (x1) (x2)
    (hs : Part.sub [.ctxs, .dbg, .hz, .jnl] l = true)
    (h : Dev.SameBut l a d) : Dev.SameBut l a (Dev.failCtx d x1 x2) := by
  refine .step ?_ hs h
  unfold Dev.failCtx
  repeat' first
    | simp +decide (maxDischargeDepth := 30) only [Dev.SameBut.refl, Dev.zEvent_keeps, Dev.modCtx_keeps, Dev.missDumps_keeps, Dev.retractRaw_keeps, Dev.SameBut.ite]
    | split

theorem Dev.retract_keeps (x1) (x2) (x3)
    (hs : Part.sub [.ctxs, .dbg, .hz, .jnl] l = true)
    (h : Dev.SameBut l a d) : Dev.SameBut l a (Dev.retract d x1 x2 x3) := by
  refine .step ?_ hs h
  unfold Dev.retract
  simp +decide (maxDischargeDepth := 30) only [Dev.SameBut.refl, Dev.modCtx_keeps, Dev.retractRaw_keeps, Dev.failCtx_keeps, Dev.SameBut.ite]

theorem Dev.makeSuspect_keeps (x1) (x2) (x3) (x4) (x5) (x6) (x7) (x8)
    (hs : Part.sub [.ctxs, .dbg, .hz, .jnl] l = true)
    (h : Dev.SameBut l a d) : Dev.SameBut l a (Dev.makeSuspect d x1 x2 x3 x4 x5 x6 x7 x8) := by
  refine .step ?_ hs h
  unfold Dev.makeSuspect
  repeat' first
    | simp +decide (maxDischargeDepth := 30) only [Dev.SameBut.refl, Dev.modEpoch_keeps, Dev.retract_keeps, Dev.SameBut.ite, Dev.SameBut.upd, Dev.SameBut.upd', true_or, or_true, and_self]
    | split

theorem Dev.uncount_keeps (x1)
    (hs : Part.sub [.ctxs] l = true)
    (h : Dev.SameBut l a d) : Dev.SameBut l a (Dev.uncount d x1) := by
  refine .step ?_ hs h
  unfold Dev.uncount
  repeat' first
    | simp +decide (maxDischargeDepth := 30) only [Dev.SameBut.refl, Dev.modEpoch_keeps, Dev.SameBut.ite]
    | split

theorem Dev.discard_keeps (x1) (x2) (x3)
    (hs : Part.sub [.banks, .ctxs, .wisps] l = true)
    (h : Dev.SameBut l a d) : Dev.SameBut l a (Dev.discard d x1 x2 x3) := by
  refine .step ?_ hs h
  unfold Dev.discard
  repeat' first
    | simp +decide (maxDischargeDepth := 30) only [Dev.SameBut.refl, Dev.modWisp_keeps, Dev.modBank_keeps, Dev.uncount_keeps, Dev.SameBut.ite, Dev.SameBut.foldl]
    | split
    | refine Dev.SameBut.foldl (fun _ _ => ?_) ?_

theorem Dev.writeOwner_keeps (x1) (x2) (x3) (x4)
    (hs : Part.sub [.banks, .reg Reg.ZN_STOP_LOST] l = true)
    (h : Dev.SameBut l a d) : Dev.SameBut l a (Dev.writeOwner d x1 x2 x3 x4) := by
  refine .step ?_ hs h
  unfold Dev.writeOwner
  simp +decide (maxDischargeDepth := 30) only [Dev.SameBut.refl, Dev.bankEvent_keeps, Dev.modBank_keeps, Dev.SameBut.ite]

theorem Dev.applyOwner_keeps (x1) (x2)
    (hs : Part.sub [.banks, .ctxs, .dbg, .wisps] l = true)
    (h : Dev.SameBut l a d) : Dev.SameBut l a (Dev.applyOwner d x1 x2) := by
  refine .step ?_ hs h
  unfold Dev.applyOwner
  repeat' first
    | simp +decide (maxDischargeDepth := 30) only [Dev.SameBut.refl, Dev.modBank_keeps, Dev.discard_keeps, Dev.dropBase_keeps, Dev.SameBut.ite]
    | split

theorem Dev.applyIdleOwners_keeps (x1)
    (hs : Part.sub [.banks, .ctxs, .dbg, .wisps] l = true)
    (h : Dev.SameBut l a d) : Dev.SameBut l a (Dev.applyIdleOwners d x1) := by
  refine .step ?_ hs h
  unfold Dev.applyIdleOwners
  repeat' first
    | simp +decide (maxDischargeDepth := 30) only [Dev.SameBut.refl, Dev.applyOwner_keeps, Dev.SameBut.ite, Dev.SameBut.foldl]
    | split
    | refine Dev.SameBut.foldl (fun _ _ => ?_) ?_

theorem Dev.ctxResult_keeps (x1) (x2)
    (hs : Part.sub [.ctxs] l = true)
    (h : Dev.SameBut l a d) : Dev.SameBut l a (Dev.ctxResult d x1 x2) := by
  refine .step ?_ hs h
  unfold Dev.ctxResult
  simp +decide (maxDischargeDepth := 30) only [Dev.SameBut.refl, Dev.modCtx_keeps, Dev.SameBut.ite]

theorem Dev.createNow_keeps (x1) (x2)
    (hs : Part.sub [.ctxs] l = true)
    (h : Dev.SameBut l a d) : Dev.SameBut l a (Dev.createNow d x1 x2) := by
  refine .step ?_ hs h
  unfold Dev.createNow
  simp +decide (maxDischargeDepth := 30) only [Dev.SameBut.refl, Dev.ctxResult_keeps, Dev.modCtx_keeps, Dev.SameBut.ite]

theorem Dev.create_keeps
    (hs : Part.sub [.clock, .ctxs] l = true)
    (h : Dev.SameBut l a d) : Dev.SameBut l a (Dev.create d) := by
  refine .step ?_ hs h
  unfold Dev.create
  simp +decide (maxDischargeDepth := 30) only [Dev.SameBut.refl, Dev.ctxResult_keeps, Dev.createNow_keeps, Dev.SameBut.ite, Dev.SameBut.upd, Dev.SameBut.upd', true_or, or_true, and_self]

theorem Dev.setLevelNow_keeps (x1) (x2)
    (hs : Part.sub [.ctxs] l = true)
    (h : Dev.SameBut l a d) : Dev.SameBut l a (Dev.setLevelNow d x1 x2) := by
  refine .step ?_ hs h
  unfold Dev.setLevelNow
  repeat' first
    | simp +decide (maxDischargeDepth := 30) only [Dev.SameBut.refl, Dev.ctxResult_keeps, Dev.modCtx_keeps, Dev.SameBut.ite]
    | split

theorem Dev.setLevel_keeps
    (hs : Part.sub [.clock, .ctxs] l = true)
    (h : Dev.SameBut l a d) : Dev.SameBut l a (Dev.setLevel d) := by
  refine .step ?_ hs h
  unfold Dev.setLevel
  simp +decide (maxDischargeDepth := 30) only [Dev.SameBut.refl, Dev.ctxResult_keeps, Dev.setLevelNow_keeps, Dev.SameBut.ite, Dev.SameBut.upd, Dev.SameBut.upd', true_or, or_true, and_self]

theorem Dev.teardownNow_keeps (x1)
    (hs : Part.sub [.ctxs] l = true)
    (h : Dev.SameBut l a d) : Dev.SameBut l a (Dev.teardownNow d x1) := by
  refine .step ?_ hs h
  unfold Dev.teardownNow
  repeat' first
    | simp +decide (maxDischargeDepth := 30) only [Dev.SameBut.refl, Dev.ctxResult_keeps, Dev.modCtx_keeps, Dev.SameBut.ite]
    | split

theorem Dev.teardown_keeps
    (hs : Part.sub [.clock, .ctxs] l = true)
    (h : Dev.SameBut l a d) : Dev.SameBut l a (Dev.teardown d) := by
  refine .step ?_ hs h
  unfold Dev.teardown
  simp +decide (maxDischargeDepth := 30) only [Dev.SameBut.refl, Dev.ctxResult_keeps, Dev.teardownNow_keeps, Dev.SameBut.ite, Dev.SameBut.upd, Dev.SameBut.upd', true_or, or_true, and_self]

theorem Dev.closeCtx_keeps (x1)
    (hs : Part.sub [.banks, .ctxs, .dbg, .hz, .jnl, .wisps] l = true)
    (h : Dev.SameBut l a d) : Dev.SameBut l a (Dev.closeCtx d x1) := by
  refine .step ?_ hs h
  unfold Dev.closeCtx
  extract_lets owned d0 pending d1 hz2 d2 d3
  have h0 : Dev.SameBut [.banks, .ctxs, .dbg, .hz, .jnl, .wisps] d d0 := by
    refine Dev.SameBut.foldl (fun _ _ => ?_) (.refl _ _)
    split
    · exact Dev.dropBase_keeps _ (Eq.refl true) (.refl _ _)
    · exact .refl _ _
  have h1 : Dev.SameBut [.banks, .ctxs, .dbg, .hz, .jnl, .wisps] d d1 := Dev.SameBut.foldl (fun _ _ => Dev.discard_keeps _ _ _ (Eq.refl true) (.refl _ _)) h0
  have h2 : Dev.SameBut [.banks, .ctxs, .dbg, .hz, .jnl, .wisps] d d2 := by
    simp only [d2]
    simp +decide (maxDischargeDepth := 30) only [Dev.SameBut.upd, true_or, or_true, and_self, h1]
  have h3 : Dev.SameBut [.banks, .ctxs, .dbg, .hz, .jnl, .wisps] d d3 := by
    simp only [d3]
    split
    · exact Dev.retractRaw_keeps _ _ _ _ (Eq.refl true) h2
    · exact h2
  exact Dev.missDumps_keeps _ (Eq.refl true) (Dev.modCtx_keeps _ _ (Eq.refl true) h3)

theorem Dev.applyLevel_keeps (x1) (x2) (x3)
    (hs : Part.sub [.ctxs] l = true)
    (h : Dev.SameBut l a d) : Dev.SameBut l a (Dev.applyLevel d x1 x2 x3) := by
  refine .step ?_ hs h
  unfold Dev.applyLevel
  simp +decide (maxDischargeDepth := 30) only [Dev.SameBut.refl, Dev.modCtx_keeps, Dev.SameBut.ite]

theorem Dev.tryCap_keeps (x1)
    (hs : Part.sub [.clock, .ctxs] l = true)
    (h : Dev.SameBut l a d) : Dev.SameBut l a (Dev.tryCap d x1) := by
  refine .step ?_ hs h
  unfold Dev.tryCap
  simp +decide (maxDischargeDepth := 30) only [Dev.SameBut.refl, Dev.arm_keeps, Dev.modCtx_keeps, Dev.SameBut.ite]

theorem Dev.shadowChecks_keeps (x1) (x2) (x3)
    (hs : Part.sub [.ctxs, .hz] l = true)
    (h : Dev.SameBut l a d) : Dev.SameBut l a (Dev.shadowChecks d x1 x2 x3) := by
  refine .step ?_ hs h
  unfold Dev.shadowChecks
  repeat' first
    | simp +decide (maxDischargeDepth := 30) only [Dev.SameBut.refl, Dev.modEpoch_keeps, Dev.SameBut.ite, Dev.SameBut.foldl, Dev.SameBut.upd, Dev.SameBut.upd', true_or, or_true, and_self, Dev.draw]
    | split
    | refine Dev.SameBut.foldl (fun _ _ => ?_) ?_

theorem Dev.readyRemaps_keeps (x1) (x2)
    (hs : Part.sub [.banks] l = true)
    (h : Dev.SameBut l a d) : Dev.SameBut l a (Dev.readyRemaps d x1 x2) := by
  refine .step ?_ hs h
  unfold Dev.readyRemaps
  simp +decide (maxDischargeDepth := 30) only [Dev.SameBut.refl, Dev.modBank_keeps, Dev.SameBut.ite]

theorem Dev.dumpBoundary_keeps (x1) (x2)
    (hs : Part.sub [.dbg] l = true)
    (h : Dev.SameBut l a d) : Dev.SameBut l a (Dev.dumpBoundary d x1 x2) := by
  refine .step ?_ hs h
  unfold Dev.dumpBoundary
  simp +decide (maxDischargeDepth := 30) only [Dev.SameBut.refl, Dev.SameBut.ite, Dev.SameBut.upd, Dev.SameBut.upd', true_or, or_true, and_self]

theorem Dev.boundary_keeps (x1) (x2) (x3)
    (hs : Part.sub [.banks, .clock, .ctxs, .dbg, .hz, .jnl] l = true)
    (h : Dev.SameBut l a d) : Dev.SameBut l a (Dev.boundary d x1 x2 x3) := by
  refine .step ?_ hs h
  unfold Dev.boundary
  repeat' first
    | simp +decide (maxDischargeDepth := 30) only [Dev.SameBut.refl, Dev.modCtx_keeps, Dev.tryCap_keeps, Dev.shadowChecks_keeps, Dev.modEpoch_keeps, Dev.dumpBoundary_keeps, Dev.failCtx_keeps, Dev.readyRemaps_keeps, Dev.SameBut.ite, Dev.SameBut.foldl, Dev.SameBut.upd, Dev.SameBut.upd', true_or, or_true, and_self]
    | split
    | generalize hx : List.foldl _ _ _ = y
      have hy : Dev.SameBut [.banks, .clock, .ctxs, .dbg, .hz, .jnl] d y := by
        rw [← hx]
        refine Dev.SameBut.foldl (fun _ _ => ?_) ?_ <;> repeat' first
          | simp +decide (maxDischargeDepth := 30) only [Dev.SameBut.refl, Dev.modCtx_keeps, Dev.tryCap_keeps, Dev.shadowChecks_keeps, Dev.modEpoch_keeps, Dev.dumpBoundary_keeps, Dev.failCtx_keeps, Dev.readyRemaps_keeps, Dev.SameBut.ite, Dev.SameBut.foldl, Dev.SameBut.upd, Dev.SameBut.upd', true_or, or_true, and_self]
          | split
      clear hx
      simp +decide (maxDischargeDepth := 30) only [hy, Dev.SameBut.refl, Dev.modCtx_keeps, Dev.tryCap_keeps, Dev.shadowChecks_keeps, Dev.modEpoch_keeps, Dev.dumpBoundary_keeps, Dev.failCtx_keeps, Dev.readyRemaps_keeps, Dev.SameBut.ite, Dev.SameBut.foldl, Dev.SameBut.upd, Dev.SameBut.upd', true_or, or_true, and_self]

theorem Dev.lostBoundary_keeps (x1)
    (hs : Part.sub [.banks, .clock, .ctxs, .dbg, .hz, .jnl] l = true)
    (h : Dev.SameBut l a d) : Dev.SameBut l a (Dev.lostBoundary d x1) := by
  refine .step ?_ hs h
  unfold Dev.lostBoundary
  repeat' first
    | simp +decide (maxDischargeDepth := 30) only [Dev.SameBut.refl, Dev.boundary_keeps, Dev.SameBut.ite]
    | split

theorem Dev.endStep_keeps (x1) (x2) (x3) (x4) (x5)
    (hs : Part.sub [.banks, .clock, .ctxs, .dbg, .hz, .jnl, .port, .wisps, .reg Reg.ZN_CFG_CNT_REJECT, .reg Reg.ZN_STOP_LOST] l = true)
    (h : Dev.SameBut l a d) : Dev.SameBut l a (Dev.endStep d x1 x2 x3 x4 x5) := by
  refine .step ?_ hs h
  unfold Dev.endStep
  repeat' first
    | simp +decide (maxDischargeDepth := 30) only [Dev.SameBut.refl, Dev.satZ_keeps, Dev.bumpZ_keeps, Dev.regReject_keeps, Dev.modCtx_keeps, Dev.boundary_keeps, Dev.applyOwner_keeps, Dev.SameBut.ite, Dev.SameBut.foldl]
    | split
    | refine Dev.SameBut.foldl (fun _ _ => ?_) ?_

theorem Dev.finishDesc_keeps (x1) (x2)
    (hs : Part.sub [.banks, .reg Reg.ZN_STOP_LOST] l = true)
    (h : Dev.SameBut l a d) : Dev.SameBut l a (Dev.finishDesc d x1 x2) := by
  refine .step ?_ hs h
  unfold Dev.finishDesc
  simp +decide (maxDischargeDepth := 30) only [Dev.SameBut.refl, Dev.bankEvent_keeps, Dev.modBank_keeps, Dev.SameBut.ite]

theorem Dev.queueDesc_keeps (x1) (x2) (x3)
    (hs : Part.sub [.banks, .reg Reg.ZN_STOP_LOST] l = true)
    (h : Dev.SameBut l a d) : Dev.SameBut l a (Dev.queueDesc d x1 x2 x3) := by
  refine .step ?_ hs h
  unfold Dev.queueDesc
  simp +decide (maxDischargeDepth := 30) only [Dev.SameBut.refl, Dev.modBank_keeps, Dev.finishDesc_keeps, Dev.SameBut.ite]

theorem Dev.acceptCand_keeps (x1) (x2)
    (hs : Part.sub [.banks, .reg Reg.ZN_STOP_LOST] l = true)
    (h : Dev.SameBut l a d) : Dev.SameBut l a (Dev.acceptCand d x1 x2) := by
  refine .step ?_ hs h
  unfold Dev.acceptCand
  simp +decide (maxDischargeDepth := 30) only [Dev.SameBut.refl, Dev.queueDesc_keeps, Dev.SameBut.ite]

theorem Dev.freePending_keeps (x1) (x2)
    (hs : Part.sub [.wisps] l = true)
    (h : Dev.SameBut l a d) : Dev.SameBut l a (Dev.freePending d x1 x2) := by
  refine .step ?_ hs h
  unfold Dev.freePending
  simp +decide (maxDischargeDepth := 30) only [Dev.SameBut.refl, Dev.modWisp_keeps, Dev.SameBut.ite]

theorem Dev.submit_keeps (x1) (x2)
    (hs : Part.sub [.banks, .reg Reg.ZN_STOP_LOST] l = true)
    (h : Dev.SameBut l a d) : Dev.SameBut l a (Dev.submit d x1 x2) := by
  refine .step ?_ hs h
  unfold Dev.submit
  repeat' first
    | simp +decide (maxDischargeDepth := 30) only [Dev.SameBut.refl, Dev.satZ_keeps, Dev.modBank_keeps, Dev.acceptCand_keeps, Dev.SameBut.ite]
    | split

theorem Dev.zSubmit_keeps (x1)
    (hs : Part.sub [.banks, .hz, .reg Reg.ZN_STOP_LOST] l = true)
    (h : Dev.SameBut l a d) : Dev.SameBut l a (Dev.zSubmit d x1) := by
  refine .step ?_ hs h
  unfold Dev.zSubmit
  simp +decide (maxDischargeDepth := 30) only [Dev.SameBut.refl, Dev.queueDesc_keeps, Dev.SameBut.ite, Dev.SameBut.upd, Dev.SameBut.upd', true_or, or_true, and_self]

theorem Dev.dropDesc_keeps (x1) (x2)
    (hs : Part.sub [.banks] l = true)
    (h : Dev.SameBut l a d) : Dev.SameBut l a (Dev.dropDesc d x1 x2) := by
  refine .step ?_ hs h
  unfold Dev.dropDesc
  simp +decide (maxDischargeDepth := 30) only [Dev.SameBut.refl, Dev.modBank_keeps, Dev.SameBut.ite]

theorem Dev.keepDesc_keeps (x1) (x2)
    (hs : Part.sub [.banks] l = true)
    (h : Dev.SameBut l a d) : Dev.SameBut l a (Dev.keepDesc d x1 x2) := by
  refine .step ?_ hs h
  unfold Dev.keepDesc
  simp +decide (maxDischargeDepth := 30) only [Dev.SameBut.refl, Dev.modBank_keeps, Dev.SameBut.ite]

theorem Dev.decided_keeps (x1) (x2) (x3)
    (hs : Part.sub [.banks, .reg Reg.ZN_STOP_LOST] l = true)
    (h : Dev.SameBut l a d) : Dev.SameBut l a (Dev.decided d x1 x2 x3) := by
  refine .step ?_ hs h
  unfold Dev.decided
  simp +decide (maxDischargeDepth := 30) only [Dev.SameBut.refl, Dev.finishDesc_keeps, Dev.dropDesc_keeps, Dev.SameBut.ite]

theorem Dev.operandFailure_keeps (x1) (x2) (x3) (x4) (x5) (x6) (x7) (x8)
    (hs : Part.sub [.banks, .reg Reg.ZN_STOP_LOST] l = true)
    (h : Dev.SameBut l a d) : Dev.SameBut l a (Dev.operandFailure d x1 x2 x3 x4 x5 x6 x7 x8) := by
  refine .step ?_ hs h
  unfold Dev.operandFailure
  simp +decide (maxDischargeDepth := 30) only [Dev.SameBut.refl, Dev.present_keeps, Dev.SameBut.ite]

theorem Dev.afterRead_keeps (x1) (x2)
    (hs : Part.sub [.banks, .reg Reg.ZN_STOP_LOST] l = true)
    (h : Dev.SameBut l a d) : Dev.SameBut l a (Dev.afterRead d x1 x2) := by
  refine .step ?_ hs h
  unfold Dev.afterRead
  repeat' first
    | simp +decide (maxDischargeDepth := 30) only [Dev.SameBut.refl, Dev.decided_keeps, Dev.keepDesc_keeps, Dev.SameBut.ite]
    | split

theorem Dev.fetchStep_keeps (x1) (x2) (x3)
    (hs : Part.sub [.banks, .reg Reg.ZN_STOP_LOST] l = true)
    (h : Dev.SameBut l a d) : Dev.SameBut l a (Dev.fetchStep d x1 x2 x3) := by
  refine .step ?_ hs h
  unfold Dev.fetchStep
  repeat' first
    | simp +decide (maxDischargeDepth := 30) only [Dev.SameBut.refl, Dev.afterRead_keeps, Dev.decided_keeps, Dev.operandFailure_keeps, Dev.SameBut.ite]
    | split

theorem Dev.runChan_keeps (x1) (x2) (x3) (x4)
    (hs : Part.sub [.banks, .reg Reg.ZN_STOP_LOST] l = true)
    (h : Dev.SameBut l a d) : Dev.SameBut l a (Dev.runChan d x1 x2 x3 x4) := by
  refine Dev.SameBut.step (k := [.banks, .reg Reg.ZN_STOP_LOST]) ?_ hs h
  have key : ∀ n z e, Dev.SameBut [.banks, .reg Reg.ZN_STOP_LOST] d e → Dev.SameBut [.banks, .reg Reg.ZN_STOP_LOST] d (e.runChan x1 x2 n z) := by
    intro n
    induction n with
    | zero => exact fun z e he => he
    | succ n ih =>
      intro z e he
      unfold Dev.runChan
      split
      · exact he
      dsimp only
      split
      · exact he
      split
      · exact ih _ _ (by simp +decide (maxDischargeDepth := 30) only [Dev.SameBut.refl, Dev.SameBut.ite, Dev.SameBut.upd, Dev.SameBut.upd', true_or, or_true, and_self, he, Dev.finishDesc_keeps, Dev.dropDesc_keeps, Dev.modBank_keeps])
      · simp +decide (maxDischargeDepth := 30) only [Dev.SameBut.refl, Dev.SameBut.ite, Dev.SameBut.upd, Dev.SameBut.upd', true_or, or_true, and_self, he, Dev.keepDesc_keeps, Dev.modBank_keeps]
  exact key _ _ d (.refl _ _)

theorem Dev.parkChan_keeps (x1) (x2)
    (hs : Part.sub [.banks] l = true)
    (h : Dev.SameBut l a d) : Dev.SameBut l a (Dev.parkChan d x1 x2) := by
  refine .step ?_ hs h
  unfold Dev.parkChan
  simp +decide (maxDischargeDepth := 30) only [Dev.SameBut.refl, Dev.modBank_keeps, Dev.SameBut.ite]

theorem Dev.modSuspect_keeps (x1) (x2) (x3) (x4)
    (hs : Part.sub [.ctxs] l = true)
    (h : Dev.SameBut l a d) : Dev.SameBut l a (Dev.modSuspect d x1 x2 x3 x4) := by
  refine .step ?_ hs h
  unfold Dev.modSuspect
  simp +decide (maxDischargeDepth := 30) only [Dev.SameBut.refl, Dev.modEpoch_keeps, Dev.SameBut.ite]

theorem Dev.clearSuspect_keeps (x1) (x2) (x3)
    (hs : Part.sub [.ctxs] l = true)
    (h : Dev.SameBut l a d) : Dev.SameBut l a (Dev.clearSuspect d x1 x2 x3) := by
  refine .step ?_ hs h
  unfold Dev.clearSuspect
  simp +decide (maxDischargeDepth := 30) only [Dev.SameBut.refl, Dev.modEpoch_keeps, Dev.SameBut.ite]

theorem Dev.hzEvent_keeps (x1) (x2) (x3) (x4) (x5) (x6)
    (hs : Part.sub [.jnl] l = true)
    (h : Dev.SameBut l a d) : Dev.SameBut l a (Dev.hzEvent d x1 x2 x3 x4 x5 x6) := by
  refine .step ?_ hs h
  unfold Dev.hzEvent
  simp +decide (maxDischargeDepth := 30) only [Dev.SameBut.refl, Dev.zEvent_keeps, Dev.SameBut.ite]

theorem Dev.chargeRun_keeps (x1) (x2) (x3)
    (hs : Part.sub [.afsin, .banks, .clock, .ctxs, .health, .jnl, .pat, .wisps, .reg Reg.ZN_AFS_CNT_LOST, .reg Reg.ZN_AFS_CNT_SENT, .reg Reg.ZN_HANG_CNT_ANV_ISO, .reg Reg.ZN_HANG_CNT_BANK_ISO, .reg Reg.ZN_UHT_CNT_CLEAR, .reg Reg.ZN_UHT_CNT_ECLIPSE, .reg Reg.ZN_UHT_CNT_HAZE, .reg Reg.ZN_UHT_CNT_OVERCAST, .reg Reg.ZN_UHT_CNT_SET] l = true)
    (h : Dev.SameBut l a d) : Dev.SameBut l a (Dev.chargeRun d x1 x2 x3) := by
  refine .step ?_ hs h
  unfold Dev.chargeRun
  repeat' first
    | simp +decide (maxDischargeDepth := 30) only [Dev.SameBut.refl, Dev.hEvent_keeps, Dev.SameBut.ite]
    | split

theorem Dev.split_keeps (x1) (x2) (x3) (x4) (x5)
    (hs : Part.sub [.afsin, .banks, .clock, .ctxs, .health, .jnl, .pat, .wisps, .reg Reg.ZN_AFS_CNT_LOST, .reg Reg.ZN_AFS_CNT_SENT, .reg Reg.ZN_HANG_CNT_ANV_ISO, .reg Reg.ZN_HANG_CNT_BANK_ISO, .reg Reg.ZN_UHT_CNT_CLEAR, .reg Reg.ZN_UHT_CNT_ECLIPSE, .reg Reg.ZN_UHT_CNT_HAZE, .reg Reg.ZN_UHT_CNT_OVERCAST, .reg Reg.ZN_UHT_CNT_SET] l = true)
    (h : Dev.SameBut l a d) : Dev.SameBut l a (Dev.split d x1 x2 x3 x4 x5) := by
  refine .step ?_ hs h
  unfold Dev.split
  simp +decide (maxDischargeDepth := 30) only [Dev.SameBut.refl, Dev.hzEvent_keeps, Dev.chargeRun_keeps, Dev.SameBut.ite]

theorem Dev.provenWrong_keeps (x1) (x2) (x3)
    (hs : Part.sub [.afsin, .banks, .clock, .ctxs, .health, .jnl, .pat, .wisps, .reg Reg.ZN_AFS_CNT_LOST, .reg Reg.ZN_AFS_CNT_SENT, .reg Reg.ZN_HANG_CNT_ANV_ISO, .reg Reg.ZN_HANG_CNT_BANK_ISO, .reg Reg.ZN_UHT_CNT_CLEAR, .reg Reg.ZN_UHT_CNT_ECLIPSE, .reg Reg.ZN_UHT_CNT_HAZE, .reg Reg.ZN_UHT_CNT_OVERCAST, .reg Reg.ZN_UHT_CNT_SET] l = true)
    (h : Dev.SameBut l a d) : Dev.SameBut l a (Dev.provenWrong d x1 x2 x3) := by
  refine .step ?_ hs h
  unfold Dev.provenWrong
  simp +decide (maxDischargeDepth := 30) only [Dev.SameBut.refl, Dev.hzEvent_keeps, Dev.chargeRun_keeps, Dev.SameBut.ite]

theorem Dev.retractStep_keeps (x1) (x2)
    (hs : Part.sub [.ctxs, .dbg, .hz, .jnl] l = true)
    (h : Dev.SameBut l a d) : Dev.SameBut l a (Dev.retractStep d x1 x2) := by
  refine .step ?_ hs h
  unfold Dev.retractStep
  simp +decide (maxDischargeDepth := 30) only [Dev.SameBut.refl, Dev.retract_keeps, Dev.SameBut.ite]

theorem Dev.submitSig_keeps (x1) (x2) (x3) (x4) (x5) (x6) (x7) (x8) (x9) (x10)
    (hs : Part.sub [.banks, .hz, .reg Reg.ZN_STOP_LOST] l = true)
    (h : Dev.SameBut l a d) : Dev.SameBut l a (Dev.submitSig d x1 x2 x3 x4 x5 x6 x7 x8 x9 x10).1 := by
  refine .step ?_ hs h
  unfold Dev.submitSig
  simp +decide (maxDischargeDepth := 30) only [Dev.SameBut.refl, Dev.zSubmit_keeps, Dev.SameBut.ite, Dev.SameBut.upd, Dev.SameBut.upd', true_or, or_true, and_self, Dev.nextTag]

theorem Dev.compare_keeps (x1) (x2) (x3) (x4) (x5)
    (hs : Part.sub [.banks, .ctxs, .hz, .jnl, .reg Reg.ZN_STOP_LOST] l = true)
    (h : Dev.SameBut l a d) : Dev.SameBut l a (Dev.compare d x1 x2 x3 x4 x5) := by
  refine .step ?_ hs h
  unfold Dev.compare
  split
  · dsimp only
    refine Dev.modSuspect_keeps _ _ _ _ (Eq.refl true) (Dev.SameBut.foldl_fst (fun _ _ => ?_) ?_)
    · exact Dev.submitSig_keeps _ _ _ _ _ _ _ _ _ _ (Eq.refl true) (.refl _ _)
    · exact Dev.SameBut.foldl (fun _ _ => Dev.zEvent_keeps _ _ _ _ _ _ _ (Eq.refl true) (.refl _ _)) (.refl _ _)
  · exact .refl _ _

theorem Dev.postReplay_keeps (x1) (x2) (x3) (x4) (x5) (x6) (x7) (x8)
    (hs : Part.sub [.banks, .ctxs, .hz] l = true)
    (h : Dev.SameBut l a d) : Dev.SameBut l a (Dev.postReplay d x1 x2 x3 x4 x5 x6 x7 x8) := by
  refine .step ?_ hs h
  unfold Dev.postReplay
  repeat' first
    | simp +decide (maxDischargeDepth := 30) only [Dev.SameBut.refl, Dev.modBank_keeps, Dev.modSuspect_keeps, Dev.SameBut.ite, Dev.SameBut.upd, Dev.SameBut.upd', true_or, or_true, and_self]
    | split

theorem Dev.seekAny_keeps (x1) (x2) (x3) (x4) (x5)
    (hs : Part.sub [.banks, .ctxs, .hz] l = true)
    (h : Dev.SameBut l a d) : Dev.SameBut l a (Dev.seekAny d x1 x2 x3 x4 x5) := by
  refine .step ?_ hs h
  unfold Dev.seekAny
  repeat' first
    | simp +decide (maxDischargeDepth := 30) only [Dev.SameBut.refl, Dev.postReplay_keeps, Dev.SameBut.ite]
    | split

theorem Dev.seekReplay_keeps (x1) (x2) (x3) (x4)
    (hs : Part.sub [.banks, .ctxs, .hz] l = true)
    (h : Dev.SameBut l a d) : Dev.SameBut l a (Dev.seekReplay d x1 x2 x3 x4) := by
  refine .step ?_ hs h
  unfold Dev.seekReplay
  repeat' first
    | simp +decide (maxDischargeDepth := 30) only [Dev.SameBut.refl, Dev.seekAny_keeps, Dev.postReplay_keeps, Dev.SameBut.ite]
    | split

theorem Dev.nextPair_keeps (x1) (x2) (x3)
    (hs : Part.sub [.ctxs] l = true)
    (h : Dev.SameBut l a d) : Dev.SameBut l a (Dev.nextPair d x1 x2 x3) := by
  refine .step ?_ hs h
  unfold Dev.nextPair
  repeat' first
    | simp +decide (maxDischargeDepth := 30) only [Dev.SameBut.refl, Dev.clearSuspect_keeps, Dev.modSuspect_keeps, Dev.SameBut.ite]
    | split

theorem Dev.raiseSuspect_keeps (x1) (x2) (x3)
    (hs : Part.sub [.ctxs, .dbg, .hz, .jnl] l = true)
    (h : Dev.SameBut l a d) : Dev.SameBut l a (Dev.raiseSuspect d x1 x2 x3) := by
  refine .step ?_ hs h
  unfold Dev.raiseSuspect
  repeat' first
    | simp +decide (maxDischargeDepth := 30) only [Dev.SameBut.refl, Dev.clearSuspect_keeps, Dev.retract_keeps, Dev.retractStep_keeps, Dev.hzEvent_keeps, Dev.nextPair_keeps, Dev.modSuspect_keeps, Dev.SameBut.ite]
    | split

theorem Dev.startCrossCheck_keeps (x1) (x2) (x3)
    (hs : Part.sub [.banks, .ctxs, .hz, .reg Reg.ZN_STOP_LOST] l = true)
    (h : Dev.SameBut l a d) : Dev.SameBut l a (Dev.startCrossCheck d x1 x2 x3) := by
  refine .step ?_ hs h
  unfold Dev.startCrossCheck
  repeat' first
    | simp +decide (maxDischargeDepth := 30) only [Dev.SameBut.refl, Dev.modSuspect_keeps, Dev.zSubmit_keeps, Dev.clearSuspect_keeps, Dev.SameBut.ite, Dev.SameBut.upd, Dev.SameBut.upd', true_or, or_true, and_self, Dev.nextTag]
    | split

theorem Dev.seek_keeps (x1) (x2) (x3) (x4)
    (hs : Part.sub [.ctxs] l = true)
    (h : Dev.SameBut l a d) : Dev.SameBut l a (Dev.seek d x1 x2 x3 x4) := by
  refine .step ?_ hs h
  unfold Dev.seek
  simp +decide (maxDischargeDepth := 30) only [Dev.SameBut.refl, Dev.modSuspect_keeps, Dev.SameBut.ite]

theorem Dev.resolve_keeps (x1) (x2) (x3) (x4)
    (hs : Part.sub [.afsin, .banks, .clock, .ctxs, .dbg, .health, .hz, .jnl, .pat, .wisps, .reg Reg.ZN_AFS_CNT_LOST, .reg Reg.ZN_AFS_CNT_SENT, .reg Reg.ZN_HANG_CNT_ANV_ISO, .reg Reg.ZN_HANG_CNT_BANK_ISO, .reg Reg.ZN_STOP_LOST, .reg Reg.ZN_UHT_CNT_CLEAR, .reg Reg.ZN_UHT_CNT_ECLIPSE, .reg Reg.ZN_UHT_CNT_HAZE, .reg Reg.ZN_UHT_CNT_OVERCAST, .reg Reg.ZN_UHT_CNT_SET] l = true)
    (h : Dev.SameBut l a d) : Dev.SameBut l a (Dev.resolve d x1 x2 x3 x4) := by
  refine .step ?_ hs h
  unfold Dev.resolve
  repeat' first
    | simp +decide (maxDischargeDepth := 30) only [Dev.SameBut.refl, Dev.modSuspect_keeps, Dev.clearSuspect_keeps, Dev.raiseSuspect_keeps, Dev.chargeRun_keeps, Dev.compare_keeps, Dev.retractStep_keeps, Dev.provenWrong_keeps, Dev.split_keeps, Dev.nextPair_keeps, Dev.startCrossCheck_keeps, Dev.hzEvent_keeps, Dev.seek_keeps, Dev.SameBut.ite]
    | split

theorem Dev.settleCompare_keeps (x1) (x2) (x3)
    (hs : Part.sub [.afsin, .banks, .clock, .ctxs, .dbg, .health, .hz, .jnl, .pat, .wisps, .reg Reg.ZN_AFS_CNT_LOST, .reg Reg.ZN_AFS_CNT_SENT, .reg Reg.ZN_HANG_CNT_ANV_ISO, .reg Reg.ZN_HANG_CNT_BANK_ISO, .reg Reg.ZN_STOP_LOST, .reg Reg.ZN_UHT_CNT_CLEAR, .reg Reg.ZN_UHT_CNT_ECLIPSE, .reg Reg.ZN_UHT_CNT_HAZE, .reg Reg.ZN_UHT_CNT_OVERCAST, .reg Reg.ZN_UHT_CNT_SET] l = true)
    (h : Dev.SameBut l a d) : Dev.SameBut l a (Dev.settleCompare d x1 x2 x3) := by
  refine .step ?_ hs h
  unfold Dev.settleCompare
  repeat' first
    | simp +decide (maxDischargeDepth := 30) only [Dev.SameBut.refl, Dev.resolve_keeps, Dev.SameBut.ite]
    | split

theorem Dev.crossVerdict_keeps (x1) (x2) (x3) (x4)
    (hs : Part.sub [.afsin, .banks, .clock, .ctxs, .dbg, .health, .hz, .jnl, .pat, .wisps, .reg Reg.ZN_AFS_CNT_LOST, .reg Reg.ZN_AFS_CNT_SENT, .reg Reg.ZN_HANG_CNT_ANV_ISO, .reg Reg.ZN_HANG_CNT_BANK_ISO, .reg Reg.ZN_UHT_CNT_CLEAR, .reg Reg.ZN_UHT_CNT_ECLIPSE, .reg Reg.ZN_UHT_CNT_HAZE, .reg Reg.ZN_UHT_CNT_OVERCAST, .reg Reg.ZN_UHT_CNT_SET] l = true)
    (h : Dev.SameBut l a d) : Dev.SameBut l a (Dev.crossVerdict d x1 x2 x3 x4) := by
  refine .step ?_ hs h
  unfold Dev.crossVerdict
  simp +decide (maxDischargeDepth := 30) only [Dev.SameBut.refl, Dev.retractStep_keeps, Dev.hzEvent_keeps, Dev.clearSuspect_keeps, Dev.zEvent_keeps, Dev.hEvent_keeps, Dev.SameBut.ite]

theorem Dev.zVerdict_keeps (x1) (x2) (x3)
    (hs : Part.sub [.afsin, .banks, .clock, .ctxs, .dbg, .health, .hz, .jnl, .pat, .wisps, .reg Reg.ZN_AFS_CNT_LOST, .reg Reg.ZN_AFS_CNT_SENT, .reg Reg.ZN_HANG_CNT_ANV_ISO, .reg Reg.ZN_HANG_CNT_BANK_ISO, .reg Reg.ZN_STOP_LOST, .reg Reg.ZN_UHT_CNT_CLEAR, .reg Reg.ZN_UHT_CNT_ECLIPSE, .reg Reg.ZN_UHT_CNT_HAZE, .reg Reg.ZN_UHT_CNT_OVERCAST, .reg Reg.ZN_UHT_CNT_SET] l = true)
    (h : Dev.SameBut l a d) : Dev.SameBut l a (Dev.zVerdict d x1 x2 x3) := by
  refine .step ?_ hs h
  unfold Dev.zVerdict
  repeat' first
    | simp +decide (maxDischargeDepth := 30) only [Dev.SameBut.refl, Dev.hEvent_keeps, Dev.crossVerdict_keeps, Dev.modSuspect_keeps, Dev.settleCompare_keeps, Dev.SameBut.ite, Dev.SameBut.foldl, Dev.SameBut.upd, Dev.SameBut.upd', true_or, or_true, and_self]
    | split
    | generalize hx : List.foldl _ _ _ = y
      have hy : Dev.SameBut [.afsin, .banks, .clock, .ctxs, .dbg, .health, .hz, .jnl, .pat, .wisps, .reg Reg.ZN_AFS_CNT_LOST, .reg Reg.ZN_AFS_CNT_SENT, .reg Reg.ZN_HANG_CNT_ANV_ISO, .reg Reg.ZN_HANG_CNT_BANK_ISO, .reg Reg.ZN_STOP_LOST, .reg Reg.ZN_UHT_CNT_CLEAR, .reg Reg.ZN_UHT_CNT_ECLIPSE, .reg Reg.ZN_UHT_CNT_HAZE, .reg Reg.ZN_UHT_CNT_OVERCAST, .reg Reg.ZN_UHT_CNT_SET] d y := by
        rw [← hx]
        refine Dev.SameBut.foldl (fun _ _ => ?_) ?_ <;> repeat' first
          | simp +decide (maxDischargeDepth := 30) only [Dev.SameBut.refl, Dev.hEvent_keeps, Dev.crossVerdict_keeps, Dev.modSuspect_keeps, Dev.settleCompare_keeps, Dev.SameBut.ite, Dev.SameBut.foldl, Dev.SameBut.upd, Dev.SameBut.upd', true_or, or_true, and_self]
      clear hx
      simp +decide (maxDischargeDepth := 30) only [hy, Dev.SameBut.refl, Dev.hEvent_keeps, Dev.crossVerdict_keeps, Dev.modSuspect_keeps, Dev.settleCompare_keeps, Dev.SameBut.ite, Dev.SameBut.foldl, Dev.SameBut.upd, Dev.SameBut.upd', true_or, or_true, and_self]

theorem Dev.endOrphan_keeps (x1) (x2)
    (hs : Part.sub [.banks, .hz, .reg Reg.ZN_STOP_LOST] l = true)
    (h : Dev.SameBut l a d) : Dev.SameBut l a (Dev.endOrphan d x1 x2) := by
  refine .step ?_ hs h
  unfold Dev.endOrphan
  repeat' first
    | simp +decide (maxDischargeDepth := 30) only [Dev.SameBut.refl, Dev.submitSig_keeps, Dev.SameBut.ite, Dev.SameBut.foldl, Dev.SameBut.upd, Dev.SameBut.upd', true_or, or_true, and_self]
    | split
    | refine Dev.SameBut.foldl (fun _ _ => ?_) ?_

theorem Dev.abandon_keeps (x1) (x2) (x3) (x4)
    (hs : Part.sub [.ctxs, .reg Reg.ZN_HZ_CNT_ABANDONED] l = true)
    (h : Dev.SameBut l a d) : Dev.SameBut l a (Dev.abandon d x1 x2 x3 x4) := by
  refine .step ?_ hs h
  unfold Dev.abandon
  simp +decide (maxDischargeDepth := 30) only [Dev.SameBut.refl, Dev.bumpZ_keeps, Dev.clearSuspect_keeps, Dev.modSuspect_keeps, Dev.SameBut.ite]

theorem Dev.afterReplay_keeps (x1) (x2) (x3) (x4)
    (hs : Part.sub [.afsin, .banks, .clock, .ctxs, .dbg, .health, .hz, .jnl, .pat, .wisps, .reg Reg.ZN_AFS_CNT_LOST, .reg Reg.ZN_AFS_CNT_SENT, .reg Reg.ZN_HANG_CNT_ANV_ISO, .reg Reg.ZN_HANG_CNT_BANK_ISO, .reg Reg.ZN_STOP_LOST, .reg Reg.ZN_UHT_CNT_CLEAR, .reg Reg.ZN_UHT_CNT_ECLIPSE, .reg Reg.ZN_UHT_CNT_HAZE, .reg Reg.ZN_UHT_CNT_OVERCAST, .reg Reg.ZN_UHT_CNT_SET] l = true)
    (h : Dev.SameBut l a d) : Dev.SameBut l a (Dev.afterReplay d x1 x2 x3 x4) := by
  refine .step ?_ hs h
  unfold Dev.afterReplay
  repeat' first
    | simp +decide (maxDischargeDepth := 30) only [Dev.SameBut.refl, Dev.modSuspect_keeps, Dev.compare_keeps, Dev.settleCompare_keeps, Dev.SameBut.ite]
    | split

theorem Dev.advanceSuspect_keeps (x1) (x2) (x3)
    (hs : Part.sub [.afsin, .banks, .clock, .ctxs, .dbg, .health, .hz, .jnl, .pat, .wisps, .reg Reg.ZN_AFS_CNT_LOST, .reg Reg.ZN_AFS_CNT_SENT, .reg Reg.ZN_HANG_CNT_ANV_ISO, .reg Reg.ZN_HANG_CNT_BANK_ISO, .reg Reg.ZN_HZ_CNT_ABANDONED, .reg Reg.ZN_STOP_LOST, .reg Reg.ZN_UHT_CNT_CLEAR, .reg Reg.ZN_UHT_CNT_ECLIPSE, .reg Reg.ZN_UHT_CNT_HAZE, .reg Reg.ZN_UHT_CNT_OVERCAST, .reg Reg.ZN_UHT_CNT_SET] l = true)
    (h : Dev.SameBut l a d) : Dev.SameBut l a (Dev.advanceSuspect d x1 x2 x3) := by
  refine .step ?_ hs h
  unfold Dev.advanceSuspect
  repeat' first
    | simp +decide (maxDischargeDepth := 30) only [Dev.SameBut.refl, Dev.seekReplay_keeps, Dev.modSuspect_keeps, Dev.afterReplay_keeps, Dev.abandon_keeps, Dev.SameBut.ite]
    | split

theorem Dev.advanceSuspects_keeps
    (hs : Part.sub [.afsin, .banks, .clock, .ctxs, .dbg, .health, .hz, .jnl, .pat, .wisps, .reg Reg.ZN_AFS_CNT_LOST, .reg Reg.ZN_AFS_CNT_SENT, .reg Reg.ZN_HANG_CNT_ANV_ISO, .reg Reg.ZN_HANG_CNT_BANK_ISO, .reg Reg.ZN_HZ_CNT_ABANDONED, .reg Reg.ZN_STOP_LOST, .reg Reg.ZN_UHT_CNT_CLEAR, .reg Reg.ZN_UHT_CNT_ECLIPSE, .reg Reg.ZN_UHT_CNT_HAZE, .reg Reg.ZN_UHT_CNT_OVERCAST, .reg Reg.ZN_UHT_CNT_SET] l = true)
    (h : Dev.SameBut l a d) : Dev.SameBut l a (Dev.advanceSuspects d) := by
  refine .step ?_ hs h
  unfold Dev.advanceSuspects
  repeat' first
    | simp +decide (maxDischargeDepth := 30) only [Dev.SameBut.refl, Dev.advanceSuspect_keeps, Dev.SameBut.ite, Dev.SameBut.foldl, Dev.SameBut.upd, Dev.SameBut.upd', true_or, or_true, and_self]
    | split
    | refine Dev.SameBut.foldl (fun _ _ => ?_) ?_

theorem Dev.pairCompare_keeps (x1) (x2) (x3)
    (hs : Part.sub [.afsin, .banks, .clock, .ctxs, .dbg, .health, .hz, .jnl, .pat, .wisps, .reg Reg.ZN_AFS_CNT_LOST, .reg Reg.ZN_AFS_CNT_SENT, .reg Reg.ZN_HANG_CNT_ANV_ISO, .reg Reg.ZN_HANG_CNT_BANK_ISO, .reg Reg.ZN_STOP_LOST, .reg Reg.ZN_UHT_CNT_CLEAR, .reg Reg.ZN_UHT_CNT_ECLIPSE, .reg Reg.ZN_UHT_CNT_HAZE, .reg Reg.ZN_UHT_CNT_OVERCAST, .reg Reg.ZN_UHT_CNT_SET] l = true)
    (h : Dev.SameBut l a d) : Dev.SameBut l a (Dev.pairCompare d x1 x2 x3) := by
  refine .step ?_ hs h
  unfold Dev.pairCompare
  split
  · exact .refl _ _
  split
  · exact .refl _ _
  · refine Dev.settleCompare_keeps _ _ _ (Eq.refl true) (Dev.modSuspect_keeps _ _ _ _ (Eq.refl true) ?_)
    refine Dev.SameBut.foldl_fst (fun _ _ => ?_) (.refl _ _)
    dsimp only
    split
    · exact Dev.submitSig_keeps _ _ _ _ _ _ _ _ _ _ (Eq.refl true) (.refl _ _)
    · exact .refl _ _

theorem Dev.sigcapNow_keeps (x1)
    (hs : Part.sub [.afsin, .banks, .clock, .ctxs, .dbg, .health, .hz, .jnl, .pat, .wisps, .reg Reg.ZN_AFS_CNT_LOST, .reg Reg.ZN_AFS_CNT_SENT, .reg Reg.ZN_HANG_CNT_ANV_ISO, .reg Reg.ZN_HANG_CNT_BANK_ISO, .reg Reg.ZN_STOP_LOST, .reg Reg.ZN_UHT_CNT_CLEAR, .reg Reg.ZN_UHT_CNT_ECLIPSE, .reg Reg.ZN_UHT_CNT_HAZE, .reg Reg.ZN_UHT_CNT_OVERCAST, .reg Reg.ZN_UHT_CNT_SET] l = true)
    (h : Dev.SameBut l a d) : Dev.SameBut l a (Dev.sigcapNow d x1) := by
  refine .step ?_ hs h
  unfold Dev.sigcapNow
  repeat' first
    | simp +decide (maxDischargeDepth := 30) only [Dev.SameBut.refl, Dev.modCtx_keeps, Dev.pairCompare_keeps, Dev.SameBut.ite, Dev.SameBut.foldl, Dev.SameBut.upd, Dev.SameBut.upd', true_or, or_true, and_self]
    | split
    | refine Dev.SameBut.foldl (fun _ _ => ?_) ?_

theorem Dev.popReplay_keeps (x1)
    (hs : Part.sub [.banks] l = true)
    (h : Dev.SameBut l a d) : Dev.SameBut l a (Dev.popReplay d x1) := by
  refine .step ?_ hs h
  unfold Dev.popReplay
  simp +decide (maxDischargeDepth := 30) only [Dev.SameBut.refl, Dev.modBank_keeps, Dev.SameBut.ite]

theorem Dev.ccAnswer_keeps (x1) (x2) (x3)
    (hs : Part.sub [.banks, .jnl, .port, .reg Reg.ZN_CFG_CNT_REJECT] l = true)
    (hf : ∀ e r, Dev.SameBut l e (x3 e r))
    (h : Dev.SameBut l a d) : Dev.SameBut l a (Dev.ccAnswer d x1 x2 x3) := by
  have hE : ∀ e, Dev.SameBut l a e → Dev.SameBut l a ((e.regReject (.bk x1 Reg.BK_CC_ANSWER) x2 1).bumpZ Reg.ZN_CFG_CNT_REJECT) := fun e he =>
    Dev.SameBut.step (k := [.banks, .jnl, .port, .reg Reg.ZN_CFG_CNT_REJECT]) (Dev.bumpZ_keeps _ (Eq.refl true) (Dev.regReject_keeps _ _ _ (Eq.refl true) (.refl _ _))) hs he
  unfold Dev.ccAnswer
  split
  · split
    · exact (Dev.SameBut.step (k := [.banks, .jnl, .port, .reg Reg.ZN_CFG_CNT_REJECT]) (Dev.popReplay_keeps _ (Eq.refl true) (.refl _ _)) hs h).trans (hf _ _)
    · exact hE _ h
  · exact hE _ h

theorem Dev.ccNofit_keeps (x1) (x2)
    (hs : Part.sub [.banks, .ctxs, .jnl, .port, .reg Reg.ZN_CFG_CNT_REJECT, .reg Reg.ZN_HZ_CNT_ABANDONED] l = true)
    (h : Dev.SameBut l a d) : Dev.SameBut l a (Dev.ccNofit d x1 x2) := by
  refine .step ?_ hs h
  unfold Dev.ccNofit
  refine Dev.ccAnswer_keeps _ _ _ (Eq.refl true) (fun e r => ?_) (.refl _ _)
  split
  · exact Dev.abandon_keeps _ _ _ _ (Eq.refl true) (.refl _ _)
  · exact .refl _ _

theorem Dev.countVerdict_keeps (x1)
    (hs : Part.sub [.regs] l = true)
    (h : Dev.SameBut l a d) : Dev.SameBut l a (Dev.countVerdict d x1) := by
  refine .step ?_ hs h
  unfold Dev.countVerdict
  simp +decide (maxDischargeDepth := 30) only [Dev.SameBut.refl, Dev.bumpZ_keeps, Dev.SameBut.ite, Part.sub_reg]

theorem Dev.verdictHealth_keeps (x1) (x2)
    (hs : Part.sub [.afsin, .banks, .clock, .ctxs, .health, .jnl, .pat, .wisps, .reg Reg.ZN_AFS_CNT_LOST, .reg Reg.ZN_AFS_CNT_SENT, .reg Reg.ZN_HANG_CNT_ANV_ISO, .reg Reg.ZN_HANG_CNT_BANK_ISO, .reg Reg.ZN_UHT_CNT_CLEAR, .reg Reg.ZN_UHT_CNT_ECLIPSE, .reg Reg.ZN_UHT_CNT_HAZE, .reg Reg.ZN_UHT_CNT_OVERCAST, .reg Reg.ZN_UHT_CNT_SET] l = true)
    (h : Dev.SameBut l a d) : Dev.SameBut l a (Dev.verdictHealth d x1 x2) := by
  refine .step ?_ hs h
  unfold Dev.verdictHealth
  simp +decide (maxDischargeDepth := 30) only [Dev.SameBut.refl, Dev.hEvent_keeps, Dev.SameBut.ite]

theorem Dev.verdictHorizon_keeps (x1) (x2)
    (hs : Part.sub [.ctxs, .dbg, .hz, .jnl] l = true)
    (h : Dev.SameBut l a d) : Dev.SameBut l a (Dev.verdictHorizon d x1 x2) := by
  refine .step ?_ hs h
  unfold Dev.verdictHorizon
  repeat' first
    | simp +decide (maxDischargeDepth := 30) only [Dev.SameBut.refl, Dev.uncount_keeps, Dev.makeSuspect_keeps, Dev.exposeStep_keeps, Dev.SameBut.ite]
    | split

theorem Dev.dropSig_keeps (x1)
    (hs : Part.sub [.hz] l = true)
    (h : Dev.SameBut l a d) : Dev.SameBut l a (Dev.dropSig d x1) := by
  refine .step ?_ hs h
  unfold Dev.dropSig
  simp +decide (maxDischargeDepth := 30) only [Dev.SameBut.refl, Dev.SameBut.ite, Dev.SameBut.upd, Dev.SameBut.upd', true_or, or_true, and_self]

theorem Dev.takeVerdict_keeps (x1) (x2)
    (hs : Part.sub [.afsin, .banks, .clock, .ctxs, .dbg, .health, .hz, .jnl, .pat, .regs, .wisps] l = true)
    (h : Dev.SameBut l a d) : Dev.SameBut l a (Dev.takeVerdict d x1 x2) := by
  refine .step ?_ hs h
  unfold Dev.takeVerdict
  simp +decide (maxDischargeDepth := 30) only [Dev.SameBut.refl, Dev.recordLate_keeps, Dev.bumpZ_keeps, Dev.dropSig_keeps, Dev.verdictHealth_keeps, Dev.countVerdict_keeps, Dev.modCtx_keeps, Dev.zVerdict_keeps, Dev.verdictHorizon_keeps, Dev.SameBut.ite, Part.sub_reg]

theorem Dev.badReplayLoad_keeps (x1)
    (hs : Part.sub [.ctxs] l = true)
    (h : Dev.SameBut l a d) : Dev.SameBut l a (Dev.badReplayLoad d x1) := by
  refine .step ?_ hs h
  unfold Dev.badReplayLoad
  repeat' first
    | simp +decide (maxDischargeDepth := 30) only [Dev.SameBut.refl, Dev.modSuspect_keeps, Dev.SameBut.ite]
    | split

theorem Dev.takeCw_keeps (x1) (x2)
    (hs : Part.sub [.afsin, .banks, .clock, .ctxs, .dbg, .health, .hz, .jnl, .pat, .wisps, .reg Reg.ZN_AFS_CNT_LOST, .reg Reg.ZN_AFS_CNT_SENT, .reg Reg.ZN_HANG_CNT_ANV_ISO, .reg Reg.ZN_HANG_CNT_BANK_ISO, .reg Reg.ZN_UHT_CNT_CLEAR, .reg Reg.ZN_UHT_CNT_ECLIPSE, .reg Reg.ZN_UHT_CNT_HAZE, .reg Reg.ZN_UHT_CNT_OVERCAST, .reg Reg.ZN_UHT_CNT_SET] l = true)
    (h : Dev.SameBut l a d) : Dev.SameBut l a (Dev.takeCw d x1 x2) := by
  refine .step ?_ hs h
  unfold Dev.takeCw
  repeat' first
    | simp +decide (maxDischargeDepth := 30) only [Dev.SameBut.refl, Dev.hEvent_keeps, Dev.badReplayLoad_keeps, Dev.makeSuspect_keeps, Dev.exposeStep_keeps, Dev.modEpoch_keeps, Dev.SameBut.ite]
    | split

theorem Dev.tokenOut_keeps (x1) (x2)
    (hs : Part.sub [.ctxs, .hz, .reg Reg.ZN_HZ_CNT_COMMIT_OUT, .reg Reg.ZN_HZ_CNT_RETRACT_OUT] l = true)
    (h : Dev.SameBut l a d) : Dev.SameBut l a (Dev.tokenOut d x1 x2) := by
  refine .step ?_ hs h
  unfold Dev.tokenOut
  repeat' first
    | simp +decide (maxDischargeDepth := 30) only [Dev.SameBut.refl, Dev.modCtx_keeps, Dev.hzSend_keeps, Dev.bumpZ_keeps, Dev.SameBut.ite, Dev.SameBut.upd, Dev.SameBut.upd', true_or, or_true, and_self]
    | split

theorem Dev.retractIn_keeps (x1) (x2) (x3)
    (hs : Part.sub [.ctxs, .dbg, .hz, .jnl] l = true)
    (h : Dev.SameBut l a d) : Dev.SameBut l a (Dev.retractIn d x1 x2 x3) := by
  refine .step ?_ hs h
  unfold Dev.retractIn
  simp +decide (maxDischargeDepth := 30) only [Dev.SameBut.refl, Dev.retract_keeps, Dev.SameBut.ite, Dev.SameBut.upd, Dev.SameBut.upd', true_or, or_true, and_self]

theorem Dev.failIn_keeps (x1) (x2)
    (hs : Part.sub [.ctxs, .dbg, .hz, .jnl] l = true)
    (h : Dev.SameBut l a d) : Dev.SameBut l a (Dev.failIn d x1 x2) := by
  refine .step ?_ hs h
  unfold Dev.failIn
  simp +decide (maxDischargeDepth := 30) only [Dev.SameBut.refl, Dev.failCtx_keeps, Dev.SameBut.ite, Dev.SameBut.upd, Dev.SameBut.upd', true_or, or_true, and_self]

theorem Dev.modLink_keeps (x1) (x2)
    (hs : Part.sub [.hz] l = true)
    (h : Dev.SameBut l a d) : Dev.SameBut l a (Dev.modLink d x1 x2) := by
  refine .step ?_ hs h
  unfold Dev.modLink
  simp +decide (maxDischargeDepth := 30) only [Dev.SameBut.refl, Dev.SameBut.ite, Dev.SameBut.upd, Dev.SameBut.upd', true_or, or_true, and_self]

theorem Dev.inEvent_keeps (x1) (x2) (x3) (x4) (x5)
    (hs : Part.sub [.jnl] l = true)
    (h : Dev.SameBut l a d) : Dev.SameBut l a (Dev.inEvent d x1 x2 x3 x4 x5) := by
  refine .step ?_ hs h
  unfold Dev.inEvent
  simp +decide (maxDischargeDepth := 30) only [Dev.SameBut.refl, Dev.zEvent_keeps, Dev.SameBut.ite]

theorem Dev.takeNotice_keeps (x1) (x2) (x3) (x4) (x5)
    (hs : Part.sub [.ctxs, .dbg, .hz, .jnl, .reg Reg.ZN_HZ_CNT_FULL] l = true)
    (h : Dev.SameBut l a d) : Dev.SameBut l a (Dev.takeNotice d x1 x2 x3 x4 x5) := by
  refine .step ?_ hs h
  unfold Dev.takeNotice
  simp +decide (maxDischargeDepth := 30) only [Dev.SameBut.refl, Dev.failIn_keeps, Dev.inEvent_keeps, Dev.bumpZ_keeps, Dev.SameBut.ite, Dev.SameBut.upd, Dev.SameBut.upd', true_or, or_true, and_self]

theorem Dev.receive_keeps (x1) (x2) (x3)
    (hs : Part.sub [.reg Reg.ZN_HZ_CNT_BADMSG] l = true)
    (hf : ∀ e m, Dev.SameBut l e (x3 e m))
    (h : Dev.SameBut l a d) : Dev.SameBut l a (Dev.receive d x1 x2 x3) := by
  unfold Dev.receive
  split
  · exact h
  split
  · exact Dev.SameBut.step (k := [.reg Reg.ZN_HZ_CNT_BADMSG]) (Dev.bumpZ_keeps _ (Eq.refl true) (.refl _ _)) hs h
  split
  · exact h.trans (hf _ _)
  · exact h

theorem Dev.takeToken_keeps (x1) (x2) (x3) (x4) (x5)
    (hs : Part.sub [.ctxs, .hz, .jnl, .regs] l = true)
    (hf : ∀ e f, Dev.SameBut l e (x5 e f))
    (h : Dev.SameBut l a d) : Dev.SameBut l a (Dev.takeToken d x1 x2 x3 x4 x5) := by
  unfold Dev.takeToken
  dsimp only
  split
  · refine Dev.SameBut.step (k := [.ctxs, .hz, .jnl, .regs]) ?_ hs h
    simp +decide (maxDischargeDepth := 30) only [Dev.SameBut.refl, Dev.SameBut.ite, Dev.SameBut.upd, Dev.SameBut.upd', true_or, or_true, and_self, Dev.recordLate_keeps, Dev.inEvent_keeps, Dev.bumpZ_keeps]
  · refine Dev.SameBut.step (k := [.ctxs, .hz, .jnl, .regs]) ?_ hs h
    simp +decide (maxDischargeDepth := 30) only [Dev.SameBut.refl, Dev.SameBut.ite, Dev.SameBut.upd, Dev.SameBut.upd', true_or, or_true, and_self, Dev.modCtx_keeps]
  · refine Dev.SameBut.step (k := [.ctxs, .hz, .jnl, .regs]) ?_ hs h
    simp +decide (maxDischargeDepth := 30) only [Dev.SameBut.refl, Dev.SameBut.ite, Dev.SameBut.upd, Dev.SameBut.upd', true_or, or_true, and_self, Dev.modCtx_keeps]
  split
  · refine Dev.SameBut.step (k := [.ctxs, .hz, .jnl, .regs]) ?_ hs h
    simp +decide (maxDischargeDepth := 30) only [Dev.SameBut.refl, Dev.SameBut.ite, Dev.SameBut.upd, Dev.SameBut.upd', true_or, or_true, and_self, Dev.bumpZ_keeps]
  · refine Dev.SameBut.trans ?_ (hf _ _)
    refine Dev.SameBut.step (k := [.ctxs, .hz, .jnl, .regs]) ?_ hs h
    simp +decide (maxDischargeDepth := 30) only [Dev.SameBut.refl, Dev.SameBut.ite, Dev.SameBut.upd, Dev.SameBut.upd', true_or, or_true, and_self, Dev.bumpZ_keeps, Part.sub_reg]

theorem Dev.sendHello_keeps (x1) (x2) (x3)
    (hs : Part.sub [.draws, .hz] l = true)
    (h : Dev.SameBut l a d) : Dev.SameBut l a (Dev.sendHello d x1 x2 x3) := by
  refine .step ?_ hs h
  unfold Dev.sendHello
  simp +decide (maxDischargeDepth := 30) only [Dev.SameBut.refl, Dev.swSend_keeps, Dev.SameBut.ite, Dev.SameBut.upd, Dev.SameBut.upd', true_or, or_true, and_self, Dev.draw]

theorem Dev.broadcastHello_keeps (x1)
    (hs : Part.sub [.draws, .hz] l = true)
    (h : Dev.SameBut l a d) : Dev.SameBut l a (Dev.broadcastHello d x1) := by
  refine .step ?_ hs h
  unfold Dev.broadcastHello
  repeat' first
    | simp +decide (maxDischargeDepth := 30) only [Dev.SameBut.refl, Dev.sendHello_keeps, Dev.SameBut.ite, Dev.SameBut.foldl]
    | split
    | refine Dev.SameBut.foldl (fun _ _ => ?_) ?_

theorem Dev.lostPeer_keeps (x1)
    (hs : Part.sub [.ctxs, .dbg, .hz, .jnl] l = true)
    (h : Dev.SameBut l a d) : Dev.SameBut l a (Dev.lostPeer d x1) := by
  refine .step ?_ hs h
  unfold Dev.lostPeer
  repeat' first
    | simp +decide (maxDischargeDepth := 30) only [Dev.SameBut.refl, Dev.retractIn_keeps, Dev.SameBut.ite, Dev.SameBut.foldl, Dev.SameBut.upd, Dev.SameBut.upd', true_or, or_true, and_self]
    | split
    | refine Dev.SameBut.foldl (fun _ _ => ?_) ?_

theorem Dev.helloIn_keeps (x1) (x2) (x3)
    (hs : Part.sub [.ctxs, .dbg, .hz, .jnl] l = true)
    (h : Dev.SameBut l a d) : Dev.SameBut l a (Dev.helloIn d x1 x2 x3) := by
  refine .step ?_ hs h
  unfold Dev.helloIn
  simp +decide (maxDischargeDepth := 30) only [Dev.SameBut.refl, Dev.swSend_keeps, Dev.modLink_keeps, Dev.lostPeer_keeps, Dev.SameBut.ite, Dev.SameBut.upd, Dev.SameBut.upd', true_or, or_true, and_self]

theorem Dev.resume_keeps
    (hs : Part.sub [.ctxs] l = true)
    (h : Dev.SameBut l a d) : Dev.SameBut l a (Dev.resume d) := by
  refine .step ?_ hs h
  unfold Dev.resume
  simp +decide (maxDischargeDepth := 30) only [Dev.SameBut.refl, Dev.modCtx_keeps, Dev.SameBut.ite]

theorem Dev.startTest_keeps (x1) (x2) (x3) (x4) (x5) (x6)
    (hs : Part.sub [.banks, .health] l = true)
    (h : Dev.SameBut l a d) : Dev.SameBut l a (Dev.startTest d x1 x2 x3 x4 x5 x6) := by
  refine .step ?_ hs h
  unfold Dev.startTest
  simp +decide (maxDischargeDepth := 30) only [Dev.SameBut.refl, Dev.modBank_keeps, Dev.SameBut.ite, Dev.SameBut.upd, Dev.SameBut.upd', true_or, or_true, and_self]

theorem Dev.launchAll_keeps (x1) (x2) (x3)
    (hs : Part.sub [.banks, .health] l = true)
    (h : Dev.SameBut l a d) : Dev.SameBut l a (Dev.launchAll d x1 x2 x3) := by
  refine .step ?_ hs h
  unfold Dev.launchAll
  repeat' first
    | simp +decide (maxDischargeDepth := 30) only [Dev.SameBut.refl, Dev.startTest_keeps, Dev.SameBut.ite, Dev.SameBut.foldl]
    | split
    | refine Dev.SameBut.foldl (fun _ _ => ?_) ?_

theorem Dev.abortTest_keeps (x1) (x2)
    (hs : Part.sub [.banks] l = true)
    (h : Dev.SameBut l a d) : Dev.SameBut l a (Dev.abortTest d x1 x2) := by
  refine .step ?_ hs h
  unfold Dev.abortTest
  repeat' first
    | simp +decide (maxDischargeDepth := 30) only [Dev.SameBut.refl, Dev.modBank_keeps, Dev.SameBut.ite]
    | split

theorem Dev.endRequest_keeps
    (hs : Part.sub [.health, .reg Reg.ZN_TST_REQ_STAT] l = true)
    (h : Dev.SameBut l a d) : Dev.SameBut l a (Dev.endRequest d) := by
  refine .step ?_ hs h
  unfold Dev.endRequest
  repeat' first
    | simp +decide (maxDischargeDepth := 30) only [Dev.SameBut.refl, Dev.setZf_keeps, Dev.SameBut.ite, Dev.SameBut.upd, Dev.SameBut.upd', true_or, or_true, and_self]
    | split

theorem Dev.requestResult_keeps (x1) (x2)
    (hs : Part.sub [.health, .reg Reg.ZN_TST_REQ_STAT] l = true)
    (h : Dev.SameBut l a d) : Dev.SameBut l a (Dev.requestResult d x1 x2) := by
  refine .step ?_ hs h
  unfold Dev.requestResult
  repeat' first
    | simp +decide (maxDischargeDepth := 30) only [Dev.SameBut.refl, Dev.endRequest_keeps, Dev.SameBut.ite, Dev.SameBut.upd, Dev.SameBut.upd', true_or, or_true, and_self]
    | split

theorem Dev.testResult_keeps (x1) (x2) (x3) (x4) (x5)
    (hs : Part.sub [.afsin, .banks, .clock, .ctxs, .health, .jnl, .pat, .regs, .sd, .wisps] l = true)
    (h : Dev.SameBut l a d) : Dev.SameBut l a (Dev.testResult d x1 x2 x3 x4 x5) := by
  refine .step ?_ hs h
  unfold Dev.testResult
  repeat' first
    | simp +decide (maxDischargeDepth := 30) only [Dev.SameBut.refl, Dev.zEvent_keeps, Dev.bumpZ_keeps, Dev.hEvent_keeps, Dev.requestResult_keeps, Dev.SameBut.ite, Dev.SameBut.upd, Dev.SameBut.upd', true_or, or_true, and_self, Part.sub_reg]
    | split

theorem Dev.releaseTest_keeps (x1) (x2)
    (hs : Part.sub [.banks, .pat] l = true)
    (h : Dev.SameBut l a d) : Dev.SameBut l a (Dev.releaseTest d x1 x2) := by
  refine .step ?_ hs h
  unfold Dev.releaseTest
  repeat' first
    | simp +decide (maxDischargeDepth := 30) only [Dev.SameBut.refl, Dev.modBank_keeps, Dev.SameBut.ite, Dev.SameBut.upd, Dev.SameBut.upd', true_or, or_true, and_self]
    | split

theorem Dev.endTest_keeps (x1) (x2) (x3) (x4)
    (hs : Part.sub [.afsin, .banks, .clock, .ctxs, .health, .jnl, .pat, .regs, .sd, .wisps] l = true)
    (h : Dev.SameBut l a d) : Dev.SameBut l a (Dev.endTest d x1 x2 x3 x4) := by
  refine .step ?_ hs h
  unfold Dev.endTest
  simp +decide (maxDischargeDepth := 30) only [Dev.SameBut.refl, Dev.testResult_keeps, Dev.releaseTest_keeps, Dev.modBank_keeps, Dev.SameBut.ite, Part.sub_reg]

theorem Dev.chargeCopy_keeps (x1)
    (hs : Part.sub [.afsin, .banks, .clock, .ctxs, .health, .jnl, .pat, .wisps, .reg Reg.ZN_AFS_CNT_LOST, .reg Reg.ZN_AFS_CNT_SENT, .reg Reg.ZN_HANG_CNT_ANV_ISO, .reg Reg.ZN_HANG_CNT_BANK_ISO, .reg Reg.ZN_UHT_CNT_CLEAR, .reg Reg.ZN_UHT_CNT_ECLIPSE, .reg Reg.ZN_UHT_CNT_HAZE, .reg Reg.ZN_UHT_CNT_OVERCAST, .reg Reg.ZN_UHT_CNT_SET] l = true)
    (h : Dev.SameBut l a d) : Dev.SameBut l a (Dev.chargeCopy d x1) := by
  refine .step ?_ hs h
  unfold Dev.chargeCopy
  split
  · exact Dev.hEvent_keeps _ _ (Eq.refl true) (.refl _ _)
  · exact .refl _ _

theorem Dev.stashLost_keeps (x1) (x2) (x3) (x4)
    (hs : Part.sub [.afsin, .banks, .ctxs, .dbg, .hz, .jnl, .reg Reg.ZN_AFS_CNT_LOST, .reg Reg.ZN_AFS_CNT_SENT, .reg Reg.ZN_STOP_LOST, .reg Reg.ZN_TST_CNT_STASH_LOST] l = true)
    (h : Dev.SameBut l a d) : Dev.SameBut l a (Dev.stashLost d x1 x2 x3 x4) := by
  refine .step ?_ hs h
  unfold Dev.stashLost
  repeat' first
    | simp +decide (maxDischargeDepth := 30) only [Dev.SameBut.refl, Dev.bankEvent_keeps, Dev.bumpZ_keeps, Dev.eventNotice_keeps, Dev.retractIn_keeps, Dev.expose_keeps, Dev.SameBut.ite]
    | split

theorem Dev.mapCore_keeps (x1) (x2) (x3) (x4)
    (hs : Part.sub [.banks, .dbg, .jnl, .reg Reg.ZN_STOP_LOST, .reg Reg.ZN_UHT_CNT_REMAP] l = true)
    (h : Dev.SameBut l a d) : Dev.SameBut l a (Dev.mapCore d x1 x2 x3 x4) := by
  refine .step ?_ hs h
  unfold Dev.mapCore
  simp +decide (maxDischargeDepth := 30) only [Dev.SameBut.refl, Dev.modBank_keeps, Dev.bankEvent_keeps, Dev.bumpZ_keeps, Dev.dropBase_keeps, Dev.jPush_keeps, Dev.SameBut.ite]

theorem Dev.makeVacant_keeps (x1) (x2)
    (hs : Part.sub [.afsin, .banks, .jnl, .reg Reg.ZN_AFS_CNT_LOST, .reg Reg.ZN_AFS_CNT_SENT] l = true)
    (h : Dev.SameBut l a d) : Dev.SameBut l a (Dev.makeVacant d x1 x2) := by
  refine .step ?_ hs h
  unfold Dev.makeVacant
  simp +decide (maxDischargeDepth := 30) only [Dev.SameBut.refl, Dev.modBank_keeps, Dev.jPush_keeps, Dev.notice_keeps, Dev.zEvent_keeps, Dev.SameBut.ite]

theorem Dev.startRequest_keeps (x1) (x2)
    (hs : Part.sub [.health, .wisps, .reg Reg.ZN_TST_REQ_STAT] l = true)
    (h : Dev.SameBut l a d) : Dev.SameBut l a (Dev.startRequest d x1 x2).1 := by
  refine .step ?_ hs h
  unfold Dev.startRequest
  repeat' first
    | simp +decide (maxDischargeDepth := 30) only [Dev.SameBut.refl, Dev.setZf_keeps, Dev.askCheck_keeps, Dev.SameBut.ite, Dev.SameBut.foldl, Dev.SameBut.upd, Dev.SameBut.upd', true_or, or_true, and_self]
    | split
    | generalize hx : List.foldl _ _ _ = y
      have hy : Dev.SameBut [.health, .wisps, .reg Reg.ZN_TST_REQ_STAT] d y := by
        rw [← hx]
        refine Dev.SameBut.foldl (fun _ _ => ?_) ?_ <;> repeat' first
          | simp +decide (maxDischargeDepth := 30) only [Dev.SameBut.refl, Dev.setZf_keeps, Dev.askCheck_keeps, Dev.SameBut.ite, Dev.SameBut.foldl, Dev.SameBut.upd, Dev.SameBut.upd', true_or, or_true, and_self]
          | split
      clear hx
      simp +decide (maxDischargeDepth := 30) only [hy, Dev.SameBut.refl, Dev.setZf_keeps, Dev.askCheck_keeps, Dev.SameBut.ite, Dev.SameBut.foldl, Dev.SameBut.upd, Dev.SameBut.upd', true_or, or_true, and_self]

theorem Dev.wsCount_keeps (x1) (x2) (x3) (x4)
    (hs : Part.sub [.wisps] l = true)
    (h : Dev.SameBut l a d) : Dev.SameBut l a (Dev.wsCount d x1 x2 x3 x4) := by
  refine .step ?_ hs h
  unfold Dev.wsCount
  simp +decide (maxDischargeDepth := 30) only [Dev.SameBut.refl, Dev.modWisp_keeps, Dev.SameBut.ite]

theorem Dev.cwSkip_keeps (x1) (x2) (x3) (x4)
    (hs : Part.sub [.wisps] l = true)
    (h : Dev.SameBut l a d) : Dev.SameBut l a (Dev.cwSkip d x1 x2 x3 x4) := by
  refine .step ?_ hs h
  unfold Dev.cwSkip
  simp +decide (maxDischargeDepth := 30) only [Dev.SameBut.refl, Dev.modWisp_keeps, Dev.SameBut.ite]

theorem Dev.foldSig_keeps (x1) (x2) (x3) (x4) (x5) (x6)
    (hs : Part.sub [.banks, .wisps, .reg Reg.ZN_STOP_LOST] l = true)
    (h : Dev.SameBut l a d) : Dev.SameBut l a (Dev.foldSig d x1 x2 x3 x4 x5 x6) := by
  refine .step ?_ hs h
  unfold Dev.foldSig
  simp +decide (maxDischargeDepth := 30) only [Dev.SameBut.refl, Dev.modWisp_keeps, Dev.wispEvent_keeps, Dev.wsCount_keeps, Dev.SameBut.ite]

theorem Dev.closeBlk_keeps (x1) (x2) (x3) (x4)
    (hs : Part.sub [.banks, .wisps, .reg Reg.ZN_STOP_LOST] l = true)
    (h : Dev.SameBut l a d) : Dev.SameBut l a (Dev.closeBlk d x1 x2 x3 x4) := by
  refine .step ?_ hs h
  unfold Dev.closeBlk
  simp +decide (maxDischargeDepth := 30) only [Dev.SameBut.refl, Dev.modWisp_keeps, Dev.wsCount_keeps, Dev.foldSig_keeps, Dev.SameBut.ite]

theorem Dev.closeAll_keeps (x1) (x2) (x3)
    (hs : Part.sub [.banks, .wisps, .reg Reg.ZN_STOP_LOST] l = true)
    (h : Dev.SameBut l a d) : Dev.SameBut l a (Dev.closeAll d x1 x2 x3) := by
  refine .step ?_ hs h
  unfold Dev.closeAll
  repeat' first
    | simp +decide (maxDischargeDepth := 30) only [Dev.SameBut.refl, Dev.closeBlk_keeps, Dev.SameBut.ite, Dev.SameBut.foldl]
    | split
    | refine Dev.SameBut.foldl (fun _ _ => ?_) ?_

theorem Dev.operatorEnd_keeps (x1) (x2) (x3)
    (hs : Part.sub [.ctxs, .wisps] l = true)
    (h : Dev.SameBut l a d) : Dev.SameBut l a (Dev.operatorEnd d x1 x2 x3) := by
  refine .step ?_ hs h
  unfold Dev.operatorEnd
  simp +decide (maxDischargeDepth := 30) only [Dev.SameBut.refl, Dev.cwSkip_keeps, Dev.modCtx_keeps, Dev.modWisp_keeps, Dev.SameBut.ite]

theorem Dev.checkOwner_keeps (x1) (x2) (x3)
    (hs : Part.sub [.banks, .reg Reg.ZN_STOP_LOST] l = true)
    (h : Dev.SameBut l a d) : Dev.SameBut l a (Dev.checkOwner d x1 x2 x3) := by
  refine .step ?_ hs h
  unfold Dev.checkOwner
  simp +decide (maxDischargeDepth := 30) only [Dev.SameBut.refl, Dev.modBank_keeps, Dev.wispEvent_keeps, Dev.SameBut.ite]

theorem Dev.latch_keeps (x1) (x2) (x3) (x4)
    (hs : Part.sub [.banks, .ctxs, .wisps, .reg Reg.ZN_STOP_LOST] l = true)
    (h : Dev.SameBut l a d) : Dev.SameBut l a (Dev.latch d x1 x2 x3 x4) := by
  refine .step ?_ hs h
  unfold Dev.latch
  repeat' first
    | simp +decide (maxDischargeDepth := 30) only [Dev.SameBut.refl, Dev.closeAll_keeps, Dev.operatorEnd_keeps, Dev.modWisp_keeps, Dev.modCtx_keeps, Dev.checkOwner_keeps, Dev.wsCount_keeps, Dev.SameBut.ite]
    | split

theorem Dev.storeBlk_keeps (x1) (x2) (x3) (x4) (x5) (x6) (x7)
    (hs : Part.sub [.banks, .wisps, .reg Reg.ZN_STOP_LOST] l = true)
    (h : Dev.SameBut l a d) : Dev.SameBut l a (Dev.storeBlk d x1 x2 x3 x4 x5 x6 x7) := by
  refine .step ?_ hs h
  unfold Dev.storeBlk
  repeat' first
    | simp +decide (maxDischargeDepth := 30) only [Dev.SameBut.refl, Dev.closeBlk_keeps, Dev.modWisp_keeps, Dev.SameBut.ite]
    | split

theorem Dev.testStore_keeps (x1) (x2) (x3) (x4) (x5) (x6)
    (hs : Part.sub [.banks] l = true)
    (h : Dev.SameBut l a d) : Dev.SameBut l a (Dev.testStore d x1 x2 x3 x4 x5 x6) := by
  refine .step ?_ hs h
  unfold Dev.testStore
  simp +decide (maxDischargeDepth := 30) only [Dev.SameBut.refl, Dev.modBank_keeps, Dev.SameBut.ite, Dev.SameBut.foldl]

theorem Dev.storeTap_keeps (x1) (x2) (x3) (x4) (x5)
    (hs : Part.sub [.banks, .wisps, .reg Reg.ZN_STOP_LOST] l = true)
    (h : Dev.SameBut l a d) : Dev.SameBut l a (Dev.storeTap d x1 x2 x3 x4 x5) := by
  refine .step ?_ hs h
  unfold Dev.storeTap
  repeat' first
    | simp +decide (maxDischargeDepth := 30) only [Dev.SameBut.refl, Dev.testStore_keeps, Dev.storeBlk_keeps, Dev.SameBut.ite, Dev.SameBut.foldl]
    | split
    | refine Dev.SameBut.foldl (fun _ _ => ?_) ?_

theorem Dev.cwFail_keeps (x1) (x2) (x3) (x4) (x5)
    (hs : Part.sub [.banks, .wisps, .reg Reg.ZN_STOP_LOST] l = true)
    (h : Dev.SameBut l a d) : Dev.SameBut l a (Dev.cwFail d x1 x2 x3 x4 x5) := by
  refine .step ?_ hs h
  unfold Dev.cwFail
  simp +decide (maxDischargeDepth := 30) only [Dev.SameBut.refl, Dev.present_keeps, Dev.wsCount_keeps, Dev.SameBut.ite]

theorem Dev.replayPassed_keeps (x1) (x2)
    (hs : Part.sub [.ctxs] l = true)
    (h : Dev.SameBut l a d) : Dev.SameBut l a (Dev.replayPassed d x1 x2) := by
  refine .step ?_ hs h
  unfold Dev.replayPassed
  repeat' first
    | simp +decide (maxDischargeDepth := 30) only [Dev.SameBut.refl, Dev.modSuspect_keeps, Dev.SameBut.ite]
    | split

theorem Dev.putLoad_keeps (x1) (x2) (x3)
    (hs : Part.sub [.wisps] l = true)
    (h : Dev.SameBut l a d) : Dev.SameBut l a (Dev.putLoad d x1 x2 x3) := by
  refine .step ?_ hs h
  unfold Dev.putLoad
  simp +decide (maxDischargeDepth := 30) only [Dev.SameBut.refl, Dev.modWisp_keeps, Dev.SameBut.ite]

theorem Dev.firstLoad_keeps (x1) (x2) (x3) (x4) (x5)
    (hs : Part.sub [.banks, .wisps, .reg Reg.ZN_STOP_LOST] l = true)
    (h : Dev.SameBut l a d) : Dev.SameBut l a (Dev.firstLoad d x1 x2 x3 x4 x5) := by
  refine .step ?_ hs h
  unfold Dev.firstLoad
  repeat' first
    | simp +decide (maxDischargeDepth := 30) only [Dev.SameBut.refl, Dev.cwSkip_keeps, Dev.putLoad_keeps, Dev.cwFail_keeps, Dev.SameBut.ite]
    | split

theorem Dev.finishLoad_keeps (x1) (x2) (x3)
    (hs : Part.sub [.banks, .ctxs, .wisps, .reg Reg.ZN_STOP_LOST] l = true)
    (h : Dev.SameBut l a d) : Dev.SameBut l a (Dev.finishLoad d x1 x2 x3) := by
  refine .step ?_ hs h
  unfold Dev.finishLoad
  simp +decide (maxDischargeDepth := 30) only [Dev.SameBut.refl, Dev.putLoad_keeps, Dev.replayPassed_keeps, Dev.wsCount_keeps, Dev.cwFail_keeps, Dev.SameBut.ite]

theorem Dev.loadBlk_keeps (x1) (x2) (x3) (x4) (x5) (x6) (x7)
    (hs : Part.sub [.banks, .ctxs, .wisps, .reg Reg.ZN_STOP_LOST] l = true)
    (h : Dev.SameBut l a d) : Dev.SameBut l a (Dev.loadBlk d x1 x2 x3 x4 x5 x6 x7) := by
  refine .step ?_ hs h
  unfold Dev.loadBlk
  repeat' first
    | simp +decide (maxDischargeDepth := 30) only [Dev.SameBut.refl, Dev.firstLoad_keeps, Dev.finishLoad_keeps, Dev.putLoad_keeps, Dev.SameBut.ite, Dev.SameBut.foldl]
    | split

theorem Dev.ccDone_keeps (x1) (x2) (x3)
    (hs : Part.sub [.afsin, .banks, .clock, .ctxs, .dbg, .health, .hz, .jnl, .pat, .port, .wisps, .reg Reg.ZN_AFS_CNT_LOST, .reg Reg.ZN_AFS_CNT_SENT, .reg Reg.ZN_CFG_CNT_REJECT, .reg Reg.ZN_HANG_CNT_ANV_ISO, .reg Reg.ZN_HANG_CNT_BANK_ISO, .reg Reg.ZN_HANG_CNT_LATE, .reg Reg.ZN_HZ_CNT_REPLAYS, .reg Reg.ZN_STOP_LOST, .reg Reg.ZN_UHT_CNT_CLEAR, .reg Reg.ZN_UHT_CNT_ECLIPSE, .reg Reg.ZN_UHT_CNT_HAZE, .reg Reg.ZN_UHT_CNT_OVERCAST, .reg Reg.ZN_UHT_CNT_SET] l = true)
    (h : Dev.SameBut l a d) : Dev.SameBut l a (Dev.ccDone d x1 x2 x3) := by
  refine .step ?_ hs h
  unfold Dev.ccDone
  refine Dev.ccAnswer_keeps _ _ _ (Eq.refl true) (fun e r => ?_) (.refl _ _)
  repeat' first
    | simp +decide (maxDischargeDepth := 30) only [Dev.SameBut.refl, Dev.SameBut.ite, Dev.SameBut.upd, Dev.SameBut.upd', true_or, or_true, and_self, Dev.closeAll_keeps, Dev.endOrphan_keeps, Dev.modWisp_keeps, Dev.modSuspect_keeps, Dev.bumpZ_keeps, Dev.afterReplay_keeps, Dev.recordLate_keeps]
    | split

theorem Dev.taken_keeps (x1)
    (hs : Part.sub [.clock] l = true)
    (h : Dev.SameBut l a d) : Dev.SameBut l a (Dev.taken d x1) := by
  refine .step ?_ hs h
  unfold Dev.taken
  simp +decide (maxDischargeDepth := 30) only [Dev.SameBut.refl, Dev.SameBut.ite, Dev.SameBut.upd, Dev.SameBut.upd', true_or, or_true, and_self]

theorem Dev.launchNull_keeps
    (hs : Part.sub [.reg Reg.ZN_LAUNCH_STAT] l = true)
    (h : Dev.SameBut l a d) : Dev.SameBut l a (Dev.launchNull d) := by
  refine .step ?_ hs h
  unfold Dev.launchNull
  simp +decide (maxDischargeDepth := 30) only [Dev.SameBut.refl, Dev.setZf_keeps, Dev.SameBut.ite]

theorem Dev.stopCommand_keeps (x1)
    (hs : Part.sub [.ctxs] l = true)
    (h : Dev.SameBut l a d) : Dev.SameBut l a (Dev.stopCommand d x1) := by
  refine .step ?_ hs h
  unfold Dev.stopCommand
  repeat' first
    | simp +decide (maxDischargeDepth := 30) only [Dev.SameBut.refl, Dev.createNow_keeps, Dev.setLevelNow_keeps, Dev.teardownNow_keeps, Dev.SameBut.ite]
    | split

theorem Dev.stopDefer_keeps (x1)
    (hs : Part.sub [.ctxs, .dbg, .hz, .jnl] l = true)
    (h : Dev.SameBut l a d) : Dev.SameBut l a (Dev.stopDefer d x1) := by
  refine .step ?_ hs h
  unfold Dev.stopDefer
  repeat' first
    | simp +decide (maxDischargeDepth := 30) only [Dev.SameBut.refl, Dev.retract_keeps, Dev.failCtx_keeps, Dev.SameBut.ite]
    | split

theorem Dev.shiftSuspects_keeps (x1)
    (hs : Part.sub [.ctxs] l = true)
    (h : Dev.SameBut l a d) : Dev.SameBut l a (Dev.shiftSuspects d x1) := by
  refine .step ?_ hs h
  unfold Dev.shiftSuspects
  simp +decide (maxDischargeDepth := 30) only [Dev.SameBut.refl, Dev.SameBut.ite, Dev.SameBut.upd, Dev.SameBut.upd', true_or, or_true, and_self]

theorem Dev.resumeStop_keeps
    (hs : Part.sub [.afsin, .banks, .clock, .ctxs, .dbg, .health, .hz, .jnl, .pat, .stop, .wisps, .reg Reg.ZN_AFS_CNT_LOST, .reg Reg.ZN_AFS_CNT_SENT, .reg Reg.ZN_HANG_CNT_ANV_ISO, .reg Reg.ZN_HANG_CNT_BANK_ISO, .reg Reg.ZN_LAUNCH_FRAME_HI, .reg Reg.ZN_LAUNCH_FRAME_LO, .reg Reg.ZN_UHT_CNT_CLEAR, .reg Reg.ZN_UHT_CNT_ECLIPSE, .reg Reg.ZN_UHT_CNT_HAZE, .reg Reg.ZN_UHT_CNT_OVERCAST, .reg Reg.ZN_UHT_CNT_SET] l = true)
    (h : Dev.SameBut l a d) : Dev.SameBut l a (Dev.resumeStop d) := by
  refine .step ?_ hs h
  unfold Dev.resumeStop
  repeat' first
    | simp +decide (maxDischargeDepth := 30) only [Dev.SameBut.refl, Dev.shiftSuspects_keeps, Dev.setZ_keeps, Dev.stopCommand_keeps, Dev.hEvent_keeps, Dev.stopDefer_keeps, Dev.SameBut.ite, Dev.SameBut.foldl, Dev.SameBut.upd, Dev.SameBut.upd', true_or, or_true, and_self]
    | split
    | refine Dev.SameBut.foldl (fun _ _ => ?_) ?_

theorem Dev.lastSet_keeps (x1) (x2) (x3)
    (hs : Part.sub [.wisps] l = true)
    (h : Dev.SameBut l a d) : Dev.SameBut l a (Dev.lastSet d x1 x2 x3) := by
  refine .step ?_ hs h
  unfold Dev.lastSet
  repeat' first
    | simp +decide (maxDischargeDepth := 30) only [Dev.SameBut.refl, Dev.modWisp_keeps, Dev.SameBut.ite]
    | split

theorem Dev.rejoin_keeps (x1) (x2) (x3)
    (hs : Part.sub [.banks, .wisps, .reg Reg.ZN_STOP_LOST] l = true)
    (h : Dev.SameBut l a d) : Dev.SameBut l a (Dev.rejoin d x1 x2 x3) := by
  refine .step ?_ hs h
  unfold Dev.rejoin
  simp +decide (maxDischargeDepth := 30) only [Dev.SameBut.refl, Dev.modWisp_keeps, Dev.askCheck_keeps, Dev.present_keeps, Dev.SameBut.ite]

end Sys2Proof.Machine
end

