-- ==== Sys2Proof/Laws/KeepsUnits.lean ====
section
/-! SUPPORT. What each operation of debug, hangs, thermal, patterns, shutdown, protection, the image and the start can change:
one lemma an operation, in the form in which it composes. -/

-- One proof after another: in one text with every other file, a task for each would take a thread for each.
set_option Elab.async false

namespace Sys2Proof.Machine

set_option linter.unusedSimpArgs false
variable {l : List Part} {a d : Dev}

theorem Dev.modDump_keeps (x1) (x2)
    (hs : Part.sub [.dbg] l = true)
    (h : Dev.SameBut l a d) : Dev.SameBut l a (Dev.modDump d x1 x2) := by
  refine .step ?_ hs h
  unfold Dev.modDump
  simp +decide (maxDischargeDepth := 30) only [Dev.SameBut.refl, Dev.SameBut.ite, Dev.SameBut.upd, Dev.SameBut.upd', true_or, or_true, and_self]

theorem Dev.skipSample_keeps (x1) (x2)
    (hs : Part.sub [.banks, .regs] l = true)
    (h : Dev.SameBut l a d) : Dev.SameBut l a (Dev.skipSample d x1 x2) := by
  refine .step ?_ hs h
  unfold Dev.skipSample
  simp +decide (maxDischargeDepth := 30) only [Dev.SameBut.refl, Dev.modBank_keeps, Dev.bumpZ_keeps, Dev.SameBut.ite, Part.sub_reg]

theorem Dev.markDue_keeps (x1) (x2)
    (hs : Part.sub [.banks, .dbg, .regs] l = true)
    (h : Dev.SameBut l a d) : Dev.SameBut l a (Dev.markDue d x1 x2) := by
  refine .step ?_ hs h
  unfold Dev.markDue
  repeat' first
    | simp +decide (maxDischargeDepth := 30) only [Dev.SameBut.refl, Dev.bumpZ_keeps, Dev.skipSample_keeps, Dev.SameBut.ite, Dev.SameBut.foldl, Dev.SameBut.upd, Dev.SameBut.upd', true_or, or_true, and_self, Part.sub_reg]
    | split
    | refine Dev.SameBut.foldl (fun _ _ => ?_) ?_

theorem Dev.periodicSamples_keeps
    (hs : Part.sub [.banks, .dbg, .regs] l = true)
    (h : Dev.SameBut l a d) : Dev.SameBut l a (Dev.periodicSamples d) := by
  refine .step ?_ hs h
  unfold Dev.periodicSamples
  repeat' first
    | simp +decide (maxDischargeDepth := 30) only [Dev.SameBut.refl, Dev.markDue_keeps, Dev.SameBut.ite, Dev.SameBut.foldl, Part.sub_reg]
    | split
    | refine Dev.SameBut.foldl (fun _ _ => ?_) ?_

theorem Dev.counterRead_keeps (x1) (x2) (x3)
    (hs : Part.sub [.port] l = true)
    (h : Dev.SameBut l a d) : Dev.SameBut l a (Dev.counterRead d x1 x2 x3) := by
  refine .step ?_ hs h
  unfold Dev.counterRead
  simp +decide (maxDischargeDepth := 30) only [Dev.SameBut.refl, Dev.modPath_keeps, Dev.SameBut.ite]

theorem Dev.traceTake_keeps (x1) (x2) (x3)
    (hs : Part.sub [.banks, .reg Reg.ZN_TRC_CNT_LOST] l = true)
    (h : Dev.SameBut l a d) : Dev.SameBut l a (Dev.traceTake d x1 x2 x3) := by
  refine .step ?_ hs h
  unfold Dev.traceTake
  simp +decide (maxDischargeDepth := 30) only [Dev.SameBut.refl, Dev.modBank_keeps, Dev.bumpZ_keeps, Dev.SameBut.ite]

theorem Dev.traceLoss_keeps (x1)
    (hs : Part.sub [.banks] l = true)
    (h : Dev.SameBut l a d) : Dev.SameBut l a (Dev.traceLoss d x1) := by
  refine .step ?_ hs h
  unfold Dev.traceLoss
  simp +decide (maxDischargeDepth := 30) only [Dev.SameBut.refl, Dev.modBank_keeps, Dev.SameBut.ite]

theorem Dev.brkOffer_keeps (x1) (x2) (x3)
    (hs : Part.sub [.dbg, .regs] l = true)
    (h : Dev.SameBut l a d) : Dev.SameBut l a (Dev.brkOffer d x1 x2 x3).1 := by
  refine .step ?_ hs h
  unfold Dev.brkOffer
  repeat' first
    | simp +decide (maxDischargeDepth := 30) only [Dev.SameBut.refl, Dev.setZf_keeps, Dev.SameBut.ite, Dev.SameBut.upd, Dev.SameBut.upd', true_or, or_true, and_self, Part.sub_reg]
    | split

theorem Dev.issue_keeps (x1) (x2)
    (hs : Part.sub [.dbg] l = true)
    (h : Dev.SameBut l a d) : Dev.SameBut l a (Dev.issue d x1 x2) := by
  refine .step ?_ hs h
  unfold Dev.issue
  simp +decide (maxDischargeDepth := 30) only [Dev.SameBut.refl, Dev.SameBut.ite, Dev.SameBut.upd, Dev.SameBut.upd', true_or, or_true, and_self]

theorem Dev.withhold_keeps (x1) (x2) (x3)
    (hs : Part.sub [.banks] l = true)
    (h : Dev.SameBut l a d) : Dev.SameBut l a (Dev.withhold d x1 x2 x3) := by
  refine .step ?_ hs h
  unfold Dev.withhold
  simp +decide (maxDischargeDepth := 30) only [Dev.SameBut.refl, Dev.modBank_keeps, Dev.SameBut.ite]

theorem Dev.meetBrks_keeps (x1) (x2)
    (hs : Part.sub [.banks, .dbg, .regs] l = true)
    (h : Dev.SameBut l a d) : Dev.SameBut l a (Dev.meetBrks d x1 x2) := by
  refine .step ?_ hs h
  unfold Dev.meetBrks
  extract_lets r
  have hr : Dev.SameBut [.banks, .dbg, .regs] d r.1 :=
    Dev.SameBut.foldl_fst (b := (d, false)) (fun _ _ => Dev.brkOffer_keeps _ _ _ (Eq.refl true) (.refl _ _)) (.refl _ _)
  split
  · exact Dev.withhold_keeps _ _ _ (Eq.refl true) hr
  · exact Dev.issue_keeps _ _ (Eq.refl true) hr

theorem Dev.drainContexts_keeps
    (hs : Part.sub [.ctxs] l = true)
    (h : Dev.SameBut l a d) : Dev.SameBut l a (Dev.drainContexts d) := by
  refine .step ?_ hs h
  unfold Dev.drainContexts
  simp +decide (maxDischargeDepth := 30) only [Dev.SameBut.refl, Dev.SameBut.ite, Dev.SameBut.upd, Dev.SameBut.upd', true_or, or_true, and_self]

theorem Dev.continueCtx_keeps (x1)
    (hs : Part.sub [.dbg] l = true)
    (h : Dev.SameBut l a d) : Dev.SameBut l a (Dev.continueCtx d x1) := by
  refine .step ?_ hs h
  unfold Dev.continueCtx
  simp +decide (maxDischargeDepth := 30) only [Dev.SameBut.refl, Dev.SameBut.ite, Dev.SameBut.upd, Dev.SameBut.upd', true_or, or_true, and_self]

theorem Dev.continueEvery_keeps
    (hs : Part.sub [.dbg] l = true)
    (h : Dev.SameBut l a d) : Dev.SameBut l a (Dev.continueEvery d) := by
  refine .step ?_ hs h
  unfold Dev.continueEvery
  simp +decide (maxDischargeDepth := 30) only [Dev.SameBut.refl, Dev.SameBut.ite, Dev.SameBut.upd, Dev.SameBut.upd', true_or, or_true, and_self]

theorem Dev.reissue_keeps (x1)
    (hs : Part.sub [.banks, .dbg, .regs] l = true)
    (h : Dev.SameBut l a d) : Dev.SameBut l a (Dev.reissue d x1) := by
  refine .step ?_ hs h
  unfold Dev.reissue
  repeat' first
    | simp +decide (maxDischargeDepth := 30) only [Dev.SameBut.refl, Dev.modBank_keeps, Dev.withhold_keeps, Dev.issue_keeps, Dev.meetBrks_keeps, Dev.SameBut.ite, Dev.SameBut.foldl, Part.sub_reg]
    | split
    | refine Dev.SameBut.foldl (fun _ _ => ?_) ?_

theorem Dev.releaseHalts_keeps
    (hs : Part.sub [.banks, .dbg, .regs] l = true)
    (h : Dev.SameBut l a d) : Dev.SameBut l a (Dev.releaseHalts d) := by
  refine .step ?_ hs h
  unfold Dev.releaseHalts
  repeat' first
    | simp +decide (maxDischargeDepth := 30) only [Dev.SameBut.refl, Dev.reissue_keeps, Dev.SameBut.ite, Dev.SameBut.foldl, Dev.SameBut.upd, Dev.SameBut.upd', true_or, or_true, and_self, Part.sub_reg]
    | split
    | refine Dev.SameBut.foldl (fun _ _ => ?_) ?_

theorem Dev.closeDebug_keeps
    (hs : Part.sub [.banks, .dbg, .regs] l = true)
    (h : Dev.SameBut l a d) : Dev.SameBut l a (Dev.closeDebug d) := by
  refine .step ?_ hs h
  unfold Dev.closeDebug
  repeat' first
    | simp +decide (maxDischargeDepth := 30) only [Dev.SameBut.refl, Dev.setZf_keeps, Dev.continueEvery_keeps, Dev.releaseHalts_keeps, Dev.SameBut.ite, Dev.SameBut.foldl, Dev.SameBut.upd, Dev.SameBut.upd', true_or, or_true, and_self, Part.sub_reg]
    | split
    | generalize hx : List.foldl _ _ _ = y
      have hy : Dev.SameBut [.banks, .dbg, .regs] d y := by
        rw [← hx]
        refine Dev.SameBut.foldl (fun _ _ => ?_) ?_ <;> repeat' first
          | simp +decide (maxDischargeDepth := 30) only [Dev.SameBut.refl, Dev.setZf_keeps, Dev.continueEvery_keeps, Dev.releaseHalts_keeps, Dev.SameBut.ite, Dev.SameBut.foldl, Dev.SameBut.upd, Dev.SameBut.upd', true_or, or_true, and_self, Part.sub_reg]
          | split
      clear hx
      simp +decide (maxDischargeDepth := 30) only [hy, Dev.SameBut.refl, Dev.setZf_keeps, Dev.continueEvery_keeps, Dev.releaseHalts_keeps, Dev.SameBut.ite, Dev.SameBut.foldl, Dev.SameBut.upd, Dev.SameBut.upd', true_or, or_true, and_self, Part.sub_reg]

theorem Dev.dumpResult_keeps (x1)
    (hs : Part.sub [.reg Reg.ZN_DMP_RES] l = true)
    (h : Dev.SameBut l a d) : Dev.SameBut l a (Dev.dumpResult d x1) := by
  refine .step ?_ hs h
  unfold Dev.dumpResult
  simp +decide (maxDischargeDepth := 30) only [Dev.SameBut.refl, Dev.setZf_keeps, Dev.SameBut.ite]

theorem Dev.dumpArm_keeps (x1)
    (hs : Part.sub [.dbg, .reg Reg.ZN_DBG_CNT_REJECT, .reg Reg.ZN_DMP_RES] l = true)
    (h : Dev.SameBut l a d) : Dev.SameBut l a (Dev.dumpArm d x1) := by
  refine .step ?_ hs h
  unfold Dev.dumpArm
  simp +decide (maxDischargeDepth := 30) only [Dev.SameBut.refl, Dev.dumpResult_keeps, Dev.bumpZ_keeps, Dev.modDump_keeps, Dev.SameBut.ite]

theorem Dev.dumpCancel_keeps (x1)
    (hs : Part.sub [.dbg, .reg Reg.ZN_DMP_RES] l = true)
    (h : Dev.SameBut l a d) : Dev.SameBut l a (Dev.dumpCancel d x1) := by
  refine .step ?_ hs h
  unfold Dev.dumpCancel
  simp +decide (maxDischargeDepth := 30) only [Dev.SameBut.refl, Dev.dumpResult_keeps, Dev.modDump_keeps, Dev.SameBut.ite]

theorem Dev.startGraph_keeps
    (hs : Part.sub [.dbg] l = true)
    (h : Dev.SameBut l a d) : Dev.SameBut l a (Dev.startGraph d) := by
  refine .step ?_ hs h
  unfold Dev.startGraph
  simp +decide (maxDischargeDepth := 30) only [Dev.SameBut.refl, Dev.SameBut.ite, Dev.SameBut.upd, Dev.SameBut.upd', true_or, or_true, and_self]

theorem Dev.retractNow_keeps (x1)
    (hs : Part.sub [.ctxs, .hz, .reg Reg.ZN_HZ_CNT_COMMIT_OUT, .reg Reg.ZN_HZ_CNT_RETRACT_OUT] l = true)
    (h : Dev.SameBut l a d) : Dev.SameBut l a (Dev.retractNow d x1) := by
  refine .step ?_ hs h
  unfold Dev.retractNow
  repeat' first
    | simp +decide (maxDischargeDepth := 30) only [Dev.SameBut.refl, Dev.modCtx_keeps, Dev.tokenOut_keeps, Dev.SameBut.ite, Dev.SameBut.upd, Dev.SameBut.upd', true_or, or_true, and_self]
    | split

theorem Dev.exposeNow_keeps (x1)
    (hs : Part.sub [.afsin, .ctxs, .hz, .reg Reg.ZN_AFS_CNT_LOST, .reg Reg.ZN_AFS_CNT_SENT, .reg Reg.ZN_HZ_CNT_EXPOSE_OUT] l = true)
    (h : Dev.SameBut l a d) : Dev.SameBut l a (Dev.exposeNow d x1) := by
  refine .step ?_ hs h
  unfold Dev.exposeNow
  simp +decide (maxDischargeDepth := 30) only [Dev.SameBut.refl, Dev.emitExpose_keeps, Dev.expose_keeps, Dev.SameBut.ite]

theorem Dev.endDebug_keeps
    (hs : Part.sub [.dbg, .regs] l = true)
    (h : Dev.SameBut l a d) : Dev.SameBut l a (Dev.endDebug d) := by
  refine .step ?_ hs h
  unfold Dev.endDebug
  repeat' first
    | simp +decide (maxDischargeDepth := 30) only [Dev.SameBut.refl, Dev.setZf_keeps, Dev.SameBut.ite, Dev.SameBut.foldl, Dev.SameBut.upd, Dev.SameBut.upd', true_or, or_true, and_self, Part.sub_reg]
    | split
    | generalize hx : List.foldl _ _ _ = y
      have hy : Dev.SameBut [.dbg, .regs] d y := by
        rw [← hx]
        refine Dev.SameBut.foldl (fun _ _ => ?_) ?_ <;> repeat' first
          | simp +decide (maxDischargeDepth := 30) only [Dev.SameBut.refl, Dev.setZf_keeps, Dev.SameBut.ite, Dev.SameBut.foldl, Dev.SameBut.upd, Dev.SameBut.upd', true_or, or_true, and_self, Part.sub_reg]
      clear hx
      simp +decide (maxDischargeDepth := 30) only [hy, Dev.SameBut.refl, Dev.setZf_keeps, Dev.SameBut.ite, Dev.SameBut.foldl, Dev.SameBut.upd, Dev.SameBut.upd', true_or, or_true, and_self, Part.sub_reg]

theorem Dev.chipReset_keeps (x1)
    (hs : Part.sub [.afsin, .aon, .ctxs, .dbg, .hang, .hz, .jnl, .prot, .regs] l = true)
    (h : Dev.SameBut l a d) : Dev.SameBut l a (Dev.chipReset d x1) := by
  refine .step ?_ hs h
  unfold Dev.chipReset
  split
  · exact .refl _ _
  · refine Dev.endDebug_keeps (Eq.refl true) (Dev.eventNotice_keeps _ _ _ _ _ _ _ _ _ (Eq.refl true) (Dev.zEvent_keeps _ _ _ _ _ _ _ (Eq.refl true) ?_))
    refine Dev.SameBut.foldl (fun _ _ => Dev.exposeNow_keeps _ (Eq.refl true) (.refl _ _)) ?_
    refine Dev.SameBut.foldl (fun _ _ => Dev.retractNow_keeps _ (Eq.refl true) (.refl _ _)) ?_
    simp +decide (maxDischargeDepth := 30) only [Dev.SameBut.refl, Dev.SameBut.ite, Dev.SameBut.upd, Dev.SameBut.upd', true_or, or_true, and_self]

theorem Dev.hangRecord_keeps (x1) (x2) (x3) (x4)
    (hs : Part.sub [.afsin, .ctxs, .dbg, .jnl, .regs] l = true)
    (h : Dev.SameBut l a d) : Dev.SameBut l a (Dev.hangRecord d x1 x2 x3 x4) := by
  refine .step ?_ hs h
  unfold Dev.hangRecord
  simp +decide (maxDischargeDepth := 30) only [Dev.SameBut.refl, Dev.bumpZ_keeps, Dev.setZ_keeps, Dev.recNotice_keeps, Dev.zEvent_keeps, Dev.modCtx_keeps, Dev.SameBut.ite, Dev.SameBut.upd, Dev.SameBut.upd', true_or, or_true, and_self, Part.sub_reg]

theorem Dev.modIncident_keeps (x1) (x2) (x3)
    (hs : Part.sub [.hang] l = true)
    (h : Dev.SameBut l a d) : Dev.SameBut l a (Dev.modIncident d x1 x2 x3) := by
  refine .step ?_ hs h
  unfold Dev.modIncident
  simp +decide (maxDischargeDepth := 30) only [Dev.SameBut.refl, Dev.SameBut.ite, Dev.SameBut.upd, Dev.SameBut.upd', true_or, or_true, and_self]

theorem Dev.afterCapture_keeps (x1) (x2) (x3)
    (hs : Part.sub [.hang] l = true)
    (h : Dev.SameBut l a d) : Dev.SameBut l a (Dev.afterCapture d x1 x2 x3) := by
  refine .step ?_ hs h
  unfold Dev.afterCapture
  simp +decide (maxDischargeDepth := 30) only [Dev.SameBut.refl, Dev.modIncident_keeps, Dev.SameBut.ite, Dev.SameBut.upd, Dev.SameBut.upd', true_or, or_true, and_self]

theorem Dev.openIncident_keeps (x1) (x2) (x3) (x4) (x5)
    (hs : Part.sub [.hang] l = true)
    (h : Dev.SameBut l a d) : Dev.SameBut l a (Dev.openIncident d x1 x2 x3 x4 x5) := by
  refine .step ?_ hs h
  unfold Dev.openIncident
  simp +decide (maxDischargeDepth := 30) only [Dev.SameBut.refl, Dev.afterCapture_keeps, Dev.SameBut.ite, Dev.SameBut.upd, Dev.SameBut.upd', true_or, or_true, and_self]

theorem Dev.hang__keeps (x1) (x2) (x3)
    (hs : Part.sub [.afsin, .ctxs, .dbg, .hang, .health, .hz, .jnl, .regs, .wisps] l = true)
    (h : Dev.SameBut l a d) : Dev.SameBut l a (Dev.hang_ d x1 x2 x3) := by
  refine .step ?_ hs h
  unfold Dev.hang_
  repeat' first
    | simp +decide (maxDischargeDepth := 30) only [Dev.SameBut.refl, Dev.setDue_keeps, Dev.hangRecord_keeps, Dev.failIn_keeps, Dev.openIncident_keeps, Dev.SameBut.ite, Dev.SameBut.foldl, Part.sub_reg]
    | split
    | generalize hx : List.foldl _ _ _ = y
      have hy : Dev.SameBut [.afsin, .ctxs, .dbg, .hang, .health, .hz, .jnl, .regs, .wisps] d y := by
        rw [← hx]
        refine Dev.SameBut.foldl (fun _ _ => ?_) ?_ <;> repeat' first
          | simp +decide (maxDischargeDepth := 30) only [Dev.SameBut.refl, Dev.setDue_keeps, Dev.hangRecord_keeps, Dev.failIn_keeps, Dev.openIncident_keeps, Dev.SameBut.ite, Dev.SameBut.foldl, Part.sub_reg]
      clear hx
      simp +decide (maxDischargeDepth := 30) only [hy, Dev.SameBut.refl, Dev.setDue_keeps, Dev.hangRecord_keeps, Dev.failIn_keeps, Dev.openIncident_keeps, Dev.SameBut.ite, Dev.SameBut.foldl, Part.sub_reg]

theorem Dev.endCapture_keeps (x1) (x2)
    (hs : Part.sub [.hang, .reg Reg.ZN_HANG_CNT_CAPLOST] l = true)
    (h : Dev.SameBut l a d) : Dev.SameBut l a (Dev.endCapture d x1 x2) := by
  refine .step ?_ hs h
  unfold Dev.endCapture
  repeat' first
    | simp +decide (maxDischargeDepth := 30) only [Dev.SameBut.refl, Dev.afterCapture_keeps, Dev.addZ_keeps, Dev.SameBut.ite]
    | split

theorem Dev.endCaptures_keeps
    (hs : Part.sub [.hang, .reg Reg.ZN_HANG_CNT_CAPLOST] l = true)
    (h : Dev.SameBut l a d) : Dev.SameBut l a (Dev.endCaptures d) := by
  refine .step ?_ hs h
  unfold Dev.endCaptures
  repeat' first
    | simp +decide (maxDischargeDepth := 30) only [Dev.SameBut.refl, Dev.endCapture_keeps, Dev.SameBut.ite, Dev.SameBut.foldl]
    | split
    | refine Dev.SameBut.foldl (fun _ _ => ?_) ?_

theorem Dev.requestResets_keeps
    (hs : Part.sub [.hang, .jnl] l = true)
    (h : Dev.SameBut l a d) : Dev.SameBut l a (Dev.requestResets d) := by
  refine .step ?_ hs h
  unfold Dev.requestResets
  repeat' first
    | simp +decide (maxDischargeDepth := 30) only [Dev.SameBut.refl, Dev.modIncident_keeps, Dev.zEvent_keeps, Dev.SameBut.ite, Dev.SameBut.foldl, Dev.SameBut.upd, Dev.SameBut.upd', true_or, or_true, and_self]
    | split
    | refine Dev.SameBut.foldl (fun _ _ => ?_) ?_

theorem Dev.recovResult_keeps (x1)
    (hs : Part.sub [.reg Reg.ZN_RECOV_STAT] l = true)
    (h : Dev.SameBut l a d) : Dev.SameBut l a (Dev.recovResult d x1) := by
  refine .step ?_ hs h
  unfold Dev.recovResult
  simp +decide (maxDischargeDepth := 30) only [Dev.SameBut.refl, Dev.setZf_keeps, Dev.SameBut.ite]

theorem Dev.recovCmd_keeps (x1) (x2)
    (hs : Part.sub [.reg Reg.ZN_RECOV_STAT] l = true)
    (hf : ∀ e, Dev.SameBut l e (x2 e))
    (h : Dev.SameBut l a d) : Dev.SameBut l a (Dev.recovCmd d x1 x2) := by
  unfold Dev.recovCmd
  split
  · exact Dev.recovResult_keeps _ hs h
  · exact h.trans (hf d)

theorem Dev.recover_keeps
    (hs : Part.sub [.hang, .reg Reg.ZN_RECOV_STAT] l = true)
    (h : Dev.SameBut l a d) : Dev.SameBut l a (Dev.recover d) := by
  refine .step ?_ hs h
  unfold Dev.recover
  repeat' first
    | simp +decide (maxDischargeDepth := 30) only [Dev.SameBut.refl, Dev.recovResult_keeps, Dev.afterCapture_keeps, Dev.modIncident_keeps, Dev.SameBut.ite]
    | split

theorem Dev.dropRequest_keeps (x1)
    (hs : Part.sub [.hang] l = true)
    (h : Dev.SameBut l a d) : Dev.SameBut l a (Dev.dropRequest d x1) := by
  refine .step ?_ hs h
  unfold Dev.dropRequest
  simp +decide (maxDischargeDepth := 30) only [Dev.SameBut.refl, Dev.SameBut.ite, Dev.SameBut.upd, Dev.SameBut.upd', true_or, or_true, and_self]

theorem Dev.recovered_keeps (x1)
    (hs : Part.sub [.banks, .ctxs, .hang, .jnl, .wisps, .reg Reg.ZN_HANG_CNT_RECOVERED] l = true)
    (h : Dev.SameBut l a d) : Dev.SameBut l a (Dev.recovered d x1) := by
  refine .step ?_ hs h
  unfold Dev.recovered
  refine Dev.zEvent_keeps _ _ _ _ _ _ _ (Eq.refl true) (Dev.bumpZ_keeps _ (Eq.refl true) (Dev.dropRequest_keeps _ (Eq.refl true)
    (Dev.modIncident_keeps _ _ _ (Eq.refl true) ?_)))
  refine Dev.SameBut.foldl (fun _ _ => Dev.modCtx_keeps _ _ (Eq.refl true) (.refl _ _)) ?_
  exact Dev.SameBut.foldl (fun _ _ => Dev.discard_keeps _ _ _ (Eq.refl true) (.refl _ _)) (.refl _ _)

theorem Dev.recovTimeout_keeps (x1)
    (hs : Part.sub [.afsin, .aon, .ctxs, .dbg, .hang, .hz, .jnl, .prot, .regs] l = true)
    (h : Dev.SameBut l a d) : Dev.SameBut l a (Dev.recovTimeout d x1) := by
  refine .step ?_ hs h
  unfold Dev.recovTimeout
  simp +decide (maxDischargeDepth := 30) only [Dev.SameBut.refl, Dev.modIncident_keeps, Dev.chipReset_keeps, Dev.zEvent_keeps, Dev.bumpZ_keeps, Dev.dropRequest_keeps, Dev.SameBut.ite, Part.sub_reg]

theorem Dev.windowNeighbour_keeps (x1) (x2)
    (hs : Part.sub [.afsin, .ctxs, .dbg, .hang, .health, .hz, .jnl, .regs, .wisps] l = true)
    (h : Dev.SameBut l a d) : Dev.SameBut l a (Dev.windowNeighbour d x1 x2) := by
  refine .step ?_ hs h
  unfold Dev.windowNeighbour
  simp +decide (maxDischargeDepth := 30) only [Dev.SameBut.refl, Dev.hang__keeps, Dev.modCtx_keeps, Dev.SameBut.ite, Part.sub_reg]

theorem Dev.closeIncident_keeps (x1)
    (hs : Part.sub [.hang] l = true)
    (h : Dev.SameBut l a d) : Dev.SameBut l a (Dev.closeIncident d x1) := by
  refine .step ?_ hs h
  unfold Dev.closeIncident
  simp +decide (maxDischargeDepth := 30) only [Dev.SameBut.refl, Dev.SameBut.ite, Dev.SameBut.upd, Dev.SameBut.upd', true_or, or_true, and_self]

theorem Dev.cmdAnvReset_keeps (x1)
    (hs : Part.sub [.banks, .jnl, .reg Reg.ZN_HANG_CNT_ANV_RESET, .reg Reg.ZN_RECOV_STAT, .reg Reg.ZN_STOP_LOST] l = true)
    (h : Dev.SameBut l a d) : Dev.SameBut l a (Dev.cmdAnvReset d x1) := by
  refine .step ?_ hs h
  unfold Dev.cmdAnvReset
  simp +decide (maxDischargeDepth := 30) only [Dev.SameBut.refl, Dev.recovResult_keeps, Dev.startAnvilReset_keeps, Dev.SameBut.ite]

theorem Dev.anvilResetFailed_keeps (x1)
    (hs : Part.sub [.afsin, .banks, .clock, .ctxs, .health, .jnl, .pat, .wisps, .reg Reg.ZN_AFS_CNT_LOST, .reg Reg.ZN_AFS_CNT_SENT, .reg Reg.ZN_HANG_CNT_ANV_ISO, .reg Reg.ZN_HANG_CNT_BANK_ISO, .reg Reg.ZN_UHT_CNT_CLEAR, .reg Reg.ZN_UHT_CNT_ECLIPSE, .reg Reg.ZN_UHT_CNT_HAZE, .reg Reg.ZN_UHT_CNT_OVERCAST, .reg Reg.ZN_UHT_CNT_SET] l = true)
    (h : Dev.SameBut l a d) : Dev.SameBut l a (Dev.anvilResetFailed d x1) := by
  refine .step ?_ hs h
  unfold Dev.anvilResetFailed
  simp +decide (maxDischargeDepth := 30) only [Dev.SameBut.refl, Dev.modBank_keeps, Dev.isolateAnvil_keeps, Dev.SameBut.ite]

theorem Dev.isolationRecord_keeps (x1) (x2) (x3)
    (hs : Part.sub [.banks, .reg Reg.ZN_STOP_LOST] l = true)
    (h : Dev.SameBut l a d) : Dev.SameBut l a (Dev.isolationRecord d x1 x2 x3) := by
  refine .step ?_ hs h
  unfold Dev.isolationRecord
  simp +decide (maxDischargeDepth := 30) only [Dev.SameBut.refl, Dev.bankEvent_keeps, Dev.SameBut.ite]

theorem Dev.anvilBack_keeps (x1)
    (hs : Part.sub [.afsin, .banks, .clock, .ctxs, .health, .jnl, .pat, .wisps, .reg Reg.ZN_AFS_CNT_LOST, .reg Reg.ZN_AFS_CNT_SENT, .reg Reg.ZN_HANG_CNT_ANV_ISO, .reg Reg.ZN_HANG_CNT_BANK_ISO, .reg Reg.ZN_STOP_LOST, .reg Reg.ZN_UHT_CNT_CLEAR, .reg Reg.ZN_UHT_CNT_ECLIPSE, .reg Reg.ZN_UHT_CNT_HAZE, .reg Reg.ZN_UHT_CNT_OVERCAST, .reg Reg.ZN_UHT_CNT_SET] l = true)
    (h : Dev.SameBut l a d) : Dev.SameBut l a (Dev.anvilBack d x1) := by
  refine .step ?_ hs h
  unfold Dev.anvilBack
  repeat' first
    | simp +decide (maxDischargeDepth := 30) only [Dev.SameBut.refl, Dev.modBank_keeps, Dev.isolationRecord_keeps, Dev.hEvent_keeps, Dev.SameBut.ite]
    | split

theorem Dev.cmdBankReset_keeps (x1)
    (hs : Part.sub [.banks, .dbg, .jnl, .wisps, .reg Reg.ZN_HANG_CNT_BANKLOST, .reg Reg.ZN_HANG_CNT_BANK_RESET, .reg Reg.ZN_RECOV_STAT] l = true)
    (h : Dev.SameBut l a d) : Dev.SameBut l a (Dev.cmdBankReset d x1) := by
  refine .step ?_ hs h
  unfold Dev.cmdBankReset
  simp +decide (maxDischargeDepth := 30) only [Dev.SameBut.refl, Dev.recovResult_keeps, Dev.startBankReset_keeps, Dev.SameBut.ite]

theorem Dev.bankBack_keeps (x1)
    (hs : Part.sub [.afsin, .banks, .clock, .ctxs, .health, .jnl, .pat, .wisps, .reg Reg.ZN_AFS_CNT_LOST, .reg Reg.ZN_AFS_CNT_SENT, .reg Reg.ZN_HANG_CNT_ANV_ISO, .reg Reg.ZN_HANG_CNT_BANK_ISO, .reg Reg.ZN_STOP_LOST, .reg Reg.ZN_UHT_CNT_CLEAR, .reg Reg.ZN_UHT_CNT_ECLIPSE, .reg Reg.ZN_UHT_CNT_HAZE, .reg Reg.ZN_UHT_CNT_OVERCAST, .reg Reg.ZN_UHT_CNT_SET] l = true)
    (h : Dev.SameBut l a d) : Dev.SameBut l a (Dev.bankBack d x1) := by
  refine .step ?_ hs h
  unfold Dev.bankBack
  repeat' first
    | simp +decide (maxDischargeDepth := 30) only [Dev.SameBut.refl, Dev.modBank_keeps, Dev.isolationRecord_keeps, Dev.hEvent_keeps, Dev.SameBut.ite, Dev.SameBut.foldl, Dev.SameBut.upd, Dev.SameBut.upd', true_or, or_true, and_self]
    | split
    | generalize hx : List.foldl _ _ _ = y
      have hy : Dev.SameBut [.afsin, .banks, .clock, .ctxs, .health, .jnl, .pat, .wisps, .reg Reg.ZN_AFS_CNT_LOST, .reg Reg.ZN_AFS_CNT_SENT, .reg Reg.ZN_HANG_CNT_ANV_ISO, .reg Reg.ZN_HANG_CNT_BANK_ISO, .reg Reg.ZN_STOP_LOST, .reg Reg.ZN_UHT_CNT_CLEAR, .reg Reg.ZN_UHT_CNT_ECLIPSE, .reg Reg.ZN_UHT_CNT_HAZE, .reg Reg.ZN_UHT_CNT_OVERCAST, .reg Reg.ZN_UHT_CNT_SET] d y := by
        rw [← hx]
        refine Dev.SameBut.foldl (fun _ _ => ?_) ?_ <;> repeat' first
          | simp +decide (maxDischargeDepth := 30) only [Dev.SameBut.refl, Dev.modBank_keeps, Dev.isolationRecord_keeps, Dev.hEvent_keeps, Dev.SameBut.ite, Dev.SameBut.foldl, Dev.SameBut.upd, Dev.SameBut.upd', true_or, or_true, and_self]
          | split
      clear hx
      simp +decide (maxDischargeDepth := 30) only [hy, Dev.SameBut.refl, Dev.modBank_keeps, Dev.isolationRecord_keeps, Dev.hEvent_keeps, Dev.SameBut.ite, Dev.SameBut.foldl, Dev.SameBut.upd, Dev.SameBut.upd', true_or, or_true, and_self]

theorem Dev.takeReading_keeps (x1)
    (hs : Part.sub [.jnl, .thm] l = true)
    (h : Dev.SameBut l a d) : Dev.SameBut l a (Dev.takeReading d x1) := by
  refine .step ?_ hs h
  unfold Dev.takeReading
  simp +decide (maxDischargeDepth := 30) only [Dev.SameBut.refl, Dev.zEvent_keeps, Dev.SameBut.ite, Dev.SameBut.upd, Dev.SameBut.upd', true_or, or_true, and_self]

theorem Dev.takeEstimates_keeps
    (hs : Part.sub [.thm, .reg Reg.ZN_THM_CNT_NOEST] l = true)
    (h : Dev.SameBut l a d) : Dev.SameBut l a (Dev.takeEstimates d) := by
  refine .step ?_ hs h
  unfold Dev.takeEstimates
  simp +decide (maxDischargeDepth := 30) only [Dev.SameBut.refl, Dev.addZ_keeps, Dev.SameBut.ite, Dev.SameBut.foldl, Dev.SameBut.upd, Dev.SameBut.upd', true_or, or_true, and_self]

theorem Dev.judgeDiodes_keeps
    (hs : Part.sub [.jnl, .thm, .reg Reg.ZN_THM_CNT_DISAGREE] l = true)
    (h : Dev.SameBut l a d) : Dev.SameBut l a (Dev.judgeDiodes d) := by
  refine .step ?_ hs h
  unfold Dev.judgeDiodes
  repeat' first
    | simp +decide (maxDischargeDepth := 30) only [Dev.SameBut.refl, Dev.zEvent_keeps, Dev.bumpZ_keeps, Dev.SameBut.ite, Dev.SameBut.foldl, Dev.SameBut.upd, Dev.SameBut.upd', true_or, or_true, and_self]
    | split
    | refine Dev.SameBut.foldl (fun _ _ => ?_) ?_

theorem Dev.excursions_keeps (x1)
    (hs : Part.sub [.afsin, .jnl, .thm, .reg Reg.ZN_AFS_CNT_LOST, .reg Reg.ZN_AFS_CNT_SENT, .reg Reg.ZN_THM_CNT_EXCURSION] l = true)
    (h : Dev.SameBut l a d) : Dev.SameBut l a (Dev.excursions d x1) := by
  refine .step ?_ hs h
  unfold Dev.excursions
  repeat' first
    | simp +decide (maxDischargeDepth := 30) only [Dev.SameBut.refl, Dev.notice_keeps, Dev.zEvent_keeps, Dev.bumpZ_keeps, Dev.SameBut.ite, Dev.SameBut.foldl, Dev.SameBut.upd, Dev.SameBut.upd', true_or, or_true, and_self]
    | split
    | refine Dev.SameBut.foldl (fun _ _ => ?_) ?_

theorem Dev.setInterval_keeps
    (hs : Part.sub [.thm] l = true)
    (h : Dev.SameBut l a d) : Dev.SameBut l a (Dev.setInterval d) := by
  refine .step ?_ hs h
  unfold Dev.setInterval
  simp +decide (maxDischargeDepth := 30) only [Dev.SameBut.refl, Dev.SameBut.ite, Dev.SameBut.upd, Dev.SameBut.upd', true_or, or_true, and_self]

theorem Dev.decideEmergency_keeps (x1)
    (hs : Part.sub [.thm] l = true)
    (h : Dev.SameBut l a d) : Dev.SameBut l a (Dev.decideEmergency d x1) := by
  refine .step ?_ hs h
  unfold Dev.decideEmergency
  repeat' first
    | simp +decide (maxDischargeDepth := 30) only [Dev.SameBut.refl, Dev.SameBut.ite, Dev.SameBut.foldl, Dev.SameBut.upd, Dev.SameBut.upd', true_or, or_true, and_self]
    | split

theorem Dev.setHot_keeps
    (hs : Part.sub [.thm] l = true)
    (h : Dev.SameBut l a d) : Dev.SameBut l a (Dev.setHot d) := by
  refine .step ?_ hs h
  unfold Dev.setHot
  simp +decide (maxDischargeDepth := 30) only [Dev.SameBut.refl, Dev.SameBut.ite, Dev.SameBut.foldl, Dev.SameBut.upd, Dev.SameBut.upd', true_or, or_true, and_self]

theorem Dev.updateModel_keeps
    (hs : Part.sub [.afsin, .jnl, .thm, .reg Reg.ZN_AFS_CNT_LOST, .reg Reg.ZN_AFS_CNT_SENT, .reg Reg.ZN_THM_CNT_DISAGREE, .reg Reg.ZN_THM_CNT_EXCURSION, .reg Reg.ZN_THM_CNT_UPDATES] l = true)
    (h : Dev.SameBut l a d) : Dev.SameBut l a (Dev.updateModel d) := by
  refine .step ?_ hs h
  unfold Dev.updateModel
  simp +decide (maxDischargeDepth := 30) only [Dev.SameBut.refl, Dev.judgeDiodes_keeps, Dev.bumpZ_keeps, Dev.excursions_keeps, Dev.setInterval_keeps, Dev.setHot_keeps, Dev.decideEmergency_keeps, Dev.SameBut.ite, Dev.SameBut.foldl, Dev.SameBut.upd, Dev.SameBut.upd', true_or, or_true, and_self]

theorem Dev.thermalAlert_keeps (x1) (x2)
    (hs : Part.sub [.afsin, .jnl, .sd, .reg Reg.ZN_AFS_CNT_LOST, .reg Reg.ZN_AFS_CNT_SENT, .reg Reg.ZN_SD_STAT] l = true)
    (h : Dev.SameBut l a d) : Dev.SameBut l a (Dev.thermalAlert d x1 x2) := by
  refine .step ?_ hs h
  unfold Dev.thermalAlert
  simp +decide (maxDischargeDepth := 30) only [Dev.SameBut.refl, Dev.sdAbort_keeps, Dev.recNotice_keeps, Dev.zEvent_keeps, Dev.SameBut.ite]

theorem Dev.thermalTick_keeps
    (hs : Part.sub [.afsin, .aon, .banks, .clock, .ctxs, .health, .jnl, .pat, .sd, .thm, .wisps, .reg Reg.ZN_AFS_CNT_LOST, .reg Reg.ZN_AFS_CNT_SENT, .reg Reg.ZN_HANG_CNT_ANV_ISO, .reg Reg.ZN_HANG_CNT_BANK_ISO, .reg Reg.ZN_SD_STAT, .reg Reg.ZN_THM_CNT_THR_FRAMES, .reg Reg.ZN_UHT_CNT_CLEAR, .reg Reg.ZN_UHT_CNT_ECLIPSE, .reg Reg.ZN_UHT_CNT_HAZE, .reg Reg.ZN_UHT_CNT_OVERCAST, .reg Reg.ZN_UHT_CNT_SET] l = true)
    (h : Dev.SameBut l a d) : Dev.SameBut l a (Dev.thermalTick d) := by
  refine .step ?_ hs h
  unfold Dev.thermalTick
  extract_lets _ d1 _ d2 s3 s4 d3 s5 d4
  have h1 : Dev.SameBut [.afsin, .aon, .banks, .clock, .ctxs, .health, .jnl, .pat, .sd, .thm, .wisps, .reg Reg.ZN_AFS_CNT_LOST, .reg Reg.ZN_AFS_CNT_SENT, .reg Reg.ZN_HANG_CNT_ANV_ISO, .reg Reg.ZN_HANG_CNT_BANK_ISO, .reg Reg.ZN_SD_STAT, .reg Reg.ZN_THM_CNT_THR_FRAMES, .reg Reg.ZN_UHT_CNT_CLEAR, .reg Reg.ZN_UHT_CNT_ECLIPSE, .reg Reg.ZN_UHT_CNT_HAZE, .reg Reg.ZN_UHT_CNT_OVERCAST, .reg Reg.ZN_UHT_CNT_SET] d d1 := by
    simp only [d1]
    simp +decide (maxDischargeDepth := 30) only [Dev.SameBut.refl, Dev.SameBut.ite, Dev.SameBut.upd, Dev.SameBut.upd', true_or, or_true, and_self]
  have h2 : Dev.SameBut [.afsin, .aon, .banks, .clock, .ctxs, .health, .jnl, .pat, .sd, .thm, .wisps, .reg Reg.ZN_AFS_CNT_LOST, .reg Reg.ZN_AFS_CNT_SENT, .reg Reg.ZN_HANG_CNT_ANV_ISO, .reg Reg.ZN_HANG_CNT_BANK_ISO, .reg Reg.ZN_SD_STAT, .reg Reg.ZN_THM_CNT_THR_FRAMES, .reg Reg.ZN_UHT_CNT_CLEAR, .reg Reg.ZN_UHT_CNT_ECLIPSE, .reg Reg.ZN_UHT_CNT_HAZE, .reg Reg.ZN_UHT_CNT_OVERCAST, .reg Reg.ZN_UHT_CNT_SET] d d2 :=
    Dev.SameBut.foldl (fun _ _ => Dev.hEvent_keeps _ _ (Eq.refl true) (.refl _ _)) (by simp +decide (maxDischargeDepth := 30) only [Dev.SameBut.refl, Dev.SameBut.ite, Dev.SameBut.upd, Dev.SameBut.upd', true_or, or_true, and_self, h1])
  have h3 : Dev.SameBut [.afsin, .aon, .banks, .clock, .ctxs, .health, .jnl, .pat, .sd, .thm, .wisps, .reg Reg.ZN_AFS_CNT_LOST, .reg Reg.ZN_AFS_CNT_SENT, .reg Reg.ZN_HANG_CNT_ANV_ISO, .reg Reg.ZN_HANG_CNT_BANK_ISO, .reg Reg.ZN_SD_STAT, .reg Reg.ZN_THM_CNT_THR_FRAMES, .reg Reg.ZN_UHT_CNT_CLEAR, .reg Reg.ZN_UHT_CNT_ECLIPSE, .reg Reg.ZN_UHT_CNT_HAZE, .reg Reg.ZN_UHT_CNT_OVERCAST, .reg Reg.ZN_UHT_CNT_SET] d d3 := by
    simp only [d3]
    split
    · split
      · exact h2
      · simp +decide (maxDischargeDepth := 30) only [Dev.SameBut.refl, Dev.SameBut.ite, Dev.SameBut.upd, Dev.SameBut.upd', true_or, or_true, and_self, h2, Dev.thermalAlert_keeps, s3, s4]
    · exact h2
  have h4 : Dev.SameBut [.afsin, .aon, .banks, .clock, .ctxs, .health, .jnl, .pat, .sd, .thm, .wisps, .reg Reg.ZN_AFS_CNT_LOST, .reg Reg.ZN_AFS_CNT_SENT, .reg Reg.ZN_HANG_CNT_ANV_ISO, .reg Reg.ZN_HANG_CNT_BANK_ISO, .reg Reg.ZN_SD_STAT, .reg Reg.ZN_THM_CNT_THR_FRAMES, .reg Reg.ZN_UHT_CNT_CLEAR, .reg Reg.ZN_UHT_CNT_ECLIPSE, .reg Reg.ZN_UHT_CNT_HAZE, .reg Reg.ZN_UHT_CNT_OVERCAST, .reg Reg.ZN_UHT_CNT_SET] d d4 := by
    simp only [d4]
    split
    · simp +decide (maxDischargeDepth := 30) only [Dev.SameBut.refl, Dev.SameBut.ite, Dev.SameBut.upd, Dev.SameBut.upd', true_or, or_true, and_self, h3, Dev.thermalAlert_keeps, s5]
    · exact h3
  split
  · exact Dev.bumpZ_keeps _ (Eq.refl true) h4
  · exact h4

theorem Dev.startModel_keeps
    (hs : Part.sub [.thm] l = true)
    (h : Dev.SameBut l a d) : Dev.SameBut l a (Dev.startModel d) := by
  refine .step ?_ hs h
  unfold Dev.startModel
  simp +decide (maxDischargeDepth := 30) only [Dev.SameBut.refl, Dev.setInterval_keeps, Dev.SameBut.ite, Dev.SameBut.foldl, Dev.SameBut.upd, Dev.SameBut.upd', true_or, or_true, and_self]

theorem Dev.patResult_keeps (x1)
    (hs : Part.sub [.reg Reg.ZN_PAT_STAT] l = true)
    (h : Dev.SameBut l a d) : Dev.SameBut l a (Dev.patResult d x1) := by
  refine .step ?_ hs h
  unfold Dev.patResult
  simp +decide (maxDischargeDepth := 30) only [Dev.SameBut.refl, Dev.setZf_keeps, Dev.SameBut.ite]

theorem Dev.sendData_keeps
    (hs : Part.sub [.pat] l = true)
    (h : Dev.SameBut l a d) : Dev.SameBut l a (Dev.sendData d) := by
  refine .step ?_ hs h
  unfold Dev.sendData
  simp +decide (maxDischargeDepth := 30) only [Dev.SameBut.refl, Dev.SameBut.ite, Dev.SameBut.upd, Dev.SameBut.upd', true_or, or_true, and_self]

theorem Dev.channelTick_keeps
    (hs : Part.sub [.banks, .pat, .reg Reg.ZN_PAT_CNT_REPAIR] l = true)
    (h : Dev.SameBut l a d) : Dev.SameBut l a (Dev.channelTick d) := by
  refine .step ?_ hs h
  unfold Dev.channelTick
  repeat' first
    | simp +decide (maxDischargeDepth := 30) only [Dev.SameBut.refl, Dev.sendData_keeps, Dev.modBank_keeps, Dev.addZ_keeps, Dev.SameBut.ite, Dev.SameBut.foldl]
    | split
    | refine Dev.SameBut.foldl (fun _ _ => ?_) ?_

theorem Dev.channelPause_keeps
    (hs : Part.sub [.banks, .pat] l = true)
    (h : Dev.SameBut l a d) : Dev.SameBut l a (Dev.channelPause d) := by
  refine .step ?_ hs h
  unfold Dev.channelPause
  simp +decide (maxDischargeDepth := 30) only [Dev.SameBut.refl, Dev.SameBut.ite, Dev.SameBut.upd, Dev.SameBut.upd', true_or, or_true, and_self]

theorem Dev.patternMissing_keeps (x1)
    (hs : Part.sub [.afsin, .banks, .clock, .ctxs, .health, .jnl, .pat, .wisps, .reg Reg.ZN_AFS_CNT_LOST, .reg Reg.ZN_AFS_CNT_SENT, .reg Reg.ZN_HANG_CNT_ANV_ISO, .reg Reg.ZN_HANG_CNT_BANK_ISO, .reg Reg.ZN_UHT_CNT_CLEAR, .reg Reg.ZN_UHT_CNT_ECLIPSE, .reg Reg.ZN_UHT_CNT_HAZE, .reg Reg.ZN_UHT_CNT_OVERCAST, .reg Reg.ZN_UHT_CNT_SET] l = true)
    (h : Dev.SameBut l a d) : Dev.SameBut l a (Dev.patternMissing d x1) := by
  refine .step ?_ hs h
  unfold Dev.patternMissing
  simp +decide (maxDischargeDepth := 30) only [Dev.SameBut.refl, Dev.hEvent_keeps, Dev.modUht_keeps, Dev.SameBut.ite]

theorem Dev.startRepair_keeps (x1)
    (hs : Part.sub [.banks] l = true)
    (h : Dev.SameBut l a d) : Dev.SameBut l a (Dev.startRepair d x1) := by
  refine .step ?_ hs h
  unfold Dev.startRepair
  simp +decide (maxDischargeDepth := 30) only [Dev.SameBut.refl, Dev.modBank_keeps, Dev.addZ_keeps, Dev.SameBut.ite]

theorem Dev.sendImage_keeps (x1) (x2)
    (hs : Part.sub [.banks] l = true)
    (h : Dev.SameBut l a d) : Dev.SameBut l a (Dev.sendImage d x1 x2) := by
  refine .step ?_ hs h
  unfold Dev.sendImage
  simp +decide (maxDischargeDepth := 30) only [Dev.SameBut.refl, Dev.modBank_keeps, Dev.SameBut.ite]

theorem Dev.bankFinished_keeps (x1)
    (hs : Part.sub [.banks, .pat] l = true)
    (h : Dev.SameBut l a d) : Dev.SameBut l a (Dev.bankFinished d x1) := by
  refine .step ?_ hs h
  unfold Dev.bankFinished
  simp +decide (maxDischargeDepth := 30) only [Dev.SameBut.refl, Dev.modBank_keeps, Dev.SameBut.ite, Dev.SameBut.upd, Dev.SameBut.upd', true_or, or_true, and_self]

theorem Dev.startRound_keeps
    (hs : Part.sub [.banks, .pat, .wisps, .reg Reg.ZN_PAT_CNT_ROUNDS] l = true)
    (h : Dev.SameBut l a d) : Dev.SameBut l a (Dev.startRound d) := by
  refine .step ?_ hs h
  unfold Dev.startRound
  simp +decide (maxDischargeDepth := 30) only [Dev.SameBut.refl, Dev.bumpZ_keeps, Dev.modBanks_keeps, Dev.SameBut.ite, Dev.SameBut.foldl, Dev.SameBut.upd, Dev.SameBut.upd', true_or, or_true, and_self]

theorem Dev.startRetry_keeps
    (hs : Part.sub [.banks, .pat, .wisps, .reg Reg.ZN_PAT_CNT_ROUNDS] l = true)
    (h : Dev.SameBut l a d) : Dev.SameBut l a (Dev.startRetry d) := by
  refine .step ?_ hs h
  unfold Dev.startRetry
  extract_lets units banks _ d1 d2
  have h1 : Dev.SameBut [.banks, .pat, .wisps, .reg Reg.ZN_PAT_CNT_ROUNDS] d d1 := by
    simp only [d1]
    simp +decide (maxDischargeDepth := 30) only [Dev.SameBut.refl, Dev.SameBut.upd, true_or, or_true, and_self]
  refine Dev.SameBut.foldl (fun _ _ => Dev.startRepair_keeps _ (Eq.refl true) (.refl _ _)) (Dev.bumpZ_keeps _ (Eq.refl true) ?_)
  refine Dev.SameBut.foldl (fun _ _ => Dev.modWisp_keeps _ _ _ (Eq.refl true) (.refl _ _)) ?_
  exact Dev.SameBut.foldl (fun _ _ => Dev.modWisp_keeps _ _ _ (Eq.refl true) (.refl _ _)) h1

theorem Dev.installPackage_keeps (x1)
    (hs : Part.sub [.aon, .pat, .reg Reg.ZN_PAT_CNT_INSTALL] l = true)
    (h : Dev.SameBut l a d) : Dev.SameBut l a (Dev.installPackage d x1) := by
  refine .step ?_ hs h
  unfold Dev.installPackage
  simp +decide (maxDischargeDepth := 30) only [Dev.SameBut.refl, Dev.bumpZ_keeps, Dev.SameBut.ite, Dev.SameBut.upd, Dev.SameBut.upd', true_or, or_true, and_self]

theorem Dev.startSlotWrite_keeps
    (hs : Part.sub [.pat, .reg Reg.ZN_PAT_STAT] l = true)
    (h : Dev.SameBut l a d) : Dev.SameBut l a (Dev.startSlotWrite d) := by
  refine .step ?_ hs h
  unfold Dev.startSlotWrite
  simp +decide (maxDischargeDepth := 30) only [Dev.SameBut.refl, Dev.patResult_keeps, Dev.SameBut.ite, Dev.SameBut.upd, Dev.SameBut.upd', true_or, or_true, and_self]

theorem Dev.stagePackage_keeps (x1)
    (hs : Part.sub [.pat, .reg Reg.ZN_PAT_STAT] l = true)
    (h : Dev.SameBut l a d) : Dev.SameBut l a (Dev.stagePackage d x1).1 := by
  refine .step ?_ hs h
  unfold Dev.stagePackage
  repeat' first
    | simp +decide (maxDischargeDepth := 30) only [Dev.SameBut.refl, Dev.patResult_keeps, Dev.SameBut.ite, Dev.SameBut.upd, Dev.SameBut.upd', true_or, or_true, and_self]
    | split

theorem Dev.rebcast_keeps
    (hs : Part.sub [.banks, .pat, .wisps, .reg Reg.ZN_PAT_CNT_ROUNDS, .reg Reg.ZN_PAT_STAT] l = true)
    (h : Dev.SameBut l a d) : Dev.SameBut l a (Dev.rebcast d) := by
  refine .step ?_ hs h
  unfold Dev.rebcast
  simp +decide (maxDischargeDepth := 30) only [Dev.SameBut.refl, Dev.patResult_keeps, Dev.startRound_keeps, Dev.SameBut.ite]

theorem Dev.recheckImage_keeps (x1) (x2) (x3)
    (hs : Part.sub [.pat, .wisps] l = true)
    (h : Dev.SameBut l a d) : Dev.SameBut l a (Dev.recheckImage d x1 x2 x3) := by
  refine .step ?_ hs h
  unfold Dev.recheckImage
  simp +decide (maxDischargeDepth := 30) only [Dev.SameBut.refl, Dev.modWisp_keeps, Dev.SameBut.ite, Dev.SameBut.upd, Dev.SameBut.upd', true_or, or_true, and_self]

theorem Dev.firstCheck_keeps (x1) (x2) (x3)
    (hs : Part.sub [.afsin, .banks, .clock, .ctxs, .health, .jnl, .pat, .wisps, .reg Reg.ZN_AFS_CNT_LOST, .reg Reg.ZN_AFS_CNT_SENT, .reg Reg.ZN_HANG_CNT_ANV_ISO, .reg Reg.ZN_HANG_CNT_BANK_ISO, .reg Reg.ZN_UHT_CNT_CLEAR, .reg Reg.ZN_UHT_CNT_ECLIPSE, .reg Reg.ZN_UHT_CNT_HAZE, .reg Reg.ZN_UHT_CNT_OVERCAST, .reg Reg.ZN_UHT_CNT_SET] l = true)
    (h : Dev.SameBut l a d) : Dev.SameBut l a (Dev.firstCheck d x1 x2 x3) := by
  refine .step ?_ hs h
  unfold Dev.firstCheck
  simp +decide (maxDischargeDepth := 30) only [Dev.SameBut.refl, Dev.hEvent_keeps, Dev.modWisp_keeps, Dev.SameBut.ite]

theorem Dev.roundTail_keeps (x1)
    (hs : Part.sub [.afsin, .banks, .clock, .ctxs, .health, .jnl, .pat, .wisps, .reg Reg.ZN_AFS_CNT_LOST, .reg Reg.ZN_AFS_CNT_SENT, .reg Reg.ZN_HANG_CNT_ANV_ISO, .reg Reg.ZN_HANG_CNT_BANK_ISO, .reg Reg.ZN_UHT_CNT_CLEAR, .reg Reg.ZN_UHT_CNT_ECLIPSE, .reg Reg.ZN_UHT_CNT_HAZE, .reg Reg.ZN_UHT_CNT_OVERCAST, .reg Reg.ZN_UHT_CNT_SET] l = true)
    (h : Dev.SameBut l a d) : Dev.SameBut l a (Dev.roundTail d x1) := by
  refine .step ?_ hs h
  unfold Dev.roundTail
  repeat' first
    | simp +decide (maxDischargeDepth := 30) only [Dev.SameBut.refl, Dev.bankFinished_keeps, Dev.startRepair_keeps, Dev.patternMissing_keeps, Dev.SameBut.ite, Dev.SameBut.foldl]
    | split
    | generalize hx : List.foldl _ _ _ = y
      have hy : Dev.SameBut [.afsin, .banks, .clock, .ctxs, .health, .jnl, .pat, .wisps, .reg Reg.ZN_AFS_CNT_LOST, .reg Reg.ZN_AFS_CNT_SENT, .reg Reg.ZN_HANG_CNT_ANV_ISO, .reg Reg.ZN_HANG_CNT_BANK_ISO, .reg Reg.ZN_UHT_CNT_CLEAR, .reg Reg.ZN_UHT_CNT_ECLIPSE, .reg Reg.ZN_UHT_CNT_HAZE, .reg Reg.ZN_UHT_CNT_OVERCAST, .reg Reg.ZN_UHT_CNT_SET] d y := by
        rw [← hx]
        refine Dev.SameBut.foldl (fun _ _ => ?_) ?_ <;> repeat' first
          | simp +decide (maxDischargeDepth := 30) only [Dev.SameBut.refl, Dev.bankFinished_keeps, Dev.startRepair_keeps, Dev.patternMissing_keeps, Dev.SameBut.ite, Dev.SameBut.foldl]
      clear hx
      simp +decide (maxDischargeDepth := 30) only [hy, Dev.SameBut.refl, Dev.bankFinished_keeps, Dev.startRepair_keeps, Dev.patternMissing_keeps, Dev.SameBut.ite, Dev.SameBut.foldl]

theorem Dev.lateTail_keeps (x1)
    (hs : Part.sub [.afsin, .banks, .clock, .ctxs, .health, .jnl, .pat, .wisps, .reg Reg.ZN_AFS_CNT_LOST, .reg Reg.ZN_AFS_CNT_SENT, .reg Reg.ZN_HANG_CNT_ANV_ISO, .reg Reg.ZN_HANG_CNT_BANK_ISO, .reg Reg.ZN_UHT_CNT_CLEAR, .reg Reg.ZN_UHT_CNT_ECLIPSE, .reg Reg.ZN_UHT_CNT_HAZE, .reg Reg.ZN_UHT_CNT_OVERCAST, .reg Reg.ZN_UHT_CNT_SET] l = true)
    (h : Dev.SameBut l a d) : Dev.SameBut l a (Dev.lateTail d x1) := by
  refine .step ?_ hs h
  unfold Dev.lateTail
  simp +decide (maxDischargeDepth := 30) only [Dev.SameBut.refl, Dev.sendImage_keeps, Dev.patternMissing_keeps, Dev.SameBut.ite, Dev.SameBut.upd, Dev.SameBut.upd', true_or, or_true, and_self]

theorem Dev.noPackage_keeps
    (hs : Part.sub [.afsin, .banks, .clock, .ctxs, .health, .jnl, .pat, .wisps, .reg Reg.ZN_AFS_CNT_LOST, .reg Reg.ZN_AFS_CNT_SENT, .reg Reg.ZN_HANG_CNT_ANV_ISO, .reg Reg.ZN_HANG_CNT_BANK_ISO, .reg Reg.ZN_UHT_CNT_CLEAR, .reg Reg.ZN_UHT_CNT_ECLIPSE, .reg Reg.ZN_UHT_CNT_HAZE, .reg Reg.ZN_UHT_CNT_OVERCAST, .reg Reg.ZN_UHT_CNT_SET] l = true)
    (h : Dev.SameBut l a d) : Dev.SameBut l a (Dev.noPackage d) := by
  refine .step ?_ hs h
  unfold Dev.noPackage
  repeat' first
    | simp +decide (maxDischargeDepth := 30) only [Dev.SameBut.refl, Dev.eventNotice_keeps, Dev.zEvent_keeps, Dev.patternMissing_keeps, Dev.SameBut.ite, Dev.SameBut.foldl]
    | split
    | refine Dev.SameBut.foldl (fun _ _ => ?_) ?_

theorem Dev.acceptCandidate_keeps (x1) (x2)
    (hs : Part.sub [.aon, .banks, .pat, .wisps, .reg Reg.ZN_PAT_CNT_INSTALL, .reg Reg.ZN_PAT_CNT_ROUNDS] l = true)
    (h : Dev.SameBut l a d) : Dev.SameBut l a (Dev.acceptCandidate d x1 x2) := by
  refine .step ?_ hs h
  unfold Dev.acceptCandidate
  simp +decide (maxDischargeDepth := 30) only [Dev.SameBut.refl, Dev.installPackage_keeps, Dev.startRound_keeps, Dev.SameBut.ite, Dev.SameBut.upd, Dev.SameBut.upd', true_or, or_true, and_self]

theorem Dev.tryCandidates_keeps (x1)
    (hs : Part.sub [.afsin, .aon, .banks, .clock, .ctxs, .health, .jnl, .pat, .wisps, .reg Reg.ZN_AFS_CNT_LOST, .reg Reg.ZN_AFS_CNT_SENT, .reg Reg.ZN_HANG_CNT_ANV_ISO, .reg Reg.ZN_HANG_CNT_BANK_ISO, .reg Reg.ZN_PAT_CNT_INSTALL, .reg Reg.ZN_PAT_CNT_ROUNDS, .reg Reg.ZN_UHT_CNT_CLEAR, .reg Reg.ZN_UHT_CNT_ECLIPSE, .reg Reg.ZN_UHT_CNT_HAZE, .reg Reg.ZN_UHT_CNT_OVERCAST, .reg Reg.ZN_UHT_CNT_SET] l = true)
    (h : Dev.SameBut l a d) : Dev.SameBut l a (Dev.tryCandidates d x1) := by
  refine Dev.SameBut.step (k := [.afsin, .aon, .banks, .clock, .ctxs, .health, .jnl, .pat, .wisps, .reg Reg.ZN_AFS_CNT_LOST, .reg Reg.ZN_AFS_CNT_SENT, .reg Reg.ZN_HANG_CNT_ANV_ISO, .reg Reg.ZN_HANG_CNT_BANK_ISO, .reg Reg.ZN_PAT_CNT_INSTALL, .reg Reg.ZN_PAT_CNT_ROUNDS, .reg Reg.ZN_UHT_CNT_CLEAR, .reg Reg.ZN_UHT_CNT_ECLIPSE, .reg Reg.ZN_UHT_CNT_HAZE, .reg Reg.ZN_UHT_CNT_OVERCAST, .reg Reg.ZN_UHT_CNT_SET]) ?_ hs h
  have key : ∀ n e, Dev.SameBut [.afsin, .aon, .banks, .clock, .ctxs, .health, .jnl, .pat, .wisps, .reg Reg.ZN_AFS_CNT_LOST, .reg Reg.ZN_AFS_CNT_SENT, .reg Reg.ZN_HANG_CNT_ANV_ISO, .reg Reg.ZN_HANG_CNT_BANK_ISO, .reg Reg.ZN_PAT_CNT_INSTALL, .reg Reg.ZN_PAT_CNT_ROUNDS, .reg Reg.ZN_UHT_CNT_CLEAR, .reg Reg.ZN_UHT_CNT_ECLIPSE, .reg Reg.ZN_UHT_CNT_HAZE, .reg Reg.ZN_UHT_CNT_OVERCAST, .reg Reg.ZN_UHT_CNT_SET] d e → Dev.SameBut [.afsin, .aon, .banks, .clock, .ctxs, .health, .jnl, .pat, .wisps, .reg Reg.ZN_AFS_CNT_LOST, .reg Reg.ZN_AFS_CNT_SENT, .reg Reg.ZN_HANG_CNT_ANV_ISO, .reg Reg.ZN_HANG_CNT_BANK_ISO, .reg Reg.ZN_PAT_CNT_INSTALL, .reg Reg.ZN_PAT_CNT_ROUNDS, .reg Reg.ZN_UHT_CNT_CLEAR, .reg Reg.ZN_UHT_CNT_ECLIPSE, .reg Reg.ZN_UHT_CNT_HAZE, .reg Reg.ZN_UHT_CNT_OVERCAST, .reg Reg.ZN_UHT_CNT_SET] d (e.tryCandidates n) := by
    intro n
    induction n with
    | zero => exact fun e he => he
    | succ n ih =>
      intro e he
      unfold Dev.tryCandidates
      split
      · exact Dev.noPackage_keeps (Eq.refl true) he
      split
      · exact he
      split
      · exact Dev.acceptCandidate_keeps _ _ (Eq.refl true) he
      · exact ih _ (by simp +decide (maxDischargeDepth := 30) only [Dev.SameBut.refl, Dev.SameBut.ite, Dev.SameBut.upd, Dev.SameBut.upd', true_or, or_true, and_self, he])
  exact key _ d (.refl _ _)

theorem Dev.startPackage_keeps
    (hs : Part.sub [.afsin, .aon, .banks, .clock, .ctxs, .health, .jnl, .pat, .wisps, .reg Reg.ZN_AFS_CNT_LOST, .reg Reg.ZN_AFS_CNT_SENT, .reg Reg.ZN_HANG_CNT_ANV_ISO, .reg Reg.ZN_HANG_CNT_BANK_ISO, .reg Reg.ZN_PAT_CNT_INSTALL, .reg Reg.ZN_PAT_CNT_ROUNDS, .reg Reg.ZN_UHT_CNT_CLEAR, .reg Reg.ZN_UHT_CNT_ECLIPSE, .reg Reg.ZN_UHT_CNT_HAZE, .reg Reg.ZN_UHT_CNT_OVERCAST, .reg Reg.ZN_UHT_CNT_SET] l = true)
    (h : Dev.SameBut l a d) : Dev.SameBut l a (Dev.startPackage d) := by
  refine .step ?_ hs h
  unfold Dev.startPackage
  simp +decide (maxDischargeDepth := 30) only [Dev.SameBut.refl, Dev.tryCandidates_keeps, Dev.SameBut.ite, Dev.SameBut.upd, Dev.SameBut.upd', true_or, or_true, and_self]

theorem Dev.sdResult_keeps (x1)
    (hs : Part.sub [.reg Reg.ZN_SD_STAT] l = true)
    (h : Dev.SameBut l a d) : Dev.SameBut l a (Dev.sdResult d x1) := by
  refine .step ?_ hs h
  unfold Dev.sdResult
  simp +decide (maxDischargeDepth := 30) only [Dev.SameBut.refl, Dev.setZf_keeps, Dev.SameBut.ite]

theorem Dev.startShutdown_keeps (x1)
    (hs : Part.sub [.banks, .regs, .sd] l = true)
    (h : Dev.SameBut l a d) : Dev.SameBut l a (Dev.startShutdown d x1).1 := by
  refine .step ?_ hs h
  unfold Dev.startShutdown
  repeat' first
    | simp +decide (maxDischargeDepth := 30) only [Dev.SameBut.refl, Dev.sdResult_keeps, Dev.modBanks_keeps, Dev.setZ_keeps, Dev.setZf_keeps, Dev.SameBut.ite, Dev.SameBut.foldl, Dev.SameBut.upd, Dev.SameBut.upd', true_or, or_true, and_self, Part.sub_reg]
    | split
    | generalize hx : List.foldl _ _ _ = y
      have hy : Dev.SameBut [.banks, .regs, .sd] d y := by
        rw [← hx]
        refine Dev.SameBut.foldl (fun _ _ => ?_) ?_ <;> repeat' first
          | simp +decide (maxDischargeDepth := 30) only [Dev.SameBut.refl, Dev.sdResult_keeps, Dev.modBanks_keeps, Dev.setZ_keeps, Dev.setZf_keeps, Dev.SameBut.ite, Dev.SameBut.foldl, Dev.SameBut.upd, Dev.SameBut.upd', true_or, or_true, and_self, Part.sub_reg]
          | split
      clear hx
      simp +decide (maxDischargeDepth := 30) only [hy, Dev.SameBut.refl, Dev.sdResult_keeps, Dev.modBanks_keeps, Dev.setZ_keeps, Dev.setZf_keeps, Dev.SameBut.ite, Dev.SameBut.foldl, Dev.SameBut.upd, Dev.SameBut.upd', true_or, or_true, and_self, Part.sub_reg]

theorem Dev.cancelShutdown_keeps
    (hs : Part.sub [.sd, .reg Reg.ZN_SD_STAT] l = true)
    (h : Dev.SameBut l a d) : Dev.SameBut l a (Dev.cancelShutdown d) := by
  refine .step ?_ hs h
  unfold Dev.cancelShutdown
  simp +decide (maxDischargeDepth := 30) only [Dev.SameBut.refl, Dev.sdResult_keeps, Dev.SameBut.ite, Dev.SameBut.upd, Dev.SameBut.upd', true_or, or_true, and_self]

theorem Dev.beginQuiesce_keeps
    (hs : Part.sub [.sd] l = true)
    (h : Dev.SameBut l a d) : Dev.SameBut l a (Dev.beginQuiesce d) := by
  refine .step ?_ hs h
  unfold Dev.beginQuiesce
  simp +decide (maxDischargeDepth := 30) only [Dev.SameBut.refl, Dev.SameBut.ite, Dev.SameBut.upd, Dev.SameBut.upd', true_or, or_true, and_self]

theorem Dev.recordsEnd_keeps
    (hs : Part.sub [.banks, .draws] l = true)
    (h : Dev.SameBut l a d) : Dev.SameBut l a (Dev.recordsEnd d) := by
  refine .step ?_ hs h
  unfold Dev.recordsEnd
  simp +decide (maxDischargeDepth := 30) only [Dev.SameBut.refl, Dev.modBanks_keeps, Dev.SameBut.ite, Dev.SameBut.upd, Dev.SameBut.upd', true_or, or_true, and_self, Dev.draw]

theorem Dev.destroyArrays_keeps
    (hs : Part.sub [.banks, .sd, .wisps] l = true)
    (h : Dev.SameBut l a d) : Dev.SameBut l a (Dev.destroyArrays d) := by
  refine .step ?_ hs h
  unfold Dev.destroyArrays
  simp +decide (maxDischargeDepth := 30) only [Dev.SameBut.refl, Dev.SameBut.ite, Dev.SameBut.upd, Dev.SameBut.upd', true_or, or_true, and_self]

theorem Dev.arrayFailed_keeps (x1)
    (hs : Part.sub [.afsin, .banks, .clock, .ctxs, .health, .jnl, .pat, .sd, .wisps, .reg Reg.ZN_AFS_CNT_LOST, .reg Reg.ZN_AFS_CNT_SENT, .reg Reg.ZN_HANG_CNT_ANV_ISO, .reg Reg.ZN_HANG_CNT_BANK_ISO, .reg Reg.ZN_SD_UNITS_FAIL, .reg Reg.ZN_UHT_CNT_CLEAR, .reg Reg.ZN_UHT_CNT_ECLIPSE, .reg Reg.ZN_UHT_CNT_HAZE, .reg Reg.ZN_UHT_CNT_OVERCAST, .reg Reg.ZN_UHT_CNT_SET] l = true)
    (h : Dev.SameBut l a d) : Dev.SameBut l a (Dev.arrayFailed d x1) := by
  refine .step ?_ hs h
  unfold Dev.arrayFailed
  repeat' first
    | simp +decide (maxDischargeDepth := 30) only [Dev.SameBut.refl, Dev.hEvent_keeps, Dev.modBank_keeps, Dev.setZf_keeps, Dev.SameBut.ite, Dev.SameBut.upd, Dev.SameBut.upd', true_or, or_true, and_self]
    | split

theorem Dev.setRepairs_keeps (x1) (x2) (x3)
    (hs : Part.sub [.banks, .jnl] l = true)
    (h : Dev.SameBut l a d) : Dev.SameBut l a (Dev.setRepairs d x1 x2 x3) := by
  refine .step ?_ hs h
  unfold Dev.setRepairs
  simp +decide (maxDischargeDepth := 30) only [Dev.SameBut.refl, Dev.modBank_keeps, Dev.jPush_keeps, Dev.SameBut.ite]

theorem Dev.repairRow_keeps (x1) (x2) (x3) (x4)
    (hs : Part.sub [.afsin, .banks, .clock, .ctxs, .health, .jnl, .pat, .sd, .wisps, .reg Reg.ZN_AFS_CNT_LOST, .reg Reg.ZN_AFS_CNT_SENT, .reg Reg.ZN_HANG_CNT_ANV_ISO, .reg Reg.ZN_HANG_CNT_BANK_ISO, .reg Reg.ZN_SD_ROWS, .reg Reg.ZN_SD_UNITS_FAIL, .reg Reg.ZN_UHT_CNT_CLEAR, .reg Reg.ZN_UHT_CNT_ECLIPSE, .reg Reg.ZN_UHT_CNT_HAZE, .reg Reg.ZN_UHT_CNT_OVERCAST, .reg Reg.ZN_UHT_CNT_SET] l = true)
    (h : Dev.SameBut l a d) : Dev.SameBut l a (Dev.repairRow d x1 x2 x3 x4) := by
  refine .step ?_ hs h
  unfold Dev.repairRow
  repeat' first
    | simp +decide (maxDischargeDepth := 30) only [Dev.SameBut.refl, Dev.setZf_keeps, Dev.arrayFailed_keeps, Dev.setRepairs_keeps, Dev.modBank_keeps, Dev.SameBut.ite, Dev.SameBut.upd, Dev.SameBut.upd', true_or, or_true, and_self]
    | split

theorem Dev.oneFailure_keeps (x1)
    (hs : Part.sub [.afsin, .banks, .clock, .ctxs, .health, .jnl, .pat, .sd, .wisps, .reg Reg.ZN_AFS_CNT_LOST, .reg Reg.ZN_AFS_CNT_SENT, .reg Reg.ZN_HANG_CNT_ANV_ISO, .reg Reg.ZN_HANG_CNT_BANK_ISO, .reg Reg.ZN_SD_ROWS, .reg Reg.ZN_SD_UNITS_FAIL, .reg Reg.ZN_UHT_CNT_CLEAR, .reg Reg.ZN_UHT_CNT_ECLIPSE, .reg Reg.ZN_UHT_CNT_HAZE, .reg Reg.ZN_UHT_CNT_OVERCAST, .reg Reg.ZN_UHT_CNT_SET] l = true)
    (h : Dev.SameBut l a d) : Dev.SameBut l a (Dev.oneFailure d x1) := by
  refine .step ?_ hs h
  unfold Dev.oneFailure
  repeat' first
    | simp +decide (maxDischargeDepth := 30) only [Dev.SameBut.refl, Dev.eventNotice_keeps, Dev.zEvent_keeps, Dev.repairRow_keeps, Dev.arrayFailed_keeps, Dev.SameBut.ite, Dev.SameBut.upd, Dev.SameBut.upd', true_or, or_true, and_self]
    | split

theorem Dev.launchGroup__keeps (x1)
    (hs : Part.sub [.banks, .health, .sd] l = true)
    (h : Dev.SameBut l a d) : Dev.SameBut l a (Dev.launchGroup_ d x1) := by
  refine .step ?_ hs h
  unfold Dev.launchGroup_
  repeat' first
    | simp +decide (maxDischargeDepth := 30) only [Dev.SameBut.refl, Dev.startTest_keeps, Dev.SameBut.ite, Dev.SameBut.foldl, Dev.SameBut.upd, Dev.SameBut.upd', true_or, or_true, and_self]
    | split
    | generalize hx : List.foldl _ _ _ = y
      have hy : Dev.SameBut [.banks, .health, .sd] d y := by
        rw [← hx]
        refine Dev.SameBut.foldl (fun _ _ => ?_) ?_ <;> repeat' first
          | simp +decide (maxDischargeDepth := 30) only [Dev.SameBut.refl, Dev.startTest_keeps, Dev.SameBut.ite, Dev.SameBut.foldl, Dev.SameBut.upd, Dev.SameBut.upd', true_or, or_true, and_self]
      clear hx
      simp +decide (maxDischargeDepth := 30) only [hy, Dev.SameBut.refl, Dev.startTest_keeps, Dev.SameBut.ite, Dev.SameBut.foldl, Dev.SameBut.upd, Dev.SameBut.upd', true_or, or_true, and_self]

theorem Dev.launchGroups_keeps
    (hs : Part.sub [.banks, .health, .sd] l = true)
    (h : Dev.SameBut l a d) : Dev.SameBut l a (Dev.launchGroups d) := by
  refine .step ?_ hs h
  unfold Dev.launchGroups
  repeat' first
    | simp +decide (maxDischargeDepth := 30) only [Dev.SameBut.refl, Dev.launchGroup__keeps, Dev.SameBut.ite, Dev.SameBut.foldl]
    | split
    | refine Dev.SameBut.foldl (fun _ _ => ?_) ?_

theorem Dev.enterCert_keeps
    (hs : Part.sub [.draws, .jnl, .sd] l = true)
    (h : Dev.SameBut l a d) : Dev.SameBut l a (Dev.enterCert d) := by
  refine .step ?_ hs h
  unfold Dev.enterCert
  simp +decide (maxDischargeDepth := 30) only [Dev.SameBut.refl, Dev.jPush_keeps, Dev.SameBut.ite, Dev.SameBut.upd, Dev.SameBut.upd', true_or, or_true, and_self, Dev.draw]

theorem Dev.nextFuse_keeps
    (hs : Part.sub [.draws, .jnl, .sd] l = true)
    (h : Dev.SameBut l a d) : Dev.SameBut l a (Dev.nextFuse d) := by
  refine .step ?_ hs h
  unfold Dev.nextFuse
  repeat' first
    | simp +decide (maxDischargeDepth := 30) only [Dev.SameBut.refl, Dev.enterCert_keeps, Dev.SameBut.ite, Dev.SameBut.upd, Dev.SameBut.upd', true_or, or_true, and_self]
    | split

theorem Dev.enterRepair_keeps
    (hs : Part.sub [.draws, .jnl, .sd] l = true)
    (h : Dev.SameBut l a d) : Dev.SameBut l a (Dev.enterRepair d) := by
  refine .step ?_ hs h
  unfold Dev.enterRepair
  repeat' first
    | simp +decide (maxDischargeDepth := 30) only [Dev.SameBut.refl, Dev.setZ_keeps, Dev.jPush_keeps, Dev.nextFuse_keeps, Dev.SameBut.ite, Dev.SameBut.foldl, Dev.SameBut.upd, Dev.SameBut.upd', true_or, or_true, and_self]
    | split
    | generalize hx : List.foldl _ _ _ = y
      have hy : Dev.SameBut [.draws, .jnl, .sd] d y := by
        rw [← hx]
        refine Dev.SameBut.foldl (fun _ _ => ?_) ?_ <;> repeat' first
          | simp +decide (maxDischargeDepth := 30) only [Dev.SameBut.refl, Dev.setZ_keeps, Dev.jPush_keeps, Dev.nextFuse_keeps, Dev.SameBut.ite, Dev.SameBut.foldl, Dev.SameBut.upd, Dev.SameBut.upd', true_or, or_true, and_self]
      clear hx
      simp +decide (maxDischargeDepth := 30) only [hy, Dev.SameBut.refl, Dev.setZ_keeps, Dev.jPush_keeps, Dev.nextFuse_keeps, Dev.SameBut.ite, Dev.SameBut.foldl, Dev.SameBut.upd, Dev.SameBut.upd', true_or, or_true, and_self]

theorem Dev.enterCores_keeps
    (hs : Part.sub [.draws, .jnl, .sd] l = true)
    (h : Dev.SameBut l a d) : Dev.SameBut l a (Dev.enterCores d) := by
  refine .step ?_ hs h
  unfold Dev.enterCores
  repeat' first
    | simp +decide (maxDischargeDepth := 30) only [Dev.SameBut.refl, Dev.enterRepair_keeps, Dev.launchGroups_keeps, Dev.SameBut.ite, Dev.SameBut.upd, Dev.SameBut.upd', true_or, or_true, and_self]
    | split

theorem Dev.deepCore_keeps (x1) (x2)
    (hs : Part.sub [.banks, .dbg, .jnl, .sd, .reg Reg.ZN_STOP_LOST, .reg Reg.ZN_UHT_CNT_REMAP] l = true)
    (h : Dev.SameBut l a d) : Dev.SameBut l a (Dev.deepCore d x1 x2) := by
  refine .step ?_ hs h
  unfold Dev.deepCore
  repeat' first
    | simp +decide (maxDischargeDepth := 30) only [Dev.SameBut.refl, Dev.mapCore_keeps, Dev.SameBut.ite, Dev.SameBut.upd, Dev.SameBut.upd', true_or, or_true, and_self]
    | split

theorem Dev.sdTick_keeps
    (hs : Part.sub [.banks, .draws, .health, .jnl, .sd, .wisps] l = true)
    (h : Dev.SameBut l a d) : Dev.SameBut l a (Dev.sdTick d) := by
  refine .step ?_ hs h
  unfold Dev.sdTick
  simp +decide (maxDischargeDepth := 30) only [Dev.SameBut.refl, Dev.beginQuiesce_keeps, Dev.destroyArrays_keeps, Dev.enterRepair_keeps, Dev.launchGroups_keeps, Dev.SameBut.ite, Dev.SameBut.upd, Dev.SameBut.upd', true_or, or_true, and_self]

theorem Dev.wantChipReset_keeps (x1)
    (hs : Part.sub [.hang] l = true)
    (h : Dev.SameBut l a d) : Dev.SameBut l a (Dev.wantChipReset d x1) := by
  refine .step ?_ hs h
  unfold Dev.wantChipReset
  simp +decide (maxDischargeDepth := 30) only [Dev.SameBut.refl, Dev.SameBut.ite, Dev.SameBut.upd, Dev.SameBut.upd', true_or, or_true, and_self]

theorem Dev.modPage_keeps (x1) (x2)
    (hs : Part.sub [.prot] l = true)
    (h : Dev.SameBut l a d) : Dev.SameBut l a (Dev.modPage d x1 x2) := by
  refine .step ?_ hs h
  unfold Dev.modPage
  simp +decide (maxDischargeDepth := 30) only [Dev.SameBut.refl, Dev.SameBut.ite, Dev.SameBut.upd, Dev.SameBut.upd', true_or, or_true, and_self]

theorem Dev.pageTick_keeps (x1)
    (hs : Part.sub [.prot] l = true)
    (h : Dev.SameBut l a d) : Dev.SameBut l a (Dev.pageTick d x1) := by
  refine .step ?_ hs h
  unfold Dev.pageTick
  repeat' first
    | simp +decide (maxDischargeDepth := 30) only [Dev.SameBut.refl, Dev.modPage_keeps, Dev.SameBut.ite, Dev.SameBut.foldl]
    | split
    | refine Dev.SameBut.foldl (fun _ _ => ?_) ?_

theorem Dev.pageCorrected_keeps (x1) (x2)
    (hs : Part.sub [.banks, .reg Reg.ZN_PROT_CNT_CORR, .reg Reg.ZN_PROT_CNT_SYM] l = true)
    (h : Dev.SameBut l a d) : Dev.SameBut l a (Dev.pageCorrected d x1 x2) := by
  refine .step ?_ hs h
  unfold Dev.pageCorrected
  repeat' first
    | simp +decide (maxDischargeDepth := 30) only [Dev.SameBut.refl, Dev.addZ_keeps, Dev.bumpZ_keeps, Dev.modBank_keeps, Dev.SameBut.ite]
    | split

theorem Dev.reloadPattern_keeps
    (hs : Part.sub [.afsin, .banks, .clock, .ctxs, .health, .jnl, .pat, .wisps, .reg Reg.ZN_AFS_CNT_LOST, .reg Reg.ZN_AFS_CNT_SENT, .reg Reg.ZN_HANG_CNT_ANV_ISO, .reg Reg.ZN_HANG_CNT_BANK_ISO, .reg Reg.ZN_PROT_CNT_RELOAD, .reg Reg.ZN_UHT_CNT_CLEAR, .reg Reg.ZN_UHT_CNT_ECLIPSE, .reg Reg.ZN_UHT_CNT_HAZE, .reg Reg.ZN_UHT_CNT_OVERCAST, .reg Reg.ZN_UHT_CNT_SET] l = true)
    (h : Dev.SameBut l a d) : Dev.SameBut l a (Dev.reloadPattern d) := by
  refine .step ?_ hs h
  unfold Dev.reloadPattern
  simp +decide (maxDischargeDepth := 30) only [Dev.SameBut.refl, Dev.bumpZ_keeps, Dev.noPackage_keeps, Dev.SameBut.ite, Dev.SameBut.upd, Dev.SameBut.upd', true_or, or_true, and_self]

theorem Dev.loseStaging_keeps (x1)
    (hs : Part.sub [.jnl, .reg Reg.ZN_JNL_CNT_LOST] l = true)
    (h : Dev.SameBut l a d) : Dev.SameBut l a (Dev.loseStaging d x1) := by
  refine .step ?_ hs h
  unfold Dev.loseStaging
  simp +decide (maxDischargeDepth := 30) only [Dev.SameBut.refl, Dev.addZ_keeps, Dev.SameBut.ite, Dev.SameBut.upd, Dev.SameBut.upd', true_or, or_true, and_self]

theorem Dev.pageLost_keeps (x1) (x2)
    (hs : Part.sub [.afsin, .banks, .clock, .ctxs, .hang, .health, .jnl, .pat, .prot, .wisps, .reg Reg.ZN_AFS_CNT_LOST, .reg Reg.ZN_AFS_CNT_SENT, .reg Reg.ZN_HANG_CNT_ANV_ISO, .reg Reg.ZN_HANG_CNT_BANK_ISO, .reg Reg.ZN_JNL_CNT_LOST, .reg Reg.ZN_PROT_CNT_RELOAD, .reg Reg.ZN_UHT_CNT_CLEAR, .reg Reg.ZN_UHT_CNT_ECLIPSE, .reg Reg.ZN_UHT_CNT_HAZE, .reg Reg.ZN_UHT_CNT_OVERCAST, .reg Reg.ZN_UHT_CNT_SET] l = true)
    (h : Dev.SameBut l a d) : Dev.SameBut l a (Dev.pageLost d x1 x2) := by
  refine .step ?_ hs h
  unfold Dev.pageLost
  repeat' first
    | simp +decide (maxDischargeDepth := 30) only [Dev.SameBut.refl, Dev.modPage_keeps, Dev.reloadPattern_keeps, Dev.loseStaging_keeps, Dev.wantChipReset_keeps, Dev.SameBut.ite]
    | split

theorem Dev.decodePageOf_keeps (x1) (x2)
    (hs : Part.sub [.afsin, .banks, .clock, .ctxs, .hang, .health, .jnl, .pat, .prot, .wisps, .reg Reg.ZN_AFS_CNT_LOST, .reg Reg.ZN_AFS_CNT_SENT, .reg Reg.ZN_HANG_CNT_ANV_ISO, .reg Reg.ZN_HANG_CNT_BANK_ISO, .reg Reg.ZN_JNL_CNT_LOST, .reg Reg.ZN_PROT_CNT_CORR, .reg Reg.ZN_PROT_CNT_RELOAD, .reg Reg.ZN_PROT_CNT_SYM, .reg Reg.ZN_UHT_CNT_CLEAR, .reg Reg.ZN_UHT_CNT_ECLIPSE, .reg Reg.ZN_UHT_CNT_HAZE, .reg Reg.ZN_UHT_CNT_OVERCAST, .reg Reg.ZN_UHT_CNT_SET] l = true)
    (h : Dev.SameBut l a d) : Dev.SameBut l a (Dev.decodePageOf d x1 x2) := by
  refine .step ?_ hs h
  unfold Dev.decodePageOf
  repeat' first
    | simp +decide (maxDischargeDepth := 30) only [Dev.SameBut.refl, Dev.pageLost_keeps, Dev.modPage_keeps, Dev.pageCorrected_keeps, Dev.SameBut.ite]
    | split

theorem Dev.startPatrol_keeps
    (hs : Part.sub [.prot] l = true)
    (h : Dev.SameBut l a d) : Dev.SameBut l a (Dev.startPatrol d) := by
  refine .step ?_ hs h
  unfold Dev.startPatrol
  simp +decide (maxDischargeDepth := 30) only [Dev.SameBut.refl, Dev.SameBut.ite, Dev.SameBut.upd, Dev.SameBut.upd', true_or, or_true, and_self]

theorem Dev.patrolPages_keeps (x1)
    (hs : Part.sub [.afsin, .banks, .clock, .ctxs, .hang, .health, .jnl, .pat, .prot, .wisps, .reg Reg.ZN_AFS_CNT_LOST, .reg Reg.ZN_AFS_CNT_SENT, .reg Reg.ZN_HANG_CNT_ANV_ISO, .reg Reg.ZN_HANG_CNT_BANK_ISO, .reg Reg.ZN_JNL_CNT_LOST, .reg Reg.ZN_PROT_CNT_CORR, .reg Reg.ZN_PROT_CNT_PAR, .reg Reg.ZN_PROT_CNT_RELOAD, .reg Reg.ZN_PROT_CNT_SYM, .reg Reg.ZN_UHT_CNT_CLEAR, .reg Reg.ZN_UHT_CNT_ECLIPSE, .reg Reg.ZN_UHT_CNT_HAZE, .reg Reg.ZN_UHT_CNT_OVERCAST, .reg Reg.ZN_UHT_CNT_SET] l = true)
    (h : Dev.SameBut l a d) : Dev.SameBut l a (Dev.patrolPages d x1) := by
  refine .step ?_ hs h
  unfold Dev.patrolPages
  repeat' first
    | simp +decide (maxDischargeDepth := 30) only [Dev.SameBut.refl, Dev.decodePageOf_keeps, Dev.addZ_keeps, Dev.SameBut.ite, Dev.SameBut.foldl]
    | split
    | refine Dev.SameBut.foldl (fun _ _ => ?_) ?_

theorem Dev.patrolTick_keeps
    (hs : Part.sub [.afsin, .banks, .clock, .ctxs, .hang, .health, .jnl, .pat, .prot, .wisps, .reg Reg.ZN_AFS_CNT_LOST, .reg Reg.ZN_AFS_CNT_SENT, .reg Reg.ZN_HANG_CNT_ANV_ISO, .reg Reg.ZN_HANG_CNT_BANK_ISO, .reg Reg.ZN_JNL_CNT_LOST, .reg Reg.ZN_PROT_CNT_CORR, .reg Reg.ZN_PROT_CNT_PAR, .reg Reg.ZN_PROT_CNT_PATROL, .reg Reg.ZN_PROT_CNT_RELOAD, .reg Reg.ZN_PROT_CNT_SYM, .reg Reg.ZN_UHT_CNT_CLEAR, .reg Reg.ZN_UHT_CNT_ECLIPSE, .reg Reg.ZN_UHT_CNT_HAZE, .reg Reg.ZN_UHT_CNT_OVERCAST, .reg Reg.ZN_UHT_CNT_SET] l = true)
    (h : Dev.SameBut l a d) : Dev.SameBut l a (Dev.patrolTick d) := by
  refine .step ?_ hs h
  unfold Dev.patrolTick
  simp +decide (maxDischargeDepth := 30) only [Dev.SameBut.refl, Dev.patrolPages_keeps, Dev.bumpZ_keeps, Dev.SameBut.ite, Dev.SameBut.upd, Dev.SameBut.upd', true_or, or_true, and_self]

theorem Dev.scrubCount_keeps (x1) (x2)
    (hs : Part.sub [.reg Reg.ZN_SCR_CE, .reg Reg.ZN_SCR_UE] l = true)
    (h : Dev.SameBut l a d) : Dev.SameBut l a (Dev.scrubCount d x1 x2) := by
  refine .step ?_ hs h
  unfold Dev.scrubCount
  simp +decide (maxDischargeDepth := 30) only [Dev.SameBut.refl, Dev.satZ_keeps, Dev.SameBut.ite]

theorem Dev.noteUe_keeps (x1)
    (hs : Part.sub [.prot] l = true)
    (h : Dev.SameBut l a d) : Dev.SameBut l a (Dev.noteUe d x1) := by
  refine .step ?_ hs h
  unfold Dev.noteUe
  repeat' first
    | simp +decide (maxDischargeDepth := 30) only [Dev.SameBut.refl, Dev.SameBut.ite, Dev.SameBut.upd, Dev.SameBut.upd', true_or, or_true, and_self]
    | split

theorem Dev.scrubRetired_keeps (x1)
    (hs : Part.sub [.reg Reg.ZN_SCR_RETIRED] l = true)
    (h : Dev.SameBut l a d) : Dev.SameBut l a (Dev.scrubRetired d x1) := by
  refine .step ?_ hs h
  unfold Dev.scrubRetired
  simp +decide (maxDischargeDepth := 30) only [Dev.SameBut.refl, Dev.setZf_keeps, Dev.SameBut.ite]

theorem Dev.ceInterval_keeps (x1)
    (hs : Part.sub [.wisps] l = true)
    (h : Dev.SameBut l a d) : Dev.SameBut l a (Dev.ceInterval d x1) := by
  refine .step ?_ hs h
  unfold Dev.ceInterval
  repeat' first
    | simp +decide (maxDischargeDepth := 30) only [Dev.SameBut.refl, Dev.modWisp_keeps, Dev.SameBut.ite]
    | split

theorem Dev.applyReport_keeps (x1) (x2) (x3) (x4)
    (hs : Part.sub [.afsin, .banks, .clock, .ctxs, .health, .jnl, .pat, .prot, .wisps, .reg Reg.ZN_AFS_CNT_LOST, .reg Reg.ZN_AFS_CNT_SENT, .reg Reg.ZN_HANG_CNT_ANV_ISO, .reg Reg.ZN_HANG_CNT_BANK_ISO, .reg Reg.ZN_HMR_CNT_CE, .reg Reg.ZN_HMR_CNT_UE, .reg Reg.ZN_HMR_LAST, .reg Reg.ZN_SCR_RETIRED, .reg Reg.ZN_UHT_CNT_CLEAR, .reg Reg.ZN_UHT_CNT_ECLIPSE, .reg Reg.ZN_UHT_CNT_HAZE, .reg Reg.ZN_UHT_CNT_OVERCAST, .reg Reg.ZN_UHT_CNT_SET] l = true)
    (h : Dev.SameBut l a d) : Dev.SameBut l a (Dev.applyReport d x1 x2 x3 x4) := by
  refine .step ?_ hs h
  unfold Dev.applyReport
  simp +decide (maxDischargeDepth := 30) only [Dev.SameBut.refl, Dev.setZ_keeps, Dev.hEvent_keeps, Dev.ceInterval_keeps, Dev.bumpZ_keeps, Dev.noteUe_keeps, Dev.scrubRetired_keeps, Dev.SameBut.ite]

theorem Dev.scrResult_keeps (x1)
    (hs : Part.sub [.reg Reg.ZN_SCR_STAT] l = true)
    (h : Dev.SameBut l a d) : Dev.SameBut l a (Dev.scrResult d x1) := by
  refine .step ?_ hs h
  unfold Dev.scrResult
  simp +decide (maxDischargeDepth := 30) only [Dev.SameBut.refl, Dev.setZf_keeps, Dev.SameBut.ite]

theorem Dev.acceptScrub_keeps (x1)
    (hs : Part.sub [.prot, .regs] l = true)
    (h : Dev.SameBut l a d) : Dev.SameBut l a (Dev.acceptScrub d x1) := by
  refine .step ?_ hs h
  unfold Dev.acceptScrub
  repeat' first
    | simp +decide (maxDischargeDepth := 30) only [Dev.SameBut.refl, Dev.setZ_keeps, Dev.scrResult_keeps, Dev.SameBut.ite, Dev.SameBut.foldl, Dev.SameBut.upd, Dev.SameBut.upd', true_or, or_true, and_self, Part.sub_reg]
    | split
    | generalize hx : List.foldl _ _ _ = y
      have hy : Dev.SameBut [.prot, .regs] d y := by
        rw [← hx]
        refine Dev.SameBut.foldl (fun _ _ => ?_) ?_ <;> repeat' first
          | simp +decide (maxDischargeDepth := 30) only [Dev.SameBut.refl, Dev.setZ_keeps, Dev.scrResult_keeps, Dev.SameBut.ite, Dev.SameBut.foldl, Dev.SameBut.upd, Dev.SameBut.upd', true_or, or_true, and_self, Part.sub_reg]
      clear hx
      simp +decide (maxDischargeDepth := 30) only [hy, Dev.SameBut.refl, Dev.setZ_keeps, Dev.scrResult_keeps, Dev.SameBut.ite, Dev.SameBut.foldl, Dev.SameBut.upd, Dev.SameBut.upd', true_or, or_true, and_self, Part.sub_reg]

theorem Dev.scrubStart_keeps (x1)
    (hs : Part.sub [.prot, .regs] l = true)
    (h : Dev.SameBut l a d) : Dev.SameBut l a (Dev.scrubStart d x1) := by
  refine .step ?_ hs h
  unfold Dev.scrubStart
  repeat' first
    | simp +decide (maxDischargeDepth := 30) only [Dev.SameBut.refl, Dev.scrResult_keeps, Dev.acceptScrub_keeps, Dev.SameBut.ite, Part.sub_reg]
    | split

theorem Dev.endScrub_keeps (x1)
    (hs : Part.sub [.prot, .reg Reg.ZN_SCR_STAT] l = true)
    (h : Dev.SameBut l a d) : Dev.SameBut l a (Dev.endScrub d x1) := by
  refine .step ?_ hs h
  unfold Dev.endScrub
  simp +decide (maxDischargeDepth := 30) only [Dev.SameBut.refl, Dev.scrResult_keeps, Dev.SameBut.ite, Dev.SameBut.upd, Dev.SameBut.upd', true_or, or_true, and_self]

theorem Dev.verifyPage_keeps (x1) (x2)
    (hs : Part.sub [.afsin, .banks, .clock, .ctxs, .health, .jnl, .pat, .wisps, .reg Reg.ZN_AFS_CNT_LOST, .reg Reg.ZN_AFS_CNT_SENT, .reg Reg.ZN_HANG_CNT_ANV_ISO, .reg Reg.ZN_HANG_CNT_BANK_ISO, .reg Reg.ZN_SCR_CWFAIL, .reg Reg.ZN_UHT_CNT_CLEAR, .reg Reg.ZN_UHT_CNT_ECLIPSE, .reg Reg.ZN_UHT_CNT_HAZE, .reg Reg.ZN_UHT_CNT_OVERCAST, .reg Reg.ZN_UHT_CNT_SET] l = true)
    (h : Dev.SameBut l a d) : Dev.SameBut l a (Dev.verifyPage d x1 x2) := by
  refine .step ?_ hs h
  unfold Dev.verifyPage
  repeat' first
    | simp +decide (maxDischargeDepth := 30) only [Dev.SameBut.refl, Dev.satZ_keeps, Dev.hEvent_keeps, Dev.SameBut.ite]
    | split

theorem Dev.readPages_keeps (x1) (x2)
    (hs : Part.sub [.afsin, .banks, .clock, .ctxs, .health, .jnl, .pat, .prot, .wisps, .reg Reg.ZN_AFS_CNT_LOST, .reg Reg.ZN_AFS_CNT_SENT, .reg Reg.ZN_HANG_CNT_ANV_ISO, .reg Reg.ZN_HANG_CNT_BANK_ISO, .reg Reg.ZN_SCR_CWFAIL, .reg Reg.ZN_SCR_PAGES, .reg Reg.ZN_UHT_CNT_CLEAR, .reg Reg.ZN_UHT_CNT_ECLIPSE, .reg Reg.ZN_UHT_CNT_HAZE, .reg Reg.ZN_UHT_CNT_OVERCAST, .reg Reg.ZN_UHT_CNT_SET] l = true)
    (h : Dev.SameBut l a d) : Dev.SameBut l a (Dev.readPages d x1 x2) := by
  refine .step ?_ hs h
  unfold Dev.readPages
  repeat' first
    | simp +decide (maxDischargeDepth := 30) only [Dev.SameBut.refl, Dev.verifyPage_keeps, Dev.setZf_keeps, Dev.SameBut.ite, Dev.SameBut.foldl, Dev.SameBut.upd, Dev.SameBut.upd', true_or, or_true, and_self]
    | split
    | generalize hx : List.foldl _ _ _ = y
      have hy : Dev.SameBut [.afsin, .banks, .clock, .ctxs, .health, .jnl, .pat, .prot, .wisps, .reg Reg.ZN_AFS_CNT_LOST, .reg Reg.ZN_AFS_CNT_SENT, .reg Reg.ZN_HANG_CNT_ANV_ISO, .reg Reg.ZN_HANG_CNT_BANK_ISO, .reg Reg.ZN_SCR_CWFAIL, .reg Reg.ZN_SCR_PAGES, .reg Reg.ZN_UHT_CNT_CLEAR, .reg Reg.ZN_UHT_CNT_ECLIPSE, .reg Reg.ZN_UHT_CNT_HAZE, .reg Reg.ZN_UHT_CNT_OVERCAST, .reg Reg.ZN_UHT_CNT_SET] d y := by
        rw [← hx]
        refine Dev.SameBut.foldl (fun _ _ => ?_) ?_ <;> repeat' first
          | simp +decide (maxDischargeDepth := 30) only [Dev.SameBut.refl, Dev.verifyPage_keeps, Dev.setZf_keeps, Dev.SameBut.ite, Dev.SameBut.foldl, Dev.SameBut.upd, Dev.SameBut.upd', true_or, or_true, and_self]
      clear hx
      simp +decide (maxDischargeDepth := 30) only [hy, Dev.SameBut.refl, Dev.verifyPage_keeps, Dev.setZf_keeps, Dev.SameBut.ite, Dev.SameBut.foldl, Dev.SameBut.upd, Dev.SameBut.upd', true_or, or_true, and_self]

theorem Dev.scrubTick_keeps (x1)
    (hs : Part.sub [.afsin, .banks, .clock, .ctxs, .health, .jnl, .pat, .prot, .wisps, .reg Reg.ZN_AFS_CNT_LOST, .reg Reg.ZN_AFS_CNT_SENT, .reg Reg.ZN_HANG_CNT_ANV_ISO, .reg Reg.ZN_HANG_CNT_BANK_ISO, .reg Reg.ZN_SCR_CWFAIL, .reg Reg.ZN_SCR_PAGES, .reg Reg.ZN_SCR_STAT, .reg Reg.ZN_UHT_CNT_CLEAR, .reg Reg.ZN_UHT_CNT_ECLIPSE, .reg Reg.ZN_UHT_CNT_HAZE, .reg Reg.ZN_UHT_CNT_OVERCAST, .reg Reg.ZN_UHT_CNT_SET] l = true)
    (h : Dev.SameBut l a d) : Dev.SameBut l a (Dev.scrubTick d x1) := by
  refine .step ?_ hs h
  unfold Dev.scrubTick
  repeat' first
    | simp +decide (maxDischargeDepth := 30) only [Dev.SameBut.refl, Dev.endScrub_keeps, Dev.readPages_keeps, Dev.SameBut.ite]
    | split

theorem Dev.qualifyRegion_keeps (x1)
    (hs : Part.sub [.afsin, .banks, .health, .jnl, .wisps, .reg Reg.ZN_AFS_CNT_LOST, .reg Reg.ZN_AFS_CNT_SENT, .reg Reg.ZN_UHT_CNT_CLEAR, .reg Reg.ZN_UHT_CNT_ECLIPSE, .reg Reg.ZN_UHT_CNT_HAZE, .reg Reg.ZN_UHT_CNT_OVERCAST] l = true)
    (h : Dev.SameBut l a d) : Dev.SameBut l a (Dev.qualifyRegion d x1) := by
  refine .step ?_ hs h
  unfold Dev.qualifyRegion
  simp +decide (maxDischargeDepth := 30) only [Dev.SameBut.refl, Dev.transition_keeps, Dev.SameBut.ite]

theorem Dev.applyLoads_keeps (x1)
    (hs : Part.sub [.regs] l = true)
    (h : Dev.SameBut l a d) : Dev.SameBut l a (Dev.applyLoads d x1) := by
  refine .step ?_ hs h
  unfold Dev.applyLoads
  repeat' first
    | simp +decide (maxDischargeDepth := 30) only [Dev.SameBut.refl, Dev.setZ_keeps, Dev.SameBut.ite, Dev.SameBut.foldl, Part.sub_reg]
    | split
    | refine Dev.SameBut.foldl (fun _ _ => ?_) ?_

theorem Dev.useImage_keeps (x1)
    (hs : Part.sub [.cfg, .regs] l = true)
    (h : Dev.SameBut l a d) : Dev.SameBut l a (Dev.useImage d x1) := by
  refine .step ?_ hs h
  unfold Dev.useImage
  simp +decide (maxDischargeDepth := 30) only [Dev.SameBut.refl, Dev.applyLoads_keeps, Dev.setZ_keeps, Dev.SameBut.ite, Dev.SameBut.upd, Dev.SameBut.upd', true_or, or_true, and_self, Part.sub_reg]

theorem Dev.refuseImage_keeps (x1)
    (hs : Part.sub [.afsin, .alarm, .alarms, .aon, .banks, .jnl, .ledger, .sd, .reg Reg.ZN_AFS_CNT_LOST, .reg Reg.ZN_AFS_CNT_SENT, .reg Reg.ZN_ALM_CNT_RAISE, .reg Reg.ZN_CFG_STAT, .reg Reg.ZN_CFG_WHERE, .reg Reg.ZN_EXP_STAT, .reg Reg.ZN_SD_STAT] l = true)
    (h : Dev.SameBut l a d) : Dev.SameBut l a (Dev.refuseImage d x1) := by
  refine .step ?_ hs h
  unfold Dev.refuseImage
  simp +decide (maxDischargeDepth := 30) only [Dev.SameBut.refl, Dev.setZ_keeps, Dev.zEvent_keeps, Dev.raiseAlarm_keeps, Dev.SameBut.ite]

theorem Dev.resetZenith_keeps (x1) (x2)
    (hs : Part.sub [.afsin, .alarm, .alarms, .aon, .banks, .cfg, .clock, .ctxs, .dbg, .draws, .floor, .frame, .fuses, .hang, .health, .hz, .jnl, .ledger, .pat, .pins, .port, .prot, .regs, .sd, .start, .stop, .thm, .wisps] l = true)
    (h : Dev.SameBut l a d) : Dev.SameBut l a (Dev.resetZenith d x1 x2) := by
  refine Dev.SameBut.step (k := [.afsin, .alarm, .alarms, .aon, .banks, .cfg, .clock, .ctxs, .dbg, .draws, .floor, .frame, .fuses, .hang, .health, .hz, .jnl, .ledger, .pat, .pins, .port, .prot, .regs, .sd, .start, .stop, .thm, .wisps]) ?_ hs h
  intro f hf
  cases f with
  | reg o => simp [covers] at hf
  | _ => first | rfl | exact ⟨rfl, rfl⟩ | simp [covers, Part.isReg] at hf

theorem Dev.numberJournal_keeps (x1)
    (hs : Part.sub [.jnl] l = true)
    (h : Dev.SameBut l a d) : Dev.SameBut l a (Dev.numberJournal d x1) := by
  refine .step ?_ hs h
  unfold Dev.numberJournal
  simp +decide (maxDischargeDepth := 30) only [Dev.SameBut.refl, Dev.SameBut.ite, Dev.SameBut.upd, Dev.SameBut.upd', true_or, or_true, and_self]

theorem Dev.startEntry_keeps
    (hs : Part.sub [.jnl] l = true)
    (h : Dev.SameBut l a d) : Dev.SameBut l a (Dev.startEntry d) := by
  refine .step ?_ hs h
  unfold Dev.startEntry
  simp +decide (maxDischargeDepth := 30) only [Dev.SameBut.refl, Dev.jPush_keeps, Dev.SameBut.ite]

theorem Dev.unconfigured_keeps
    (hs : Part.sub [.jnl, .start, .reg Reg.ZN_START_FRAMES] l = true)
    (h : Dev.SameBut l a d) : Dev.SameBut l a (Dev.unconfigured d) := by
  refine .step ?_ hs h
  unfold Dev.unconfigured
  simp +decide (maxDischargeDepth := 30) only [Dev.SameBut.refl, Dev.startEntry_keeps, Dev.numberJournal_keeps, Dev.setZ_keeps, Dev.SameBut.ite, Dev.SameBut.upd, Dev.SameBut.upd', true_or, or_true, and_self]

theorem Dev.format_keeps (x1)
    (hs : Part.sub [.aon, .draws, .jnl, .ledger] l = true)
    (h : Dev.SameBut l a d) : Dev.SameBut l a (Dev.format d x1) := by
  refine .step ?_ hs h
  unfold Dev.format
  repeat' first
    | simp +decide (maxDischargeDepth := 30) only [Dev.SameBut.refl, Dev.zEvent_keeps, Dev.SameBut.ite, Dev.SameBut.upd, Dev.SameBut.upd', true_or, or_true, and_self, Dev.draw]
    | split

theorem Dev.moduleAbsent_keeps
    (hs : Part.sub [.afsin, .jnl, .ledger, .reg Reg.ZN_AFS_CNT_LOST, .reg Reg.ZN_AFS_CNT_SENT] l = true)
    (h : Dev.SameBut l a d) : Dev.SameBut l a (Dev.moduleAbsent d) := by
  refine .step ?_ hs h
  unfold Dev.moduleAbsent
  simp +decide (maxDischargeDepth := 30) only [Dev.SameBut.refl, Dev.ledgerNotice_keeps, Dev.SameBut.ite, Dev.SameBut.upd, Dev.SameBut.upd', true_or, or_true, and_self]

theorem Dev.bindHeader_keeps
    (hs : Part.sub [.afsin, .aon, .draws, .jnl, .ledger, .reg Reg.ZN_AFS_CNT_LOST, .reg Reg.ZN_AFS_CNT_SENT] l = true)
    (h : Dev.SameBut l a d) : Dev.SameBut l a (Dev.bindHeader d) := by
  refine .step ?_ hs h
  unfold Dev.bindHeader
  repeat' first
    | simp +decide (maxDischargeDepth := 30) only [Dev.SameBut.refl, Dev.format_keeps, Dev.ledgerNotice_keeps, Dev.zEvent_keeps, Dev.SameBut.ite, Dev.SameBut.upd, Dev.SameBut.upd', true_or, or_true, and_self]
    | split

theorem Dev.loadModule_keeps (x1)
    (hs : Part.sub [.jnl, .ledger, .pat] l = true)
    (h : Dev.SameBut l a d) : Dev.SameBut l a (Dev.loadModule d x1) := by
  refine .step ?_ hs h
  unfold Dev.loadModule
  simp +decide (maxDischargeDepth := 30) only [Dev.SameBut.refl, Dev.SameBut.ite, Dev.SameBut.upd, Dev.SameBut.upd', true_or, or_true, and_self]

theorem Dev.bindModule_keeps (x1)
    (hs : Part.sub [.afsin, .aon, .draws, .jnl, .ledger, .pat, .reg Reg.ZN_AFS_CNT_LOST, .reg Reg.ZN_AFS_CNT_SENT] l = true)
    (h : Dev.SameBut l a d) : Dev.SameBut l a (Dev.bindModule d x1) := by
  refine .step ?_ hs h
  unfold Dev.bindModule
  split
  · exact Dev.moduleAbsent_keeps (Eq.refl true) (.refl _ _)
  split
  · exact Dev.moduleAbsent_keeps (Eq.refl true) (.refl _ _)
  · refine Dev.bindHeader_keeps (Eq.refl true) ?_
    cases ModuleId.content ‹_› <;> simp only [Option.map_none, Option.map_some, Option.getD_none, Option.getD_some]
    · simp +decide (maxDischargeDepth := 30) only [Dev.SameBut.refl, Dev.SameBut.upd, true_or, or_true, and_self]
    · refine Dev.loadModule_keeps _ (Eq.refl true) ?_
      simp +decide (maxDischargeDepth := 30) only [Dev.SameBut.refl, Dev.SameBut.upd, true_or, or_true, and_self]

theorem Dev.selftestFail_keeps (x1)
    (hs : Part.sub [.jnl] l = true)
    (h : Dev.SameBut l a d) : Dev.SameBut l a (Dev.selftestFail d x1) := by
  refine .step ?_ hs h
  unfold Dev.selftestFail
  simp +decide (maxDischargeDepth := 30) only [Dev.SameBut.refl, Dev.zEvent_keeps, Dev.SameBut.ite]

theorem Dev.loadUnit_keeps (x1) (x2)
    (hs : Part.sub [.health] l = true)
    (h : Dev.SameBut l a d) : Dev.SameBut l a (Dev.loadUnit d x1 x2) := by
  refine .step ?_ hs h
  unfold Dev.loadUnit
  simp +decide (maxDischargeDepth := 30) only [Dev.SameBut.refl, Dev.modUht_keeps, Dev.SameBut.ite]

theorem Dev.loadUnits_keeps (x1) (x2)
    (hs : Part.sub [.health] l = true)
    (h : Dev.SameBut l a d) : Dev.SameBut l a (Dev.loadUnits d x1 x2) := by
  induction x2 generalizing d x1 with
  | nil => exact h
  | cons w x2 ih => exact ih _ (Dev.loadUnit_keeps _ _ hs h)

theorem Dev.replayEntry_keeps (x1)
    (hs : Part.sub [.banks, .health, .pat] l = true)
    (h : Dev.SameBut l a d) : Dev.SameBut l a (Dev.replayEntry d x1) := by
  refine .step ?_ hs h
  unfold Dev.replayEntry
  repeat' first
    | simp +decide (maxDischargeDepth := 30) only [Dev.SameBut.refl, Dev.loadUnit_keeps, Dev.loadUnits_keeps, Dev.modBank_keeps, Dev.SameBut.ite, Dev.SameBut.upd, Dev.SameBut.upd', true_or, or_true, and_self]
    | split

theorem Dev.loadFuses_keeps
    (hs : Part.sub [.banks] l = true)
    (h : Dev.SameBut l a d) : Dev.SameBut l a (Dev.loadFuses d) := by
  refine .step ?_ hs h
  unfold Dev.loadFuses
  repeat' first
    | simp +decide (maxDischargeDepth := 30) only [Dev.SameBut.refl, Dev.modBank_keeps, Dev.SameBut.ite, Dev.SameBut.foldl]
    | split
    | refine Dev.SameBut.foldl (fun _ _ => ?_) ?_

theorem Dev.applyPrior_keeps (x1) (x2) (x3)
    (hs : Part.sub [.health] l = true)
    (h : Dev.SameBut l a d) : Dev.SameBut l a (Dev.applyPrior d x1 x2 x3) := by
  refine .step ?_ hs h
  unfold Dev.applyPrior
  simp +decide (maxDischargeDepth := 30) only [Dev.SameBut.refl, Dev.modUht_keeps, Dev.SameBut.ite]

theorem Dev.applyPriors_keeps (x1)
    (hs : Part.sub [.health] l = true)
    (h : Dev.SameBut l a d) : Dev.SameBut l a (Dev.applyPriors d x1) := by
  refine .step ?_ hs h
  unfold Dev.applyPriors
  repeat' first
    | simp +decide (maxDischargeDepth := 30) only [Dev.SameBut.refl, Dev.applyPrior_keeps, Dev.SameBut.ite, Dev.SameBut.foldl]
    | split
    | refine Dev.SameBut.foldl (fun _ _ => ?_) ?_

theorem Dev.settleEclipse_keeps (x1)
    (hs : Part.sub [.afsin, .banks, .ctxs, .health, .jnl, .pat, .wisps, .reg Reg.ZN_AFS_CNT_LOST, .reg Reg.ZN_AFS_CNT_SENT, .reg Reg.ZN_HANG_CNT_ANV_ISO, .reg Reg.ZN_HANG_CNT_BANK_ISO, .reg Reg.ZN_UHT_CNT_CLEAR, .reg Reg.ZN_UHT_CNT_ECLIPSE, .reg Reg.ZN_UHT_CNT_HAZE, .reg Reg.ZN_UHT_CNT_OVERCAST] l = true)
    (h : Dev.SameBut l a d) : Dev.SameBut l a (Dev.settleEclipse d x1) := by
  refine .step ?_ hs h
  unfold Dev.settleEclipse
  repeat' first
    | simp +decide (maxDischargeDepth := 30) only [Dev.SameBut.refl, Dev.markRemap_keeps, Dev.afterEclipse_keeps, Dev.SameBut.ite]
    | split

theorem Dev.applySelftest_keeps
    (hs : Part.sub [.afsin, .banks, .ctxs, .health, .jnl, .pat, .wisps, .reg Reg.ZN_AFS_CNT_LOST, .reg Reg.ZN_AFS_CNT_SENT, .reg Reg.ZN_HANG_CNT_ANV_ISO, .reg Reg.ZN_HANG_CNT_BANK_ISO, .reg Reg.ZN_UHT_CNT_CLEAR, .reg Reg.ZN_UHT_CNT_ECLIPSE, .reg Reg.ZN_UHT_CNT_HAZE, .reg Reg.ZN_UHT_CNT_OVERCAST, .reg Reg.ZN_UHT_CNT_SET] l = true)
    (h : Dev.SameBut l a d) : Dev.SameBut l a (Dev.applySelftest d) := by
  refine .step ?_ hs h
  unfold Dev.applySelftest
  repeat' first
    | simp +decide (maxDischargeDepth := 30) only [Dev.SameBut.refl, Dev.applyHealth_keeps, Dev.SameBut.ite, Dev.SameBut.foldl]
    | split
    | refine Dev.SameBut.foldl (fun _ _ => ?_) ?_

theorem Dev.populate_keeps (x1)
    (hs : Part.sub [.afsin, .banks, .ctxs, .health, .jnl, .pat, .wisps, .reg Reg.ZN_AFS_CNT_LOST, .reg Reg.ZN_AFS_CNT_SENT, .reg Reg.ZN_HANG_CNT_ANV_ISO, .reg Reg.ZN_HANG_CNT_BANK_ISO, .reg Reg.ZN_UHT_CNT_CLEAR, .reg Reg.ZN_UHT_CNT_ECLIPSE, .reg Reg.ZN_UHT_CNT_HAZE, .reg Reg.ZN_UHT_CNT_OVERCAST, .reg Reg.ZN_UHT_CNT_SET] l = true)
    (h : Dev.SameBut l a d) : Dev.SameBut l a (Dev.populate d x1) := by
  refine .step ?_ hs h
  unfold Dev.populate
  extract_lets _ fresh d1 d2 d3
  have h0 : Dev.SameBut [.afsin, .banks, .ctxs, .health, .jnl, .pat, .wisps, .reg Reg.ZN_AFS_CNT_LOST, .reg Reg.ZN_AFS_CNT_SENT, .reg Reg.ZN_HANG_CNT_ANV_ISO, .reg Reg.ZN_HANG_CNT_BANK_ISO, .reg Reg.ZN_UHT_CNT_CLEAR, .reg Reg.ZN_UHT_CNT_ECLIPSE, .reg Reg.ZN_UHT_CNT_HAZE, .reg Reg.ZN_UHT_CNT_OVERCAST, .reg Reg.ZN_UHT_CNT_SET] d fresh := by
    simp only [fresh]
    simp +decide (maxDischargeDepth := 30) only [Dev.SameBut.refl, Dev.SameBut.upd, true_or, or_true, and_self]
  have h1 : Dev.SameBut [.afsin, .banks, .ctxs, .health, .jnl, .pat, .wisps, .reg Reg.ZN_AFS_CNT_LOST, .reg Reg.ZN_AFS_CNT_SENT, .reg Reg.ZN_HANG_CNT_ANV_ISO, .reg Reg.ZN_HANG_CNT_BANK_ISO, .reg Reg.ZN_UHT_CNT_CLEAR, .reg Reg.ZN_UHT_CNT_ECLIPSE, .reg Reg.ZN_UHT_CNT_HAZE, .reg Reg.ZN_UHT_CNT_OVERCAST, .reg Reg.ZN_UHT_CNT_SET] d d1 := Dev.SameBut.foldl (fun _ _ => Dev.replayEntry_keeps _ (Eq.refl true) (.refl _ _)) (Dev.loadFuses_keeps (Eq.refl true) h0)
  have h2 : Dev.SameBut [.afsin, .banks, .ctxs, .health, .jnl, .pat, .wisps, .reg Reg.ZN_AFS_CNT_LOST, .reg Reg.ZN_AFS_CNT_SENT, .reg Reg.ZN_HANG_CNT_ANV_ISO, .reg Reg.ZN_HANG_CNT_BANK_ISO, .reg Reg.ZN_UHT_CNT_CLEAR, .reg Reg.ZN_UHT_CNT_ECLIPSE, .reg Reg.ZN_UHT_CNT_HAZE, .reg Reg.ZN_UHT_CNT_OVERCAST, .reg Reg.ZN_UHT_CNT_SET] d d2 := Dev.applyPriors_keeps _ (Eq.refl true) h1
  have h3 : Dev.SameBut [.afsin, .banks, .ctxs, .health, .jnl, .pat, .wisps, .reg Reg.ZN_AFS_CNT_LOST, .reg Reg.ZN_AFS_CNT_SENT, .reg Reg.ZN_HANG_CNT_ANV_ISO, .reg Reg.ZN_HANG_CNT_BANK_ISO, .reg Reg.ZN_UHT_CNT_CLEAR, .reg Reg.ZN_UHT_CNT_ECLIPSE, .reg Reg.ZN_UHT_CNT_HAZE, .reg Reg.ZN_UHT_CNT_OVERCAST, .reg Reg.ZN_UHT_CNT_SET] d d3 := Dev.SameBut.foldl (fun _ _ => Dev.settleEclipse_keeps _ (Eq.refl true) (.refl _ _)) h2
  exact Dev.applySelftest_keeps (Eq.refl true) h3

theorem Dev.replayJournal_keeps (x1) (x2)
    (hs : Part.sub [.jnl, .ledger, .start] l = true)
    (h : Dev.SameBut l a d) : Dev.SameBut l a (Dev.replayJournal d x1 x2).1 := by
  refine .step ?_ hs h
  unfold Dev.replayJournal
  repeat' first
    | simp +decide (maxDischargeDepth := 30) only [Dev.SameBut.refl, Dev.numberJournal_keeps, Dev.zEvent_keeps, Dev.startEntry_keeps, Dev.SameBut.ite, Dev.SameBut.upd, Dev.SameBut.upd', true_or, or_true, and_self]
    | split

theorem Dev.releaseBanks_keeps
    (hs : Part.sub [.afsin, .aon, .banks, .clock, .ctxs, .health, .jnl, .pat, .start, .thm, .wisps, .reg Reg.ZN_AFS_CNT_LOST, .reg Reg.ZN_AFS_CNT_SENT, .reg Reg.ZN_HANG_CNT_ANV_ISO, .reg Reg.ZN_HANG_CNT_BANK_ISO, .reg Reg.ZN_PAT_CNT_INSTALL, .reg Reg.ZN_PAT_CNT_ROUNDS, .reg Reg.ZN_UHT_CNT_CLEAR, .reg Reg.ZN_UHT_CNT_ECLIPSE, .reg Reg.ZN_UHT_CNT_HAZE, .reg Reg.ZN_UHT_CNT_OVERCAST, .reg Reg.ZN_UHT_CNT_SET] l = true)
    (h : Dev.SameBut l a d) : Dev.SameBut l a (Dev.releaseBanks d) := by
  refine .step ?_ hs h
  unfold Dev.releaseBanks
  simp +decide (maxDischargeDepth := 30) only [Dev.SameBut.refl, Dev.startPackage_keeps, Dev.startModel_keeps, Dev.SameBut.ite, Dev.SameBut.upd, Dev.SameBut.upd', true_or, or_true, and_self]

theorem Dev.endStart_keeps
    (hs : Part.sub [.draws, .hz, .jnl, .pins, .start, .reg Reg.ZN_START_FRAMES] l = true)
    (h : Dev.SameBut l a d) : Dev.SameBut l a (Dev.endStart d) := by
  refine .step ?_ hs h
  unfold Dev.endStart
  simp +decide (maxDischargeDepth := 30) only [Dev.SameBut.refl, Dev.setZ_keeps, Dev.broadcastHello_keeps, Dev.zEvent_keeps, Dev.SameBut.ite, Dev.SameBut.upd, Dev.SameBut.upd', true_or, or_true, and_self]

theorem Dev.startupTests_keeps
    (hs : Part.sub [.banks, .health, .start, .reg Reg.ZN_START_TVOID] l = true)
    (h : Dev.SameBut l a d) : Dev.SameBut l a (Dev.startupTests d) := by
  refine .step ?_ hs h
  unfold Dev.startupTests
  extract_lets all can n d1 _
  have h1 : Dev.SameBut [.banks, .health, .start, .reg Reg.ZN_START_TVOID] d d1 := Dev.SameBut.foldl (fun _ _ => Dev.startTest_keeps _ _ _ _ _ _ (Eq.refl true) (.refl _ _)) (.refl _ _)
  refine Dev.setZ_keeps _ _ (Eq.refl true) ?_
  simp +decide (maxDischargeDepth := 30) only [Dev.SameBut.refl, Dev.SameBut.ite, Dev.SameBut.upd, Dev.SameBut.upd', true_or, or_true, and_self, h1]

theorem Dev.startTick_keeps
    (hs : Part.sub [.banks, .draws, .health, .hz, .jnl, .pins, .start, .reg Reg.ZN_START_FRAMES, .reg Reg.ZN_START_TVOID] l = true)
    (h : Dev.SameBut l a d) : Dev.SameBut l a (Dev.startTick d) := by
  refine .step ?_ hs h
  unfold Dev.startTick
  simp +decide (maxDischargeDepth := 30) only [Dev.SameBut.refl, Dev.startupTests_keeps, Dev.endStart_keeps, Dev.SameBut.ite, Dev.SameBut.upd, Dev.SameBut.upd', true_or, or_true, and_self]

end Sys2Proof.Machine
end

