-- ==== Sys2Proof/Laws/KeepsPorts.lean ====
section
/-! SUPPORT. What each operation of the register interface, Afsin, the pins, the arbiter, sampling and the tick can change:
one lemma an operation, in the form in which it composes. -/

-- One proof after another: in one text with every other file, a task for each would take a thread for each.
set_option Elab.async false

namespace Sys2Proof.Machine

set_option linter.unusedSimpArgs false
variable {l : List Part} {a d : Dev}

theorem Dev.nodeRead_keeps (x1)
    (hs : Part.sub [.port] l = true)
    (h : Dev.SameBut l a d) : Dev.SameBut l a (Dev.nodeRead d x1) := by
  refine .step ?_ hs h
  unfold Dev.nodeRead
  simp +decide (maxDischargeDepth := 30) only [Dev.SameBut.refl, Dev.modPath_keeps, Dev.SameBut.ite]

theorem Dev.accRead_keeps (x1)
    (hs : Part.sub [.port, .reg Reg.ZN_MB_STAT] l = true)
    (h : Dev.SameBut l a d) : Dev.SameBut l a (Dev.accRead d x1) := by
  refine .step ?_ hs h
  unfold Dev.accRead
  simp +decide (maxDischargeDepth := 30) only [Dev.SameBut.refl, Dev.setZf_keeps, Dev.modPath_keeps, Dev.SameBut.ite]

theorem Dev.someZc_keeps (x1)
    (hs : Part.sub [.draws] l = true)
    (hf : ∀ e z, Dev.SameBut l e (x1 e z))
    (h : Dev.SameBut l a d) : Dev.SameBut l a (Dev.someZc d x1) := by
  unfold Dev.someZc
  exact (Dev.SameBut.step (k := [.draws]) (by simp +decide (maxDischargeDepth := 30) only [Dev.SameBut.refl, Dev.SameBut.ite, Dev.SameBut.upd, Dev.SameBut.upd', true_or, or_true, and_self, Dev.draw]) hs h).trans (hf _ _)

theorem Dev.zCommand_keeps (x1) (x2) (x3)
    (hs : Part.sub [.afsin, .alarms, .banks, .clock, .ctxs, .dbg, .draws, .hang, .health, .jnl, .pat, .port, .prot, .regs, .sd, .wisps] l = true)
    (h : Dev.SameBut l a d) : Dev.SameBut l a (Dev.zCommand d x1 x2 x3) := by
  refine .step ?_ hs h
  unfold Dev.zCommand
  repeat' first
    | simp +decide (maxDischargeDepth := 30) only [Dev.SameBut.refl, Dev.someZc_keeps, Dev.timeSnap_keeps, Dev.launchArm_keeps, Dev.launchCancel_keeps, Dev.seedRead_keeps, Dev.create_keeps, Dev.setLevel_keeps, Dev.teardown_keeps, Dev.resume_keeps, Dev.uhtRead_keeps, Dev.uhtSet_keeps, Dev.startRequest_keeps, Dev.endRequest_keeps, Dev.rebcast_keeps, Dev.startShutdown_keeps, Dev.cancelShutdown_keeps, Dev.nodeRead_keeps, Dev.recovCmd_keeps, Dev.recover_keeps, Dev.cmdAnvReset_keeps, Dev.cmdBankReset_keeps, Dev.recClrArm_keeps, Dev.recClrClear_keeps, Dev.jnlSnap_keeps, Dev.dumpArm_keeps, Dev.dumpCancel_keeps, Dev.continueCtx_keeps, Dev.continueEvery_keeps, Dev.startGraph_keeps, Dev.startExport_keeps, Dev.startPatrol_keeps, Dev.scrubStart_keeps, Dev.endScrub_keeps, Dev.accRead_keeps, Dev.SameBut.ite, Dev.SameBut.upd, Dev.SameBut.upd', true_or, or_true, and_self, Part.sub_reg, implies_true]
    | split

theorem Dev.wCommand_keeps (x1) (x2) (x3) (x4)
    (hs : Part.sub [.port] l = true)
    (h : Dev.SameBut l a d) : Dev.SameBut l a (Dev.wCommand d x1 x2 x3 x4) := by
  refine .step ?_ hs h
  unfold Dev.wCommand
  simp +decide (maxDischargeDepth := 30) only [Dev.SameBut.refl, Dev.extremeRead_keeps, Dev.counterRead_keeps, Dev.SameBut.ite]

theorem Dev.putZn_keeps (x1) (x2) (x3) (x4)
    (hs : Part.sub [.ctxs, .dbg, .port, .regs] l = true)
    (h : Dev.SameBut l a d) : Dev.SameBut l a (Dev.putZn d x1 x2 x3 x4) := by
  refine .step ?_ hs h
  unfold Dev.putZn
  repeat' first
    | simp +decide (maxDischargeDepth := 30) only [Dev.SameBut.refl, Dev.SameBut.ite, Dev.SameBut.upd, Dev.SameBut.upd', true_or, or_true, and_self, Dev.modCtx_keeps, Dev.modPath_keeps, Dev.setZ_keeps, Dev.bumpZ_keeps, Part.sub_reg]
    | split
  rename_i d1 he
  unfold Dev.enableStream at he
  split at he
  · cases he; simp +decide (maxDischargeDepth := 30) only [Dev.SameBut.refl, Dev.SameBut.ite, Dev.SameBut.upd, Dev.SameBut.upd', true_or, or_true, and_self, Dev.setZ_keeps, Part.sub_reg]
  · cases he

theorem Dev.putTable_keeps (x1) (x2) (x3)
    (hs : Part.sub [.banks, .reg Reg.ZN_STOP_LOST] l = true)
    (h : Dev.SameBut l a d) : Dev.SameBut l a (Dev.putTable d x1 x2 x3) := by
  refine .step ?_ hs h
  unfold Dev.putTable
  repeat' first
    | simp +decide (maxDischargeDepth := 30) only [Dev.SameBut.refl, Dev.modBank_keeps, Dev.writeOwner_keeps, Dev.SameBut.ite, Dev.SameBut.foldl]
    | split

theorem Dev.putBk_keeps (x1) (x2) (x3) (x4)
    (hs : Part.sub [.banks, .draws] l = true)
    (h : Dev.SameBut l a d) : Dev.SameBut l a (Dev.putBk d x1 x2 x3 x4) := by
  refine .step ?_ hs h
  unfold Dev.putBk
  repeat' first
    | simp +decide (maxDischargeDepth := 30) only [Dev.SameBut.refl, Dev.recFreeze_keeps, Dev.recRd_keeps, Dev.modBank_keeps, Dev.SameBut.ite]
    | split

theorem Dev.put_keeps (x1) (x2) (x3) (x4)
    (hs : Part.sub [.banks, .ctxs, .dbg, .draws, .port, .regs, .wisps] l = true)
    (h : Dev.SameBut l a d) : Dev.SameBut l a (Dev.put d x1 x2 x3 x4) := by
  refine .step ?_ hs h
  unfold Dev.put
  repeat' first
    | simp +decide (maxDischargeDepth := 30) only [Dev.SameBut.refl, Dev.putZn_keeps, Dev.putTable_keeps, Dev.putBk_keeps, Dev.wsRecFreeze_keeps, Dev.modWisp_keeps, Dev.SameBut.ite, Part.sub_reg]
    | split

theorem Dev.badWrite_keeps (x1)
    (hs : Part.sub [.reg Reg.ZN_ALM_CNT_FROZEN, .reg Reg.ZN_REG_CNT_HOLE] l = true)
    (h : Dev.SameBut l a d) : Dev.SameBut l a (Dev.badWrite d x1) := by
  refine .step ?_ hs h
  unfold Dev.badWrite
  simp +decide (maxDischargeDepth := 30) only [Dev.SameBut.refl, Dev.bumpZ_keeps, Dev.SameBut.ite]

theorem Dev.indDone_keeps (x1) (x2) (x3)
    (hs : Part.sub [.port] l = true)
    (h : Dev.SameBut l a d) : Dev.SameBut l a (Dev.indDone d x1 x2 x3) := by
  refine .step ?_ hs h
  unfold Dev.indDone
  simp +decide (maxDischargeDepth := 30) only [Dev.SameBut.refl, Dev.modPath_keeps, Dev.SameBut.ite]

theorem Dev.clearMailbox_keeps (x1) (x2)
    (hs : Part.sub [.port] l = true)
    (h : Dev.SameBut l a d) : Dev.SameBut l a (Dev.clearMailbox d x1 x2) := by
  refine .step ?_ hs h
  unfold Dev.clearMailbox
  repeat' first
    | simp +decide (maxDischargeDepth := 30) only [Dev.SameBut.refl, Dev.modPath_keeps, Dev.SameBut.ite]
    | split

theorem Dev.readNow_keeps (x1) (x2)
    (hs : Part.sub [.banks, .port] l = true)
    (h : Dev.SameBut l a d) : Dev.SameBut l a (Dev.readNow d x1 x2) := by
  refine .step ?_ hs h
  unfold Dev.readNow
  repeat' first
    | simp +decide (maxDischargeDepth := 30) only [Dev.SameBut.refl, Dev.recW0_keeps, Dev.recW7_keeps, Dev.clearMailbox_keeps, Dev.SameBut.ite, Dev.SameBut.upd, Dev.SameBut.upd', true_or, or_true, and_self]
    | split

theorem Dev.readReg_keeps (x1) (x2)
    (hs : Part.sub [.banks, .port, .reg Reg.ZN_DBG_CNT_DENIED, .reg Reg.ZN_REG_CNT_DENIED, .reg Reg.ZN_REG_CNT_HOLE] l = true)
    (h : Dev.SameBut l a d) : Dev.SameBut l a (Dev.readReg d x1 x2) := by
  refine .step ?_ hs h
  unfold Dev.readReg
  simp +decide (maxDischargeDepth := 30) only [Dev.SameBut.refl, Dev.bumpZ_keeps, Dev.deniedRead_keeps, Dev.readNow_keeps, Dev.SameBut.ite, Dev.SameBut.upd, Dev.SameBut.upd', true_or, or_true, and_self]

theorem Dev.readInd__keeps (x1) (x2)
    (hs : Part.sub [.banks, .port, .reg Reg.ZN_DBG_CNT_DENIED, .reg Reg.ZN_REG_CNT_DENIED, .reg Reg.ZN_REG_CNT_HOLE] l = true)
    (h : Dev.SameBut l a d) : Dev.SameBut l a (Dev.readInd_ d x1 x2).1 := by
  refine .step ?_ hs h
  unfold Dev.readInd_
  repeat' first
    | simp +decide (maxDischargeDepth := 30) only [Dev.SameBut.refl, Dev.bumpZ_keeps, Dev.deniedRead_keeps, Dev.readNow_keeps, Dev.SameBut.ite, Dev.SameBut.upd, Dev.SameBut.upd', true_or, or_true, and_self]
    | split

theorem Dev.indRead_keeps (x1)
    (hs : Part.sub [.banks, .port, .reg Reg.ZN_DBG_CNT_DENIED, .reg Reg.ZN_REG_CNT_DENIED, .reg Reg.ZN_REG_CNT_HOLE] l = true)
    (h : Dev.SameBut l a d) : Dev.SameBut l a (Dev.indRead d x1) := by
  refine .step ?_ hs h
  unfold Dev.indRead
  simp +decide (maxDischargeDepth := 30) only [Dev.SameBut.refl, Dev.bumpZ_keeps, Dev.readInd__keeps, Dev.indDone_keeps, Dev.SameBut.ite, Dev.SameBut.upd, Dev.SameBut.upd', true_or, or_true, and_self]

theorem Dev.answer_keeps (x1)
    (hs : Part.sub [.afsin] l = true)
    (h : Dev.SameBut l a d) : Dev.SameBut l a (Dev.answer d x1) := by
  refine .step ?_ hs h
  unfold Dev.answer
  simp +decide (maxDischargeDepth := 30) only [Dev.SameBut.refl, Dev.SameBut.ite, Dev.SameBut.upd, Dev.SameBut.upd', true_or, or_true, and_self]

theorem Dev.respond_keeps (x1) (x2) (x3) (x4)
    (hs : Part.sub [.afsin] l = true)
    (h : Dev.SameBut l a d) : Dev.SameBut l a (Dev.respond d x1 x2 x3 x4) := by
  refine .step ?_ hs h
  unfold Dev.respond
  repeat' first
    | simp +decide (maxDischargeDepth := 30) only [Dev.SameBut.refl, Dev.answer_keeps, Dev.SameBut.ite]
    | split

theorem Dev.noteRequest_keeps (x1)
    (hs : Part.sub [.afsin] l = true)
    (h : Dev.SameBut l a d) : Dev.SameBut l a (Dev.noteRequest d x1) := by
  refine .step ?_ hs h
  unfold Dev.noteRequest
  simp +decide (maxDischargeDepth := 30) only [Dev.SameBut.refl, Dev.SameBut.ite, Dev.SameBut.upd, Dev.SameBut.upd', true_or, or_true, and_self]

theorem Dev.openSession_keeps (x1) (x2) (x3) (x4)
    (hs : Part.sub [.afsin, .draws] l = true)
    (h : Dev.SameBut l a d) : Dev.SameBut l a (Dev.openSession d x1 x2 x3 x4) := by
  refine .step ?_ hs h
  unfold Dev.openSession
  simp +decide (maxDischargeDepth := 30) only [Dev.SameBut.refl, Dev.respond_keeps, Dev.SameBut.ite, Dev.SameBut.upd, Dev.SameBut.upd', true_or, or_true, and_self, Dev.draw]

theorem Dev.closeSession_keeps
    (hs : Part.sub [.afsin] l = true)
    (h : Dev.SameBut l a d) : Dev.SameBut l a (Dev.closeSession d) := by
  refine .step ?_ hs h
  unfold Dev.closeSession
  simp +decide (maxDischargeDepth := 30) only [Dev.SameBut.refl, Dev.SameBut.ite, Dev.SameBut.upd, Dev.SameBut.upd', true_or, or_true, and_self]

theorem Dev.ackNotices_keeps (x1)
    (hs : Part.sub [.afsin] l = true)
    (h : Dev.SameBut l a d) : Dev.SameBut l a (Dev.ackNotices d x1) := by
  refine .step ?_ hs h
  unfold Dev.ackNotices
  simp +decide (maxDischargeDepth := 30) only [Dev.SameBut.refl, Dev.SameBut.ite, Dev.SameBut.upd, Dev.SameBut.upd', true_or, or_true, and_self]

theorem Dev.mgmtRead_keeps (x1) (x2)
    (hs : Part.sub [.banks, .port, .reg Reg.ZN_DBG_CNT_DENIED, .reg Reg.ZN_REG_CNT_DENIED, .reg Reg.ZN_REG_CNT_HOLE] l = true)
    (h : Dev.SameBut l a d) : Dev.SameBut l a (Dev.mgmtRead d x1 x2).1 := by
  refine .step ?_ hs h
  unfold Dev.mgmtRead
  repeat' first
    | simp +decide (maxDischargeDepth := 30) only [Dev.SameBut.refl, Dev.readReg_keeps, Dev.bumpZ_keeps, Dev.readInd__keeps, Dev.SameBut.ite, Dev.SameBut.upd, Dev.SameBut.upd', true_or, or_true, and_self]
    | split

theorem Dev.importEnd_keeps (x1)
    (hs : Part.sub [.jnl, .reg Reg.ZN_EXP_STAT] l = true)
    (h : Dev.SameBut l a d) : Dev.SameBut l a (Dev.importEnd d x1) := by
  refine .step ?_ hs h
  unfold Dev.importEnd
  simp +decide (maxDischargeDepth := 30) only [Dev.SameBut.refl, Dev.zEvent_keeps, Dev.setZf_keeps, Dev.SameBut.ite]

theorem Dev.importUnit_keeps (x1) (x2)
    (hs : Part.sub [.health] l = true)
    (h : Dev.SameBut l a d) : Dev.SameBut l a (Dev.importUnit d x1 x2) := by
  refine .step ?_ hs h
  unfold Dev.importUnit
  simp +decide (maxDischargeDepth := 30) only [Dev.SameBut.refl, Dev.loadUnit_keeps, Dev.SameBut.ite]

theorem Dev.importUnits_keeps (x1) (x2)
    (hs : Part.sub [.health] l = true)
    (h : Dev.SameBut l a d) : Dev.SameBut l a (Dev.importUnits d x1 x2) := by
  induction x2 generalizing d x1 with
  | nil => exact h
  | cons w x2 ih => exact ih _ (Dev.importUnit_keeps _ _ hs h)

theorem Dev.eclipsePriors_keeps
    (hs : Part.sub [.health] l = true)
    (h : Dev.SameBut l a d) : Dev.SameBut l a (Dev.eclipsePriors d) := by
  refine .step ?_ hs h
  unfold Dev.eclipsePriors
  repeat' first
    | simp +decide (maxDischargeDepth := 30) only [Dev.SameBut.refl, Dev.applyPrior_keeps, Dev.SameBut.ite, Dev.SameBut.foldl]
    | split
    | refine Dev.SameBut.foldl (fun _ _ => ?_) ?_

theorem Dev.importCore_keeps (x1) (x2) (x3)
    (hs : Part.sub [.banks, .dbg, .jnl, .reg Reg.ZN_STOP_LOST, .reg Reg.ZN_UHT_CNT_REMAP] l = true)
    (h : Dev.SameBut l a d) : Dev.SameBut l a (Dev.importCore d x1 x2 x3) := by
  refine .step ?_ hs h
  unfold Dev.importCore
  simp +decide (maxDischargeDepth := 30) only [Dev.SameBut.refl, Dev.modBank_keeps, Dev.mapCore_keeps, Dev.SameBut.ite]

theorem Dev.importMap_keeps (x1) (x2)
    (hs : Part.sub [.banks, .dbg, .jnl, .reg Reg.ZN_STOP_LOST, .reg Reg.ZN_UHT_CNT_REMAP] l = true)
    (h : Dev.SameBut l a d) : Dev.SameBut l a (Dev.importMap d x1 x2) := by
  refine .step ?_ hs h
  unfold Dev.importMap
  repeat' first
    | simp +decide (maxDischargeDepth := 30) only [Dev.SameBut.refl, Dev.importCore_keeps, Dev.SameBut.ite, Dev.SameBut.foldl]
    | split
    | refine Dev.SameBut.foldl (fun _ _ => ?_) ?_

theorem Dev.importRepairs_keeps (x1) (x2)
    (hs : Part.sub [.banks] l = true)
    (h : Dev.SameBut l a d) : Dev.SameBut l a (Dev.importRepairs d x1 x2) := by
  refine .step ?_ hs h
  unfold Dev.importRepairs
  simp +decide (maxDischargeDepth := 30) only [Dev.SameBut.refl, Dev.modBank_keeps, Dev.SameBut.ite]

theorem Dev.applyImport_keeps (x1)
    (hs : Part.sub [.afsin, .alarms, .banks, .ctxs, .dbg, .health, .jnl, .ledger, .pat, .wisps, .reg Reg.ZN_AFS_CNT_LOST, .reg Reg.ZN_AFS_CNT_SENT, .reg Reg.ZN_EXP_STAT, .reg Reg.ZN_HANG_CNT_ANV_ISO, .reg Reg.ZN_HANG_CNT_BANK_ISO, .reg Reg.ZN_JNL_CNT_CKPT, .reg Reg.ZN_STOP_LOST, .reg Reg.ZN_UHT_CNT_CLEAR, .reg Reg.ZN_UHT_CNT_ECLIPSE, .reg Reg.ZN_UHT_CNT_HAZE, .reg Reg.ZN_UHT_CNT_OVERCAST, .reg Reg.ZN_UHT_CNT_REMAP] l = true)
    (h : Dev.SameBut l a d) : Dev.SameBut l a (Dev.applyImport d x1) := by
  refine .step ?_ hs h
  unfold Dev.applyImport
  extract_lets d1 fresh d2 d3 d4 d5 _ _ d6
  have h1 : Dev.SameBut [.afsin, .alarms, .banks, .ctxs, .dbg, .health, .jnl, .ledger, .pat, .wisps, .reg Reg.ZN_AFS_CNT_LOST, .reg Reg.ZN_AFS_CNT_SENT, .reg Reg.ZN_EXP_STAT, .reg Reg.ZN_HANG_CNT_ANV_ISO, .reg Reg.ZN_HANG_CNT_BANK_ISO, .reg Reg.ZN_JNL_CNT_CKPT, .reg Reg.ZN_STOP_LOST, .reg Reg.ZN_UHT_CNT_CLEAR, .reg Reg.ZN_UHT_CNT_ECLIPSE, .reg Reg.ZN_UHT_CNT_HAZE, .reg Reg.ZN_UHT_CNT_OVERCAST, .reg Reg.ZN_UHT_CNT_REMAP] d d1 := Dev.eclipsePriors_keeps (Eq.refl true) (Dev.importUnits_keeps _ _ (Eq.refl true) (.refl _ _))
  have h2 : Dev.SameBut [.afsin, .alarms, .banks, .ctxs, .dbg, .health, .jnl, .ledger, .pat, .wisps, .reg Reg.ZN_AFS_CNT_LOST, .reg Reg.ZN_AFS_CNT_SENT, .reg Reg.ZN_EXP_STAT, .reg Reg.ZN_HANG_CNT_ANV_ISO, .reg Reg.ZN_HANG_CNT_BANK_ISO, .reg Reg.ZN_JNL_CNT_CKPT, .reg Reg.ZN_STOP_LOST, .reg Reg.ZN_UHT_CNT_CLEAR, .reg Reg.ZN_UHT_CNT_ECLIPSE, .reg Reg.ZN_UHT_CNT_HAZE, .reg Reg.ZN_UHT_CNT_OVERCAST, .reg Reg.ZN_UHT_CNT_REMAP] d d2 := Dev.SameBut.foldl (fun _ _ => Dev.settleEclipse_keeps _ (Eq.refl true) (.refl _ _)) h1
  have h3 : Dev.SameBut [.afsin, .alarms, .banks, .ctxs, .dbg, .health, .jnl, .ledger, .pat, .wisps, .reg Reg.ZN_AFS_CNT_LOST, .reg Reg.ZN_AFS_CNT_SENT, .reg Reg.ZN_EXP_STAT, .reg Reg.ZN_HANG_CNT_ANV_ISO, .reg Reg.ZN_HANG_CNT_BANK_ISO, .reg Reg.ZN_JNL_CNT_CKPT, .reg Reg.ZN_STOP_LOST, .reg Reg.ZN_UHT_CNT_CLEAR, .reg Reg.ZN_UHT_CNT_ECLIPSE, .reg Reg.ZN_UHT_CNT_HAZE, .reg Reg.ZN_UHT_CNT_OVERCAST, .reg Reg.ZN_UHT_CNT_REMAP] d d3 := Dev.SameBut.foldl (fun _ _ => Dev.importMap_keeps _ _ (Eq.refl true) (.refl _ _)) h2
  have h4 : Dev.SameBut [.afsin, .alarms, .banks, .ctxs, .dbg, .health, .jnl, .ledger, .pat, .wisps, .reg Reg.ZN_AFS_CNT_LOST, .reg Reg.ZN_AFS_CNT_SENT, .reg Reg.ZN_EXP_STAT, .reg Reg.ZN_HANG_CNT_ANV_ISO, .reg Reg.ZN_HANG_CNT_BANK_ISO, .reg Reg.ZN_JNL_CNT_CKPT, .reg Reg.ZN_STOP_LOST, .reg Reg.ZN_UHT_CNT_CLEAR, .reg Reg.ZN_UHT_CNT_ECLIPSE, .reg Reg.ZN_UHT_CNT_HAZE, .reg Reg.ZN_UHT_CNT_OVERCAST, .reg Reg.ZN_UHT_CNT_REMAP] d d4 := Dev.SameBut.foldl (fun _ _ => Dev.importRepairs_keeps _ _ (Eq.refl true) (.refl _ _)) h3
  have h5 : Dev.SameBut [.afsin, .alarms, .banks, .ctxs, .dbg, .health, .jnl, .ledger, .pat, .wisps, .reg Reg.ZN_AFS_CNT_LOST, .reg Reg.ZN_AFS_CNT_SENT, .reg Reg.ZN_EXP_STAT, .reg Reg.ZN_HANG_CNT_ANV_ISO, .reg Reg.ZN_HANG_CNT_BANK_ISO, .reg Reg.ZN_JNL_CNT_CKPT, .reg Reg.ZN_STOP_LOST, .reg Reg.ZN_UHT_CNT_CLEAR, .reg Reg.ZN_UHT_CNT_ECLIPSE, .reg Reg.ZN_UHT_CNT_HAZE, .reg Reg.ZN_UHT_CNT_OVERCAST, .reg Reg.ZN_UHT_CNT_REMAP] d d5 := Dev.jPush_keeps _ (Eq.refl true) (Dev.checkpoint_keeps (Eq.refl true) h4)
  have h6 : Dev.SameBut [.afsin, .alarms, .banks, .ctxs, .dbg, .health, .jnl, .ledger, .pat, .wisps, .reg Reg.ZN_AFS_CNT_LOST, .reg Reg.ZN_AFS_CNT_SENT, .reg Reg.ZN_EXP_STAT, .reg Reg.ZN_HANG_CNT_ANV_ISO, .reg Reg.ZN_HANG_CNT_BANK_ISO, .reg Reg.ZN_JNL_CNT_CKPT, .reg Reg.ZN_STOP_LOST, .reg Reg.ZN_UHT_CNT_CLEAR, .reg Reg.ZN_UHT_CNT_ECLIPSE, .reg Reg.ZN_UHT_CNT_HAZE, .reg Reg.ZN_UHT_CNT_OVERCAST, .reg Reg.ZN_UHT_CNT_REMAP] d d6 := by
    simp only [d6]
    simp +decide (maxDischargeDepth := 30) only [Dev.SameBut.refl, Dev.SameBut.ite, Dev.SameBut.upd, Dev.SameBut.upd', true_or, or_true, and_self, h5]
  exact Dev.importEnd_keeps _ (Eq.refl true) (Dev.writeHeader_keeps (Eq.refl true) h6)

theorem Dev.parkLost_keeps (x1) (x2)
    (hs : Part.sub [.wisps] l = true)
    (h : Dev.SameBut l a d) : Dev.SameBut l a (Dev.parkLost d x1 x2) := by
  refine .step ?_ hs h
  unfold Dev.parkLost
  simp +decide (maxDischargeDepth := 30) only [Dev.SameBut.refl, Dev.modWisp_keeps, Dev.SameBut.ite]

theorem Dev.hold_keeps (x1)
    (hs : Part.sub [.afsin, .alarm, .alarms, .aon, .banks, .cfg, .clock, .ctxs, .dbg, .draws, .floor, .frame, .fuses, .hang, .health, .hz, .jnl, .ledger, .pat, .pins, .port, .prot, .regs, .sd, .start, .stop, .thm, .wisps] l = true)
    (h : Dev.SameBut l a d) : Dev.SameBut l a (Dev.hold d x1) := by
  refine .step ?_ hs h
  unfold Dev.hold
  simp +decide (maxDischargeDepth := 30) only [Dev.SameBut.refl, Dev.resetZenith_keeps, Dev.SameBut.ite, Part.sub_reg]

theorem Dev.forward_keeps (x1) (x2) (x3) (x4)
    (hs : Part.sub [.jnl] l = true)
    (h : Dev.SameBut l a d) : Dev.SameBut l a (Dev.forward d x1 x2 x3 x4) := by
  refine .step ?_ hs h
  unfold Dev.forward
  repeat' first
    | simp +decide (maxDischargeDepth := 30) only [Dev.SameBut.refl, Dev.jPush_keeps, Dev.arbPush_keeps, Dev.SameBut.ite]
    | split

theorem Dev.acceptAt_keeps (x1) (x2) (x3)
    (hs : Part.sub [.banks, .jnl] l = true)
    (h : Dev.SameBut l a d) : Dev.SameBut l a (Dev.acceptAt d x1 x2 x3) := by
  refine .step ?_ hs h
  unfold Dev.acceptAt
  repeat' first
    | simp +decide (maxDischargeDepth := 30) only [Dev.SameBut.refl, Dev.forward_keeps, Dev.modBank_keeps, Dev.SameBut.ite]
    | split

theorem Dev.placeCand_keeps (x1) (x2) (x3)
    (hs : Part.sub [.banks, .ctxs, .wisps, .reg Reg.ZN_ANV_CNT_DROPPED, .reg Reg.ZN_STOP_LOST] l = true)
    (h : Dev.SameBut l a d) : Dev.SameBut l a (Dev.placeCand d x1 x2 x3) := by
  refine .step ?_ hs h
  unfold Dev.placeCand
  simp +decide (maxDischargeDepth := 30) only [Dev.SameBut.refl, Dev.wispEvent_keeps, Dev.modWisp_keeps, Dev.uncount_keeps, Dev.bumpZ_keeps, Dev.SameBut.ite]

theorem Dev.takeDraw_keeps (x1) (x2) (x3)
    (hs : Part.sub [.banks, .ctxs, .wisps, .reg Reg.ZN_ANV_CNT_DROPPED, .reg Reg.ZN_STOP_LOST] l = true)
    (h : Dev.SameBut l a d) : Dev.SameBut l a (Dev.takeDraw d x1 x2 x3) := by
  refine .step ?_ hs h
  unfold Dev.takeDraw
  repeat' first
    | simp +decide (maxDischargeDepth := 30) only [Dev.SameBut.refl, Dev.modWisp_keeps, Dev.modEpoch_keeps, Dev.placeCand_keeps, Dev.SameBut.ite]
    | split

theorem Dev.drawTile_keeps (x0) (x1) (x2) (x3) (x5)
    (hs : Part.sub [.banks, .ctxs, .wisps, .reg Reg.ZN_ANV_CNT_DROPPED, .reg Reg.ZN_STOP_LOST] l = true)
    (h : Dev.SameBut l a d) : Dev.SameBut l a (Dev.drawTile x0 x1 x2 x3 d x5) := by
  refine .step ?_ hs h
  unfold Dev.drawTile
  repeat' first
    | simp +decide (maxDischargeDepth := 30) only [Dev.SameBut.refl, Dev.modWisp_keeps, Dev.takeDraw_keeps, Dev.SameBut.ite]
    | split

theorem Dev.sampleWisp_keeps (x1) (x2) (x3)
    (hs : Part.sub [.banks, .ctxs, .wisps, .reg Reg.ZN_ANV_CNT_DROPPED, .reg Reg.ZN_STOP_LOST] l = true)
    (h : Dev.SameBut l a d) : Dev.SameBut l a (Dev.sampleWisp d x1 x2 x3) := by
  refine .step ?_ hs h
  unfold Dev.sampleWisp
  repeat' first
    | simp +decide (maxDischargeDepth := 30) only [Dev.SameBut.refl, Dev.modWisp_keeps, Dev.drawTile_keeps, Dev.SameBut.ite, Dev.SameBut.foldl]
    | split
    | refine Dev.SameBut.foldl (fun _ _ => ?_) ?_

theorem Dev.beginFrame_keeps
    (hs : Part.sub [.frame] l = true)
    (h : Dev.SameBut l a d) : Dev.SameBut l a (Dev.beginFrame d) := by
  refine .step ?_ hs h
  unfold Dev.beginFrame
  simp +decide (maxDischargeDepth := 30) only [Dev.SameBut.refl, Dev.SameBut.ite, Dev.SameBut.upd, Dev.SameBut.upd', true_or, or_true, and_self]

theorem Dev.takeLaunches_keeps
    (hs : Part.sub [.clock] l = true)
    (h : Dev.SameBut l a d) : Dev.SameBut l a (Dev.takeLaunches d) := by
  refine .step ?_ hs h
  unfold Dev.takeLaunches
  simp +decide (maxDischargeDepth := 30) only [Dev.SameBut.refl, Dev.SameBut.ite, Dev.SameBut.upd, Dev.SameBut.upd', true_or, or_true, and_self]

theorem Dev.slip_keeps (x1) (x2)
    (hs : Part.sub [.banks, .draws, .reg Reg.ZN_STOP_LOST, .reg Reg.ZN_TICK_FAULT] l = true)
    (h : Dev.SameBut l a d) : Dev.SameBut l a (Dev.slip d x1 x2) := by
  refine .step ?_ hs h
  unfold Dev.slip
  simp +decide (maxDischargeDepth := 30) only [Dev.SameBut.refl, Dev.modBank_keeps, Dev.setZf_keeps, Dev.bankEvent_keeps, Dev.SameBut.ite, Dev.SameBut.upd, Dev.SameBut.upd', true_or, or_true, and_self, Dev.draw]

theorem Dev.bankHeader_keeps (x1) (x2)
    (hs : Part.sub [.banks, .draws, .hang, .reg Reg.ZN_STOP_LOST, .reg Reg.ZN_TICK_FAULT] l = true)
    (h : Dev.SameBut l a d) : Dev.SameBut l a (Dev.bankHeader d x1 x2) := by
  refine .step ?_ hs h
  unfold Dev.bankHeader
  repeat' first
    | simp +decide (maxDischargeDepth := 30) only [Dev.SameBut.refl, Dev.modBank_keeps, Dev.setZf_keeps, Dev.wantChipReset_keeps, Dev.slip_keeps, Dev.SameBut.ite]
    | split

theorem Dev.headers_keeps (x1)
    (hs : Part.sub [.banks, .draws, .hang, .reg Reg.ZN_STOP_LOST, .reg Reg.ZN_TICK_FAULT, .reg Reg.ZN_TICK_LAT] l = true)
    (h : Dev.SameBut l a d) : Dev.SameBut l a (Dev.headers d x1) := by
  refine .step ?_ hs h
  unfold Dev.headers
  extract_lets flipped bad d1 odd d2 d3 silent d4
  have h1 : Dev.SameBut [.banks, .draws, .hang, .reg Reg.ZN_STOP_LOST, .reg Reg.ZN_TICK_FAULT, .reg Reg.ZN_TICK_LAT] d d1 := Dev.SameBut.foldl (fun _ _ => Dev.modBank_keeps _ _ (Eq.refl true) (.refl _ _)) (.refl _ _)
  have h2 : Dev.SameBut [.banks, .draws, .hang, .reg Reg.ZN_STOP_LOST, .reg Reg.ZN_TICK_FAULT, .reg Reg.ZN_TICK_LAT] d d2 := Dev.SameBut.foldl (fun _ _ => Dev.bankHeader_keeps _ _ (Eq.refl true) (.refl _ _)) h1
  have h3 : Dev.SameBut [.banks, .draws, .hang, .reg Reg.ZN_STOP_LOST, .reg Reg.ZN_TICK_FAULT, .reg Reg.ZN_TICK_LAT] d d3 := Dev.setZf_keeps _ _ _ _ (Eq.refl true) h2
  have h4 : Dev.SameBut [.banks, .draws, .hang, .reg Reg.ZN_STOP_LOST, .reg Reg.ZN_TICK_FAULT, .reg Reg.ZN_TICK_LAT] d d4 := Dev.SameBut.foldl (fun _ _ => Dev.modBank_keeps _ _ (Eq.refl true) (.refl _ _)) h3
  simp +decide (maxDischargeDepth := 30) only [Dev.SameBut.upd, true_or, or_true, and_self, h4]

theorem Dev.wispParity_keeps (x1) (x2) (x3)
    (hs : Part.sub [.wisps] l = true)
    (h : Dev.SameBut l a d) : Dev.SameBut l a (Dev.wispParity d x1 x2 x3) := by
  refine .step ?_ hs h
  unfold Dev.wispParity
  simp +decide (maxDischargeDepth := 30) only [Dev.SameBut.refl, Dev.modWisp_keeps, Dev.SameBut.ite]

theorem Dev.parityHit_keeps (x1)
    (hs : Part.sub [.afsin, .aon, .banks, .clock, .ctxs, .draws, .jnl, .wisps, .reg Reg.ZN_HANG_CNT_ANV_RESET, .reg Reg.ZN_STOP_LOST] l = true)
    (h : Dev.SameBut l a d) : Dev.SameBut l a (Dev.parityHit d x1) := by
  refine .step ?_ hs h
  unfold Dev.parityHit
  repeat' first
    | simp +decide (maxDischargeDepth := 30) only [Dev.SameBut.refl, Dev.wispParity_keeps, Dev.discard_keeps, Dev.startAnvilReset_keeps, Dev.modBank_keeps, Dev.closeSession_keeps, Dev.ensureSeedKey_keeps, Dev.bumpZ_keeps, Dev.SameBut.ite, Dev.SameBut.upd, Dev.SameBut.upd', true_or, or_true, and_self]
    | split

theorem Dev.pathHit_keeps (x1) (x2)
    (hs : Part.sub [.prot, .reg Reg.ZN_PROT_CNT_PAR] l = true)
    (hf : ∀ e, Dev.SameBut l e (x2 e))
    (h : Dev.SameBut l a d) : Dev.SameBut l a (Dev.pathHit d x1 x2) := by
  have h1 : Dev.SameBut l a (d.bumpZ Reg.ZN_PROT_CNT_PAR) :=
    Dev.SameBut.step (k := [.prot, .reg Reg.ZN_PROT_CNT_PAR]) (Dev.bumpZ_keeps _ (Eq.refl true) (.refl _ _)) hs h
  have h2 : ∀ t, Dev.SameBut l a { d.bumpZ Reg.ZN_PROT_CNT_PAR with prot.transfers := t } := fun t =>
    Dev.SameBut.step (k := [.prot, .reg Reg.ZN_PROT_CNT_PAR]) (by
      simp +decide (maxDischargeDepth := 30) only [Dev.SameBut.refl, Dev.SameBut.upd, Dev.SameBut.mk', true_or, or_true, and_self]) hs h1
  unfold Dev.pathHit
  dsimp only
  split
  · exact (h2 _).trans (hf _)
  · exact h2 _

theorem Dev.byteRead_keeps (x1)
    (hs : Part.sub [.afsin, .aon, .banks, .clock, .ctxs, .draws, .hang, .health, .jnl, .pat, .prot, .wisps, .reg Reg.ZN_AFS_CNT_LOST, .reg Reg.ZN_AFS_CNT_SENT, .reg Reg.ZN_HANG_CNT_ANV_ISO, .reg Reg.ZN_HANG_CNT_ANV_RESET, .reg Reg.ZN_HANG_CNT_BANK_ISO, .reg Reg.ZN_JNL_CNT_LOST, .reg Reg.ZN_PROT_CNT_PAR, .reg Reg.ZN_PROT_CNT_RELOAD, .reg Reg.ZN_STOP_LOST, .reg Reg.ZN_UHT_CNT_CLEAR, .reg Reg.ZN_UHT_CNT_ECLIPSE, .reg Reg.ZN_UHT_CNT_HAZE, .reg Reg.ZN_UHT_CNT_OVERCAST, .reg Reg.ZN_UHT_CNT_SET] l = true)
    (h : Dev.SameBut l a d) : Dev.SameBut l a (Dev.byteRead d x1) := by
  refine .step ?_ hs h
  unfold Dev.byteRead
  repeat' first
    | simp +decide (maxDischargeDepth := 30) only [Dev.SameBut.refl, Dev.satZ_keeps, Dev.parityHit_keeps, Dev.bumpZ_keeps, Dev.pathHit_keeps, Dev.pageLost_keeps, Dev.SameBut.ite, Dev.SameBut.upd, Dev.SameBut.upd', true_or, or_true, and_self, implies_true]
    | split

theorem Dev.reloadMaps_keeps
    (hs : Part.sub [.banks] l = true)
    (h : Dev.SameBut l a d) : Dev.SameBut l a (Dev.reloadMaps d) := by
  refine .step ?_ hs h
  unfold Dev.reloadMaps
  simp +decide (maxDischargeDepth := 30) only [Dev.SameBut.refl, Dev.SameBut.ite, Dev.SameBut.upd, Dev.SameBut.upd', true_or, or_true, and_self]

theorem Dev.samplePins_keeps (x1)
    (hs : Part.sub [.afsin, .alarm, .alarms, .aon, .banks, .jnl, .ledger, .pins, .sd, .reg Reg.ZN_AFS_CNT_LOST, .reg Reg.ZN_AFS_CNT_SENT, .reg Reg.ZN_ALM_CNT_RAISE, .reg Reg.ZN_EXP_STAT, .reg Reg.ZN_SD_STAT] l = true)
    (h : Dev.SameBut l a d) : Dev.SameBut l a (Dev.samplePins d x1) := by
  refine .step ?_ hs h
  unfold Dev.samplePins
  repeat' first
    | simp +decide (maxDischargeDepth := 30) only [Dev.SameBut.refl, Dev.alarmSource_keeps, Dev.SameBut.ite, Dev.SameBut.foldl, Dev.SameBut.upd, Dev.SameBut.upd', true_or, or_true, and_self]
    | split
    | refine Dev.SameBut.foldl (fun _ _ => ?_) ?_

theorem Dev.judgeFrame_keeps (x1) (x2) (x3) (x4)
    (hs : Part.sub [.banks] l = true)
    (h : Dev.SameBut l a d) : Dev.SameBut l a (Dev.judgeFrame d x1 x2 x3 x4) := by
  refine .step ?_ hs h
  unfold Dev.judgeFrame
  repeat' first
    | simp +decide (maxDischargeDepth := 30) only [Dev.SameBut.refl, Dev.modBank_keeps, Dev.SameBut.ite]
    | split

theorem Dev.receiveTick_keeps (x0) (x1) (x3)
    (hs : Part.sub [.banks, .wisps, .reg Reg.ZN_STOP_LOST] l = true)
    (h : Dev.SameBut l a d) : Dev.SameBut l a (Dev.receiveTick x0 x1 d x3) := by
  refine .step ?_ hs h
  unfold Dev.receiveTick
  simp +decide (maxDischargeDepth := 30) only [Dev.SameBut.refl, Dev.modWisp_keeps, Dev.judgeFrame_keeps, Dev.closeAll_keeps, Dev.rejoin_keeps, Dev.SameBut.ite]

theorem Dev.spoilTest_keeps (x1) (x2) (x3)
    (hs : Part.sub [.banks] l = true)
    (h : Dev.SameBut l a d) : Dev.SameBut l a (Dev.spoilTest d x1 x2 x3) := by
  refine .step ?_ hs h
  unfold Dev.spoilTest
  repeat' first
    | simp +decide (maxDischargeDepth := 30) only [Dev.SameBut.refl, Dev.modBank_keeps, Dev.SameBut.ite]
    | split

theorem Dev.missTick_keeps (x1) (x2)
    (hs : Part.sub [.banks, .wisps] l = true)
    (h : Dev.SameBut l a d) : Dev.SameBut l a (Dev.missTick d x1 x2) := by
  refine .step ?_ hs h
  unfold Dev.missTick
  simp +decide (maxDischargeDepth := 30) only [Dev.SameBut.refl, Dev.spoilTest_keeps, Dev.modWisp_keeps, Dev.judgeFrame_keeps, Dev.SameBut.ite]

theorem Dev.bankGap_keeps (x1)
    (hs : Part.sub [.banks] l = true)
    (h : Dev.SameBut l a d) : Dev.SameBut l a (Dev.bankGap d x1) := by
  refine .step ?_ hs h
  unfold Dev.bankGap
  repeat' first
    | simp +decide (maxDischargeDepth := 30) only [Dev.SameBut.refl, Dev.spoilTest_keeps, Dev.judgeFrame_keeps, Dev.SameBut.ite, Dev.SameBut.foldl]
    | split
    | refine Dev.SameBut.foldl (fun _ _ => ?_) ?_

theorem Dev.wispTicks_keeps (x1) (x2) (x3)
    (hs : Part.sub [.banks, .wisps, .reg Reg.ZN_STOP_LOST] l = true)
    (h : Dev.SameBut l a d) : Dev.SameBut l a (Dev.wispTicks d x1 x2 x3) := by
  refine .step ?_ hs h
  unfold Dev.wispTicks
  repeat' first
    | simp +decide (maxDischargeDepth := 30) only [Dev.SameBut.refl, Dev.receiveTick_keeps, Dev.bankGap_keeps, Dev.missTick_keeps, Dev.SameBut.ite, Dev.SameBut.foldl]
    | split
    | refine Dev.SameBut.foldl (fun _ _ => ?_) ?_

theorem Dev.countHeld_keeps
    (hs : Part.sub [.banks, .ctxs, .reg Reg.ZN_HZ_CNT_LOGFULL] l = true)
    (h : Dev.SameBut l a d) : Dev.SameBut l a (Dev.countHeld d) := by
  refine .step ?_ hs h
  unfold Dev.countHeld
  extract_lets held count deferred tested d1 full d2
  have hc : ∀ o n e, Dev.SameBut [.banks, .ctxs, .reg Reg.ZN_HZ_CNT_LOGFULL] d e → Dev.SameBut [.banks, .ctxs, .reg Reg.ZN_HZ_CNT_LOGFULL] d (count o n e) := fun o n e he =>
    Dev.SameBut.foldl (fun _ _ => Dev.modBank_keeps _ _ (Eq.refl true) (.refl _ _)) he
  have h1 : Dev.SameBut [.banks, .ctxs, .reg Reg.ZN_HZ_CNT_LOGFULL] d d1 := hc _ _ _ (hc _ _ _ (.refl _ _))
  have h2 : Dev.SameBut [.banks, .ctxs, .reg Reg.ZN_HZ_CNT_LOGFULL] d d2 := by
    simp only [d2]
    split
    · exact Dev.bumpZ_keeps _ (Eq.refl true) h1
    · exact h1
  simp +decide (maxDischargeDepth := 30) only [Dev.SameBut.refl, Dev.SameBut.ite, Dev.SameBut.upd, Dev.SameBut.upd', true_or, or_true, and_self, h2]

theorem Dev.quietTick_keeps (x0) (x2)
    (hs : Part.sub [.ctxs, .jnl] l = true)
    (h : Dev.SameBut l a d) : Dev.SameBut l a (Dev.quietTick x0 d x2) := by
  refine .step ?_ hs h
  unfold Dev.quietTick
  simp +decide (maxDischargeDepth := 30) only [Dev.SameBut.refl, Dev.modCtx_keeps, Dev.zEvent_keeps, Dev.SameBut.ite]

theorem Dev.dropHalts_keeps (x1)
    (hs : Part.sub [.dbg] l = true)
    (h : Dev.SameBut l a d) : Dev.SameBut l a (Dev.dropHalts d x1) := by
  refine .step ?_ hs h
  unfold Dev.dropHalts
  simp +decide (maxDischargeDepth := 30) only [Dev.SameBut.refl, Dev.SameBut.ite, Dev.SameBut.upd, Dev.SameBut.upd', true_or, or_true, and_self]

theorem Dev.ctxTick_keeps (x1)
    (hs : Part.sub [.afsin, .banks, .clock, .ctxs, .dbg, .hz, .jnl, .wisps, .reg Reg.ZN_AFS_CNT_LOST, .reg Reg.ZN_AFS_CNT_SENT, .reg Reg.ZN_HZ_CNT_EXPOSE_OUT] l = true)
    (h : Dev.SameBut l a d) : Dev.SameBut l a (Dev.ctxTick d x1) := by
  refine .step ?_ hs h
  unfold Dev.ctxTick
  simp +decide (maxDischargeDepth := 30) only [Dev.SameBut.refl, Dev.dropHalts_keeps, Dev.closeCtx_keeps, Dev.modCtx_keeps, Dev.emitExpose_keeps, Dev.tryCap_keeps, Dev.lostBoundary_keeps, Dev.SameBut.ite]

theorem Dev.marginSample_keeps (x0) (x2)
    (hs : Part.sub [.wisps] l = true)
    (h : Dev.SameBut l a d) : Dev.SameBut l a (Dev.marginSample x0 d x2) := by
  refine .step ?_ hs h
  unfold Dev.marginSample
  simp +decide (maxDischargeDepth := 30) only [Dev.SameBut.refl, Dev.modWisp_keeps, Dev.SameBut.ite]

theorem Dev.forwardVerdicts_keeps (x1)
    (hs : Part.sub [.banks, .jnl, .wisps] l = true)
    (h : Dev.SameBut l a d) : Dev.SameBut l a (Dev.forwardVerdicts d x1) := by
  refine .step ?_ hs h
  unfold Dev.forwardVerdicts
  dsimp only
  split
  · exact .refl _ _
  · refine Dev.SameBut.foldl (fun _ _ => Dev.arbPush_keeps _ (Eq.refl true) (.refl _ _)) (Dev.modBank_keeps _ _ (Eq.refl true) ?_)
    exact Dev.SameBut.foldl (fun _ _ => Dev.marginSample_keeps _ _ (Eq.refl true) (.refl _ _)) (.refl _ _)

theorem Dev.bankTick_keeps (x1)
    (hs : Part.sub [.banks, .ctxs, .dbg, .jnl, .wisps, .reg Reg.ZN_REC_CNT_CLEAR] l = true)
    (h : Dev.SameBut l a d) : Dev.SameBut l a (Dev.bankTick d x1) := by
  refine .step ?_ hs h
  unfold Dev.bankTick
  simp +decide (maxDischargeDepth := 30) only [Dev.SameBut.refl, Dev.modBank_keeps, Dev.forwardVerdicts_keeps, Dev.applyIdleOwners_keeps, Dev.readyRemaps_keeps, Dev.applyClear_keeps, Dev.SameBut.ite]

theorem Dev.retries_keeps
    (hs : Part.sub [.afsin, .banks, .clock, .ctxs, .dbg, .health, .hz, .jnl, .pat, .wisps, .reg Reg.ZN_AFS_CNT_LOST, .reg Reg.ZN_AFS_CNT_SENT, .reg Reg.ZN_HANG_CNT_ANV_ISO, .reg Reg.ZN_HANG_CNT_BANK_ISO, .reg Reg.ZN_HZ_CNT_ABANDONED, .reg Reg.ZN_STOP_LOST, .reg Reg.ZN_UHT_CNT_CLEAR, .reg Reg.ZN_UHT_CNT_ECLIPSE, .reg Reg.ZN_UHT_CNT_HAZE, .reg Reg.ZN_UHT_CNT_OVERCAST, .reg Reg.ZN_UHT_CNT_SET] l = true)
    (h : Dev.SameBut l a d) : Dev.SameBut l a (Dev.retries d) := by
  refine .step ?_ hs h
  unfold Dev.retries
  extract_lets again _ d1
  have h1 : Dev.SameBut [.afsin, .banks, .clock, .ctxs, .dbg, .health, .hz, .jnl, .pat, .wisps, .reg Reg.ZN_AFS_CNT_LOST, .reg Reg.ZN_AFS_CNT_SENT, .reg Reg.ZN_HANG_CNT_ANV_ISO, .reg Reg.ZN_HANG_CNT_BANK_ISO, .reg Reg.ZN_HZ_CNT_ABANDONED, .reg Reg.ZN_STOP_LOST, .reg Reg.ZN_UHT_CNT_CLEAR, .reg Reg.ZN_UHT_CNT_ECLIPSE, .reg Reg.ZN_UHT_CNT_HAZE, .reg Reg.ZN_UHT_CNT_OVERCAST, .reg Reg.ZN_UHT_CNT_SET] d d1 := Dev.SameBut.foldl (fun _ _ => Dev.zSubmit_keeps _ (Eq.refl true) (.refl _ _)) (by simp +decide (maxDischargeDepth := 30) only [Dev.SameBut.refl, Dev.SameBut.ite, Dev.SameBut.upd, Dev.SameBut.upd', true_or, or_true, and_self])
  exact Dev.advanceSuspects_keeps (Eq.refl true) h1

theorem Dev.liveTick_keeps (x1)
    (hs : Part.sub [.afsin, .banks, .clock, .ctxs, .dbg, .health, .hz, .jnl, .pat, .regs, .wisps] l = true)
    (h : Dev.SameBut l a d) : Dev.SameBut l a (Dev.liveTick d x1) := by
  refine .step ?_ hs h
  unfold Dev.liveTick
  extract_lets d1 acting d2 d3 _ d4
  have h1 : Dev.SameBut [.afsin, .banks, .clock, .ctxs, .dbg, .health, .hz, .jnl, .pat, .regs, .wisps] d d1 := Dev.SameBut.foldl (fun _ _ => Dev.ctxTick_keeps _ (Eq.refl true) (.refl _ _)) (.refl _ _)
  have h2 : Dev.SameBut [.afsin, .banks, .clock, .ctxs, .dbg, .health, .hz, .jnl, .pat, .regs, .wisps] d d2 := Dev.SameBut.foldl (fun _ _ => Dev.sampleWisp_keeps _ _ _ (Eq.refl true) (.refl _ _)) h1
  have h3 : Dev.SameBut [.afsin, .banks, .clock, .ctxs, .dbg, .health, .hz, .jnl, .pat, .regs, .wisps] d d3 := Dev.SameBut.foldl (fun _ _ => Dev.bankTick_keeps _ (Eq.refl true) (.refl _ _)) h2
  have h4 : Dev.SameBut [.afsin, .banks, .clock, .ctxs, .dbg, .health, .hz, .jnl, .pat, .regs, .wisps] d d4 := by
    simp only [d4]
    simp +decide (maxDischargeDepth := 30) only [Dev.SameBut.upd, true_or, or_true, and_self, h3]
  exact Dev.channelTick_keeps (Eq.refl true) (Dev.periodicSamples_keeps (Eq.refl true) (Dev.releaseHalts_keeps (Eq.refl true)
    (Dev.retries_keeps (Eq.refl true) h4)))

theorem Dev.engineTick_keeps (x1)
    (hs : Part.sub [.afsin, .alarms, .aon, .banks, .clock, .ctxs, .dbg, .draws, .hang, .health, .hz, .jnl, .pat, .pins, .prot, .regs, .sd, .start, .thm, .wisps] l = true)
    (h : Dev.SameBut l a d) : Dev.SameBut l a (Dev.engineTick d x1) := by
  refine .step ?_ hs h
  unfold Dev.engineTick
  extract_lets d1 d2 _ d3 running _ d4 d5 d6
  have h1 : Dev.SameBut [.afsin, .alarms, .aon, .banks, .clock, .ctxs, .dbg, .draws, .hang, .health, .hz, .jnl, .pat, .pins, .prot, .regs, .sd, .start, .thm, .wisps] d d1 := Dev.requestResets_keeps (Eq.refl true) (Dev.endCaptures_keeps (Eq.refl true) (.refl _ _))
  have h2 : Dev.SameBut [.afsin, .alarms, .aon, .banks, .clock, .ctxs, .dbg, .draws, .hang, .health, .hz, .jnl, .pat, .pins, .prot, .regs, .sd, .start, .thm, .wisps] d d2 := Dev.SameBut.foldl (fun _ _ => Dev.anvilBack_keeps _ (Eq.refl true) (.refl _ _)) h1
  have h3 : Dev.SameBut [.afsin, .alarms, .aon, .banks, .clock, .ctxs, .dbg, .draws, .hang, .health, .hz, .jnl, .pat, .pins, .prot, .regs, .sd, .start, .thm, .wisps] d d3 := by
    simp only [d3]
    split
    · exact Dev.chipReset_keeps _ (Eq.refl true) (by simp +decide (maxDischargeDepth := 30) only [Dev.SameBut.upd, true_or, or_true, and_self, h2])
    · exact h2
  have h4 : Dev.SameBut [.afsin, .alarms, .aon, .banks, .clock, .ctxs, .dbg, .draws, .hang, .health, .hz, .jnl, .pat, .pins, .prot, .regs, .sd, .start, .thm, .wisps] d d4 := by
    simp only [d4]
    split
    · simp +decide (maxDischargeDepth := 30) only [Dev.SameBut.upd, true_or, or_true, and_self, h3]
    · exact h3
  have h5 : Dev.SameBut [.afsin, .alarms, .aon, .banks, .clock, .ctxs, .dbg, .draws, .hang, .health, .hz, .jnl, .pat, .pins, .prot, .regs, .sd, .start, .thm, .wisps] d d5 := by
    simp only [d5]
    split
    · exact Dev.takeEstimates_keeps (Eq.refl true) h4
    · exact h4
  have h6 : Dev.SameBut [.afsin, .alarms, .aon, .banks, .clock, .ctxs, .dbg, .draws, .hang, .health, .hz, .jnl, .pat, .pins, .prot, .regs, .sd, .start, .thm, .wisps] d d6 := by
    simp only [d6]
    split
    · exact Dev.closeDebug_keeps (Eq.refl true) h5
    · exact h5
  exact Dev.snapExport_keeps (Eq.refl true) (Dev.drainContexts_keeps (Eq.refl true) (Dev.scrubTick_keeps _ (Eq.refl true)
    (Dev.patrolTick_keeps (Eq.refl true) (Dev.startTick_keeps (Eq.refl true) (Dev.sdTick_keeps (Eq.refl true) h6)))))

theorem Dev.tick_keeps (x1) (x2)
    (hs : Part.sub [.afsin, .alarm, .alarms, .aon, .banks, .clock, .ctxs, .dbg, .draws, .frame, .hang, .health, .hz, .jnl, .ledger, .pat, .pins, .prot, .regs, .sd, .start, .thm, .wisps] l = true)
    (h : Dev.SameBut l a d) : Dev.SameBut l a (Dev.tick d x1 x2) := by
  refine .step ?_ hs h
  unfold Dev.tick
  extract_lets stopped d1 d2 d3 d4 _ d5 s1 s2 d6 d7 d8
  have h1 : Dev.SameBut [.afsin, .alarm, .alarms, .aon, .banks, .clock, .ctxs, .dbg, .draws, .frame, .hang, .health, .hz, .jnl, .ledger, .pat, .pins, .prot, .regs, .sd, .start, .thm, .wisps] d d1 := Dev.ensureSeedKey_keeps (Eq.refl true) (Dev.takeLaunches_keeps (Eq.refl true) (Dev.beginFrame_keeps (Eq.refl true) (.refl _ _)))
  have h2 : Dev.SameBut [.afsin, .alarm, .alarms, .aon, .banks, .clock, .ctxs, .dbg, .draws, .frame, .hang, .health, .hz, .jnl, .ledger, .pat, .pins, .prot, .regs, .sd, .start, .thm, .wisps] d d2 := Dev.headers_keeps _ (Eq.refl true) (Dev.pageTick_keeps _ (Eq.refl true)
    (Dev.SameBut.foldl (fun _ _ => Dev.byteRead_keeps _ (Eq.refl true) (.refl _ _)) (Dev.reloadMaps_keeps (Eq.refl true) h1)))
  have h3 : Dev.SameBut [.afsin, .alarm, .alarms, .aon, .banks, .clock, .ctxs, .dbg, .draws, .frame, .hang, .health, .hz, .jnl, .ledger, .pat, .pins, .prot, .regs, .sd, .start, .thm, .wisps] d d3 := Dev.SameBut.foldl (fun _ _ => Dev.takeReading_keeps _ (Eq.refl true) (.refl _ _)) (Dev.samplePins_keeps _ (Eq.refl true) h2)
  have h4 : Dev.SameBut [.afsin, .alarm, .alarms, .aon, .banks, .clock, .ctxs, .dbg, .draws, .frame, .hang, .health, .hz, .jnl, .ledger, .pat, .pins, .prot, .regs, .sd, .start, .thm, .wisps] d d4 := Dev.wispTicks_keeps _ _ _ (Eq.refl true) (Dev.thermalTick_keeps (Eq.refl true) h3)
  have h5 : Dev.SameBut [.afsin, .alarm, .alarms, .aon, .banks, .clock, .ctxs, .dbg, .draws, .frame, .hang, .health, .hz, .jnl, .ledger, .pat, .pins, .prot, .regs, .sd, .start, .thm, .wisps] d d5 := by
    simp only [d5]
    simp +decide (maxDischargeDepth := 30) only [Dev.SameBut.upd, true_or, or_true, and_self, h4]
  have h6 : Dev.SameBut [.afsin, .alarm, .alarms, .aon, .banks, .clock, .ctxs, .dbg, .draws, .frame, .hang, .health, .hz, .jnl, .ledger, .pat, .pins, .prot, .regs, .sd, .start, .thm, .wisps] d d6 := by
    simp only [d6]
    split
    · exact h5
    · have hq := Dev.countHeld_keeps (l := [.afsin, .alarm, .alarms, .aon, .banks, .clock, .ctxs, .dbg, .draws, .frame, .hang, .health, .hz, .jnl, .ledger, .pat, .pins, .prot, .regs, .sd, .start, .thm, .wisps]) (Eq.refl true) h5
      simp +decide (maxDischargeDepth := 30) only [Dev.SameBut.upd, true_or, or_true, and_self, hq, s1, s2]
  have h7 : Dev.SameBut [.afsin, .alarm, .alarms, .aon, .banks, .clock, .ctxs, .dbg, .draws, .frame, .hang, .health, .hz, .jnl, .ledger, .pat, .pins, .prot, .regs, .sd, .start, .thm, .wisps] d d7 := Dev.SameBut.foldl (fun _ _ => Dev.quietTick_keeps _ _ (Eq.refl true) (.refl _ _)) h6
  have h8 : Dev.SameBut [.afsin, .alarm, .alarms, .aon, .banks, .clock, .ctxs, .dbg, .draws, .frame, .hang, .health, .hz, .jnl, .ledger, .pat, .pins, .prot, .regs, .sd, .start, .thm, .wisps] d d8 := by
    simp only [d8]
    split
    · exact Dev.channelPause_keeps (Eq.refl true) h7
    · exact Dev.liveTick_keeps _ (Eq.refl true) h7
  exact Dev.engineTick_keeps _ (Eq.refl true) h8

end Sys2Proof.Machine
end

