-- ==== Sys2Proof/Laws/State.lean ====
section
/-! SUPPORT. Reading the part after an update: one lemma per field per update, and what is read where something was written. -/

-- One proof after another: in one text with every other file, a task for each would take a thread for each.
set_option Elab.async false

namespace Sys2Proof.Machine

variable (d : Dev)

/-! ## Fields that an update leaves alone -/

@[simp] theorem Dev.setZ_clock (off : Nat) (w : Word) : (d.setZ off w).clock = d.clock := rfl
@[simp] theorem Dev.setZ_ctxs (off : Nat) (w : Word) : (d.setZ off w).ctxs = d.ctxs := rfl
@[simp] theorem Dev.setZ_hz (off : Nat) (w : Word) : (d.setZ off w).hz = d.hz := rfl
@[simp] theorem Dev.setZ_health (off : Nat) (w : Word) : (d.setZ off w).health = d.health := rfl
@[simp] theorem Dev.setZ_banks (off : Nat) (w : Word) : (d.setZ off w).banks = d.banks := rfl
@[simp] theorem Dev.setZ_wisps (off : Nat) (w : Word) : (d.setZ off w).wisps = d.wisps := rfl
@[simp] theorem Dev.setZ_thm (off : Nat) (w : Word) : (d.setZ off w).thm = d.thm := rfl
@[simp] theorem Dev.setZ_pat (off : Nat) (w : Word) : (d.setZ off w).pat = d.pat := rfl
@[simp] theorem Dev.setZ_sd (off : Nat) (w : Word) : (d.setZ off w).sd = d.sd := rfl
@[simp] theorem Dev.setZ_hang (off : Nat) (w : Word) : (d.setZ off w).hang = d.hang := rfl
@[simp] theorem Dev.setZ_jnl (off : Nat) (w : Word) : (d.setZ off w).jnl = d.jnl := rfl
@[simp] theorem Dev.setZ_dbg (off : Nat) (w : Word) : (d.setZ off w).dbg = d.dbg := rfl
@[simp] theorem Dev.setZ_aon (off : Nat) (w : Word) : (d.setZ off w).aon = d.aon := rfl
@[simp] theorem Dev.setZ_ledger (off : Nat) (w : Word) : (d.setZ off w).ledger = d.ledger := rfl
@[simp] theorem Dev.setZ_afsin (off : Nat) (w : Word) : (d.setZ off w).afsin = d.afsin := rfl
@[simp] theorem Dev.setZ_alarms (off : Nat) (w : Word) : (d.setZ off w).alarms = d.alarms := rfl
@[simp] theorem Dev.setZ_cfg (off : Nat) (w : Word) : (d.setZ off w).cfg = d.cfg := rfl
@[simp] theorem Dev.setZ_start (off : Nat) (w : Word) : (d.setZ off w).start = d.start := rfl
@[simp] theorem Dev.setZ_prot (off : Nat) (w : Word) : (d.setZ off w).prot = d.prot := rfl
@[simp] theorem Dev.setZ_pins (off : Nat) (w : Word) : (d.setZ off w).pins = d.pins := rfl
@[simp] theorem Dev.setZ_draws (off : Nat) (w : Word) : (d.setZ off w).draws = d.draws := rfl

@[simp] theorem Dev.setZf_clock (off hi lo v : Nat) : (d.setZf off hi lo v).clock = d.clock := rfl
@[simp] theorem Dev.setZf_ctxs (off hi lo v : Nat) : (d.setZf off hi lo v).ctxs = d.ctxs := rfl
@[simp] theorem Dev.setZf_hz (off hi lo v : Nat) : (d.setZf off hi lo v).hz = d.hz := rfl
@[simp] theorem Dev.setZf_health (off hi lo v : Nat) : (d.setZf off hi lo v).health = d.health := rfl
@[simp] theorem Dev.setZf_banks (off hi lo v : Nat) : (d.setZf off hi lo v).banks = d.banks := rfl
@[simp] theorem Dev.setZf_wisps (off hi lo v : Nat) : (d.setZf off hi lo v).wisps = d.wisps := rfl
@[simp] theorem Dev.setZf_thm (off hi lo v : Nat) : (d.setZf off hi lo v).thm = d.thm := rfl
@[simp] theorem Dev.setZf_pat (off hi lo v : Nat) : (d.setZf off hi lo v).pat = d.pat := rfl
@[simp] theorem Dev.setZf_sd (off hi lo v : Nat) : (d.setZf off hi lo v).sd = d.sd := rfl
@[simp] theorem Dev.setZf_hang (off hi lo v : Nat) : (d.setZf off hi lo v).hang = d.hang := rfl
@[simp] theorem Dev.setZf_jnl (off hi lo v : Nat) : (d.setZf off hi lo v).jnl = d.jnl := rfl
@[simp] theorem Dev.setZf_dbg (off hi lo v : Nat) : (d.setZf off hi lo v).dbg = d.dbg := rfl
@[simp] theorem Dev.setZf_aon (off hi lo v : Nat) : (d.setZf off hi lo v).aon = d.aon := rfl
@[simp] theorem Dev.setZf_ledger (off hi lo v : Nat) : (d.setZf off hi lo v).ledger = d.ledger := rfl
@[simp] theorem Dev.setZf_afsin (off hi lo v : Nat) : (d.setZf off hi lo v).afsin = d.afsin := rfl
@[simp] theorem Dev.setZf_alarms (off hi lo v : Nat) : (d.setZf off hi lo v).alarms = d.alarms := rfl
@[simp] theorem Dev.setZf_cfg (off hi lo v : Nat) : (d.setZf off hi lo v).cfg = d.cfg := rfl
@[simp] theorem Dev.setZf_start (off hi lo v : Nat) : (d.setZf off hi lo v).start = d.start := rfl
@[simp] theorem Dev.setZf_prot (off hi lo v : Nat) : (d.setZf off hi lo v).prot = d.prot := rfl
@[simp] theorem Dev.setZf_pins (off hi lo v : Nat) : (d.setZf off hi lo v).pins = d.pins := rfl
@[simp] theorem Dev.setZf_draws (off hi lo v : Nat) : (d.setZf off hi lo v).draws = d.draws := rfl

@[simp] theorem Dev.addZ_clock (off n : Nat) : (d.addZ off n).clock = d.clock := rfl
@[simp] theorem Dev.addZ_ctxs (off n : Nat) : (d.addZ off n).ctxs = d.ctxs := rfl
@[simp] theorem Dev.addZ_hz (off n : Nat) : (d.addZ off n).hz = d.hz := rfl
@[simp] theorem Dev.addZ_health (off n : Nat) : (d.addZ off n).health = d.health := rfl
@[simp] theorem Dev.addZ_banks (off n : Nat) : (d.addZ off n).banks = d.banks := rfl
@[simp] theorem Dev.addZ_wisps (off n : Nat) : (d.addZ off n).wisps = d.wisps := rfl
@[simp] theorem Dev.addZ_thm (off n : Nat) : (d.addZ off n).thm = d.thm := rfl
@[simp] theorem Dev.addZ_pat (off n : Nat) : (d.addZ off n).pat = d.pat := rfl
@[simp] theorem Dev.addZ_sd (off n : Nat) : (d.addZ off n).sd = d.sd := rfl
@[simp] theorem Dev.addZ_hang (off n : Nat) : (d.addZ off n).hang = d.hang := rfl
@[simp] theorem Dev.addZ_jnl (off n : Nat) : (d.addZ off n).jnl = d.jnl := rfl
@[simp] theorem Dev.addZ_dbg (off n : Nat) : (d.addZ off n).dbg = d.dbg := rfl
@[simp] theorem Dev.addZ_aon (off n : Nat) : (d.addZ off n).aon = d.aon := rfl
@[simp] theorem Dev.addZ_ledger (off n : Nat) : (d.addZ off n).ledger = d.ledger := rfl
@[simp] theorem Dev.addZ_afsin (off n : Nat) : (d.addZ off n).afsin = d.afsin := rfl
@[simp] theorem Dev.addZ_alarms (off n : Nat) : (d.addZ off n).alarms = d.alarms := rfl
@[simp] theorem Dev.addZ_cfg (off n : Nat) : (d.addZ off n).cfg = d.cfg := rfl
@[simp] theorem Dev.addZ_start (off n : Nat) : (d.addZ off n).start = d.start := rfl
@[simp] theorem Dev.addZ_prot (off n : Nat) : (d.addZ off n).prot = d.prot := rfl
@[simp] theorem Dev.addZ_pins (off n : Nat) : (d.addZ off n).pins = d.pins := rfl
@[simp] theorem Dev.addZ_draws (off n : Nat) : (d.addZ off n).draws = d.draws := rfl

@[simp] theorem Dev.bumpZ_clock (off : Nat) : (d.bumpZ off).clock = d.clock := rfl
@[simp] theorem Dev.bumpZ_ctxs (off : Nat) : (d.bumpZ off).ctxs = d.ctxs := rfl
@[simp] theorem Dev.bumpZ_hz (off : Nat) : (d.bumpZ off).hz = d.hz := rfl
@[simp] theorem Dev.bumpZ_health (off : Nat) : (d.bumpZ off).health = d.health := rfl
@[simp] theorem Dev.bumpZ_banks (off : Nat) : (d.bumpZ off).banks = d.banks := rfl
@[simp] theorem Dev.bumpZ_wisps (off : Nat) : (d.bumpZ off).wisps = d.wisps := rfl
@[simp] theorem Dev.bumpZ_thm (off : Nat) : (d.bumpZ off).thm = d.thm := rfl
@[simp] theorem Dev.bumpZ_pat (off : Nat) : (d.bumpZ off).pat = d.pat := rfl
@[simp] theorem Dev.bumpZ_sd (off : Nat) : (d.bumpZ off).sd = d.sd := rfl
@[simp] theorem Dev.bumpZ_hang (off : Nat) : (d.bumpZ off).hang = d.hang := rfl
@[simp] theorem Dev.bumpZ_jnl (off : Nat) : (d.bumpZ off).jnl = d.jnl := rfl
@[simp] theorem Dev.bumpZ_dbg (off : Nat) : (d.bumpZ off).dbg = d.dbg := rfl
@[simp] theorem Dev.bumpZ_aon (off : Nat) : (d.bumpZ off).aon = d.aon := rfl
@[simp] theorem Dev.bumpZ_ledger (off : Nat) : (d.bumpZ off).ledger = d.ledger := rfl
@[simp] theorem Dev.bumpZ_afsin (off : Nat) : (d.bumpZ off).afsin = d.afsin := rfl
@[simp] theorem Dev.bumpZ_alarms (off : Nat) : (d.bumpZ off).alarms = d.alarms := rfl
@[simp] theorem Dev.bumpZ_cfg (off : Nat) : (d.bumpZ off).cfg = d.cfg := rfl
@[simp] theorem Dev.bumpZ_start (off : Nat) : (d.bumpZ off).start = d.start := rfl
@[simp] theorem Dev.bumpZ_prot (off : Nat) : (d.bumpZ off).prot = d.prot := rfl
@[simp] theorem Dev.bumpZ_pins (off : Nat) : (d.bumpZ off).pins = d.pins := rfl
@[simp] theorem Dev.bumpZ_draws (off : Nat) : (d.bumpZ off).draws = d.draws := rfl

@[simp] theorem Dev.satZ_clock (off n : Nat) : (d.satZ off n).clock = d.clock := rfl
@[simp] theorem Dev.satZ_ctxs (off n : Nat) : (d.satZ off n).ctxs = d.ctxs := rfl
@[simp] theorem Dev.satZ_hz (off n : Nat) : (d.satZ off n).hz = d.hz := rfl
@[simp] theorem Dev.satZ_health (off n : Nat) : (d.satZ off n).health = d.health := rfl
@[simp] theorem Dev.satZ_banks (off n : Nat) : (d.satZ off n).banks = d.banks := rfl
@[simp] theorem Dev.satZ_wisps (off n : Nat) : (d.satZ off n).wisps = d.wisps := rfl
@[simp] theorem Dev.satZ_thm (off n : Nat) : (d.satZ off n).thm = d.thm := rfl
@[simp] theorem Dev.satZ_pat (off n : Nat) : (d.satZ off n).pat = d.pat := rfl
@[simp] theorem Dev.satZ_sd (off n : Nat) : (d.satZ off n).sd = d.sd := rfl
@[simp] theorem Dev.satZ_hang (off n : Nat) : (d.satZ off n).hang = d.hang := rfl
@[simp] theorem Dev.satZ_jnl (off n : Nat) : (d.satZ off n).jnl = d.jnl := rfl
@[simp] theorem Dev.satZ_dbg (off n : Nat) : (d.satZ off n).dbg = d.dbg := rfl
@[simp] theorem Dev.satZ_aon (off n : Nat) : (d.satZ off n).aon = d.aon := rfl
@[simp] theorem Dev.satZ_ledger (off n : Nat) : (d.satZ off n).ledger = d.ledger := rfl
@[simp] theorem Dev.satZ_afsin (off n : Nat) : (d.satZ off n).afsin = d.afsin := rfl
@[simp] theorem Dev.satZ_alarms (off n : Nat) : (d.satZ off n).alarms = d.alarms := rfl
@[simp] theorem Dev.satZ_cfg (off n : Nat) : (d.satZ off n).cfg = d.cfg := rfl
@[simp] theorem Dev.satZ_start (off n : Nat) : (d.satZ off n).start = d.start := rfl
@[simp] theorem Dev.satZ_prot (off n : Nat) : (d.satZ off n).prot = d.prot := rfl
@[simp] theorem Dev.satZ_pins (off n : Nat) : (d.satZ off n).pins = d.pins := rfl
@[simp] theorem Dev.satZ_draws (off n : Nat) : (d.satZ off n).draws = d.draws := rfl

@[simp] theorem Dev.modBank_clock (b : Nat) (f : Bank → Bank) : (d.modBank b f).clock = d.clock := rfl
@[simp] theorem Dev.modBank_regs (b : Nat) (f : Bank → Bank) : (d.modBank b f).regs = d.regs := rfl
@[simp] theorem Dev.modBank_ctxs (b : Nat) (f : Bank → Bank) : (d.modBank b f).ctxs = d.ctxs := rfl
@[simp] theorem Dev.modBank_hz (b : Nat) (f : Bank → Bank) : (d.modBank b f).hz = d.hz := rfl
@[simp] theorem Dev.modBank_health (b : Nat) (f : Bank → Bank) : (d.modBank b f).health = d.health := rfl
@[simp] theorem Dev.modBank_wisps (b : Nat) (f : Bank → Bank) : (d.modBank b f).wisps = d.wisps := rfl
@[simp] theorem Dev.modBank_thm (b : Nat) (f : Bank → Bank) : (d.modBank b f).thm = d.thm := rfl
@[simp] theorem Dev.modBank_pat (b : Nat) (f : Bank → Bank) : (d.modBank b f).pat = d.pat := rfl
@[simp] theorem Dev.modBank_sd (b : Nat) (f : Bank → Bank) : (d.modBank b f).sd = d.sd := rfl
@[simp] theorem Dev.modBank_hang (b : Nat) (f : Bank → Bank) : (d.modBank b f).hang = d.hang := rfl
@[simp] theorem Dev.modBank_jnl (b : Nat) (f : Bank → Bank) : (d.modBank b f).jnl = d.jnl := rfl
@[simp] theorem Dev.modBank_dbg (b : Nat) (f : Bank → Bank) : (d.modBank b f).dbg = d.dbg := rfl
@[simp] theorem Dev.modBank_aon (b : Nat) (f : Bank → Bank) : (d.modBank b f).aon = d.aon := rfl
@[simp] theorem Dev.modBank_ledger (b : Nat) (f : Bank → Bank) : (d.modBank b f).ledger = d.ledger := rfl
@[simp] theorem Dev.modBank_afsin (b : Nat) (f : Bank → Bank) : (d.modBank b f).afsin = d.afsin := rfl
@[simp] theorem Dev.modBank_alarms (b : Nat) (f : Bank → Bank) : (d.modBank b f).alarms = d.alarms := rfl
@[simp] theorem Dev.modBank_cfg (b : Nat) (f : Bank → Bank) : (d.modBank b f).cfg = d.cfg := rfl
@[simp] theorem Dev.modBank_start (b : Nat) (f : Bank → Bank) : (d.modBank b f).start = d.start := rfl
@[simp] theorem Dev.modBank_prot (b : Nat) (f : Bank → Bank) : (d.modBank b f).prot = d.prot := rfl
@[simp] theorem Dev.modBank_pins (b : Nat) (f : Bank → Bank) : (d.modBank b f).pins = d.pins := rfl
@[simp] theorem Dev.modBank_draws (b : Nat) (f : Bank → Bank) : (d.modBank b f).draws = d.draws := rfl

@[simp] theorem Dev.modBanks_clock (f : Nat → Bank → Bank) : (d.modBanks f).clock = d.clock := rfl
@[simp] theorem Dev.modBanks_regs (f : Nat → Bank → Bank) : (d.modBanks f).regs = d.regs := rfl
@[simp] theorem Dev.modBanks_ctxs (f : Nat → Bank → Bank) : (d.modBanks f).ctxs = d.ctxs := rfl
@[simp] theorem Dev.modBanks_hz (f : Nat → Bank → Bank) : (d.modBanks f).hz = d.hz := rfl
@[simp] theorem Dev.modBanks_health (f : Nat → Bank → Bank) : (d.modBanks f).health = d.health := rfl
@[simp] theorem Dev.modBanks_wisps (f : Nat → Bank → Bank) : (d.modBanks f).wisps = d.wisps := rfl
@[simp] theorem Dev.modBanks_thm (f : Nat → Bank → Bank) : (d.modBanks f).thm = d.thm := rfl
@[simp] theorem Dev.modBanks_pat (f : Nat → Bank → Bank) : (d.modBanks f).pat = d.pat := rfl
@[simp] theorem Dev.modBanks_sd (f : Nat → Bank → Bank) : (d.modBanks f).sd = d.sd := rfl
@[simp] theorem Dev.modBanks_hang (f : Nat → Bank → Bank) : (d.modBanks f).hang = d.hang := rfl
@[simp] theorem Dev.modBanks_jnl (f : Nat → Bank → Bank) : (d.modBanks f).jnl = d.jnl := rfl
@[simp] theorem Dev.modBanks_dbg (f : Nat → Bank → Bank) : (d.modBanks f).dbg = d.dbg := rfl
@[simp] theorem Dev.modBanks_aon (f : Nat → Bank → Bank) : (d.modBanks f).aon = d.aon := rfl
@[simp] theorem Dev.modBanks_ledger (f : Nat → Bank → Bank) : (d.modBanks f).ledger = d.ledger := rfl
@[simp] theorem Dev.modBanks_afsin (f : Nat → Bank → Bank) : (d.modBanks f).afsin = d.afsin := rfl
@[simp] theorem Dev.modBanks_alarms (f : Nat → Bank → Bank) : (d.modBanks f).alarms = d.alarms := rfl
@[simp] theorem Dev.modBanks_cfg (f : Nat → Bank → Bank) : (d.modBanks f).cfg = d.cfg := rfl
@[simp] theorem Dev.modBanks_start (f : Nat → Bank → Bank) : (d.modBanks f).start = d.start := rfl
@[simp] theorem Dev.modBanks_prot (f : Nat → Bank → Bank) : (d.modBanks f).prot = d.prot := rfl
@[simp] theorem Dev.modBanks_pins (f : Nat → Bank → Bank) : (d.modBanks f).pins = d.pins := rfl
@[simp] theorem Dev.modBanks_draws (f : Nat → Bank → Bank) : (d.modBanks f).draws = d.draws := rfl

@[simp] theorem Dev.modWisp_clock (b p : Nat) (f : Wisp → Wisp) : (d.modWisp b p f).clock = d.clock := rfl
@[simp] theorem Dev.modWisp_regs (b p : Nat) (f : Wisp → Wisp) : (d.modWisp b p f).regs = d.regs := rfl
@[simp] theorem Dev.modWisp_ctxs (b p : Nat) (f : Wisp → Wisp) : (d.modWisp b p f).ctxs = d.ctxs := rfl
@[simp] theorem Dev.modWisp_hz (b p : Nat) (f : Wisp → Wisp) : (d.modWisp b p f).hz = d.hz := rfl
@[simp] theorem Dev.modWisp_health (b p : Nat) (f : Wisp → Wisp) : (d.modWisp b p f).health = d.health := rfl
@[simp] theorem Dev.modWisp_banks (b p : Nat) (f : Wisp → Wisp) : (d.modWisp b p f).banks = d.banks := rfl
@[simp] theorem Dev.modWisp_thm (b p : Nat) (f : Wisp → Wisp) : (d.modWisp b p f).thm = d.thm := rfl
@[simp] theorem Dev.modWisp_pat (b p : Nat) (f : Wisp → Wisp) : (d.modWisp b p f).pat = d.pat := rfl
@[simp] theorem Dev.modWisp_sd (b p : Nat) (f : Wisp → Wisp) : (d.modWisp b p f).sd = d.sd := rfl
@[simp] theorem Dev.modWisp_hang (b p : Nat) (f : Wisp → Wisp) : (d.modWisp b p f).hang = d.hang := rfl
@[simp] theorem Dev.modWisp_jnl (b p : Nat) (f : Wisp → Wisp) : (d.modWisp b p f).jnl = d.jnl := rfl
@[simp] theorem Dev.modWisp_dbg (b p : Nat) (f : Wisp → Wisp) : (d.modWisp b p f).dbg = d.dbg := rfl
@[simp] theorem Dev.modWisp_aon (b p : Nat) (f : Wisp → Wisp) : (d.modWisp b p f).aon = d.aon := rfl
@[simp] theorem Dev.modWisp_ledger (b p : Nat) (f : Wisp → Wisp) : (d.modWisp b p f).ledger = d.ledger := rfl
@[simp] theorem Dev.modWisp_afsin (b p : Nat) (f : Wisp → Wisp) : (d.modWisp b p f).afsin = d.afsin := rfl
@[simp] theorem Dev.modWisp_alarms (b p : Nat) (f : Wisp → Wisp) : (d.modWisp b p f).alarms = d.alarms := rfl
@[simp] theorem Dev.modWisp_cfg (b p : Nat) (f : Wisp → Wisp) : (d.modWisp b p f).cfg = d.cfg := rfl
@[simp] theorem Dev.modWisp_start (b p : Nat) (f : Wisp → Wisp) : (d.modWisp b p f).start = d.start := rfl
@[simp] theorem Dev.modWisp_prot (b p : Nat) (f : Wisp → Wisp) : (d.modWisp b p f).prot = d.prot := rfl
@[simp] theorem Dev.modWisp_pins (b p : Nat) (f : Wisp → Wisp) : (d.modWisp b p f).pins = d.pins := rfl
@[simp] theorem Dev.modWisp_draws (b p : Nat) (f : Wisp → Wisp) : (d.modWisp b p f).draws = d.draws := rfl

@[simp] theorem Dev.modCtx_clock (c : Nat) (f : Ctx → Ctx) : (d.modCtx c f).clock = d.clock := rfl
@[simp] theorem Dev.modCtx_regs (c : Nat) (f : Ctx → Ctx) : (d.modCtx c f).regs = d.regs := rfl
@[simp] theorem Dev.modCtx_hz (c : Nat) (f : Ctx → Ctx) : (d.modCtx c f).hz = d.hz := rfl
@[simp] theorem Dev.modCtx_health (c : Nat) (f : Ctx → Ctx) : (d.modCtx c f).health = d.health := rfl
@[simp] theorem Dev.modCtx_banks (c : Nat) (f : Ctx → Ctx) : (d.modCtx c f).banks = d.banks := rfl
@[simp] theorem Dev.modCtx_wisps (c : Nat) (f : Ctx → Ctx) : (d.modCtx c f).wisps = d.wisps := rfl
@[simp] theorem Dev.modCtx_thm (c : Nat) (f : Ctx → Ctx) : (d.modCtx c f).thm = d.thm := rfl
@[simp] theorem Dev.modCtx_pat (c : Nat) (f : Ctx → Ctx) : (d.modCtx c f).pat = d.pat := rfl
@[simp] theorem Dev.modCtx_sd (c : Nat) (f : Ctx → Ctx) : (d.modCtx c f).sd = d.sd := rfl
@[simp] theorem Dev.modCtx_hang (c : Nat) (f : Ctx → Ctx) : (d.modCtx c f).hang = d.hang := rfl
@[simp] theorem Dev.modCtx_jnl (c : Nat) (f : Ctx → Ctx) : (d.modCtx c f).jnl = d.jnl := rfl
@[simp] theorem Dev.modCtx_dbg (c : Nat) (f : Ctx → Ctx) : (d.modCtx c f).dbg = d.dbg := rfl
@[simp] theorem Dev.modCtx_aon (c : Nat) (f : Ctx → Ctx) : (d.modCtx c f).aon = d.aon := rfl
@[simp] theorem Dev.modCtx_ledger (c : Nat) (f : Ctx → Ctx) : (d.modCtx c f).ledger = d.ledger := rfl
@[simp] theorem Dev.modCtx_afsin (c : Nat) (f : Ctx → Ctx) : (d.modCtx c f).afsin = d.afsin := rfl
@[simp] theorem Dev.modCtx_alarms (c : Nat) (f : Ctx → Ctx) : (d.modCtx c f).alarms = d.alarms := rfl
@[simp] theorem Dev.modCtx_cfg (c : Nat) (f : Ctx → Ctx) : (d.modCtx c f).cfg = d.cfg := rfl
@[simp] theorem Dev.modCtx_start (c : Nat) (f : Ctx → Ctx) : (d.modCtx c f).start = d.start := rfl
@[simp] theorem Dev.modCtx_prot (c : Nat) (f : Ctx → Ctx) : (d.modCtx c f).prot = d.prot := rfl
@[simp] theorem Dev.modCtx_pins (c : Nat) (f : Ctx → Ctx) : (d.modCtx c f).pins = d.pins := rfl
@[simp] theorem Dev.modCtx_draws (c : Nat) (f : Ctx → Ctx) : (d.modCtx c f).draws = d.draws := rfl

@[simp] theorem Dev.modPath_clock (p : Path) (f : PathCopy → PathCopy) : (d.modPath p f).clock = d.clock := rfl
@[simp] theorem Dev.modPath_ctxs (p : Path) (f : PathCopy → PathCopy) : (d.modPath p f).ctxs = d.ctxs := rfl
@[simp] theorem Dev.modPath_hz (p : Path) (f : PathCopy → PathCopy) : (d.modPath p f).hz = d.hz := rfl
@[simp] theorem Dev.modPath_health (p : Path) (f : PathCopy → PathCopy) : (d.modPath p f).health = d.health := rfl
@[simp] theorem Dev.modPath_banks (p : Path) (f : PathCopy → PathCopy) : (d.modPath p f).banks = d.banks := rfl
@[simp] theorem Dev.modPath_wisps (p : Path) (f : PathCopy → PathCopy) : (d.modPath p f).wisps = d.wisps := rfl
@[simp] theorem Dev.modPath_thm (p : Path) (f : PathCopy → PathCopy) : (d.modPath p f).thm = d.thm := rfl
@[simp] theorem Dev.modPath_pat (p : Path) (f : PathCopy → PathCopy) : (d.modPath p f).pat = d.pat := rfl
@[simp] theorem Dev.modPath_sd (p : Path) (f : PathCopy → PathCopy) : (d.modPath p f).sd = d.sd := rfl
@[simp] theorem Dev.modPath_hang (p : Path) (f : PathCopy → PathCopy) : (d.modPath p f).hang = d.hang := rfl
@[simp] theorem Dev.modPath_jnl (p : Path) (f : PathCopy → PathCopy) : (d.modPath p f).jnl = d.jnl := rfl
@[simp] theorem Dev.modPath_dbg (p : Path) (f : PathCopy → PathCopy) : (d.modPath p f).dbg = d.dbg := rfl
@[simp] theorem Dev.modPath_aon (p : Path) (f : PathCopy → PathCopy) : (d.modPath p f).aon = d.aon := rfl
@[simp] theorem Dev.modPath_ledger (p : Path) (f : PathCopy → PathCopy) : (d.modPath p f).ledger = d.ledger := rfl
@[simp] theorem Dev.modPath_afsin (p : Path) (f : PathCopy → PathCopy) : (d.modPath p f).afsin = d.afsin := rfl
@[simp] theorem Dev.modPath_alarms (p : Path) (f : PathCopy → PathCopy) : (d.modPath p f).alarms = d.alarms := rfl
@[simp] theorem Dev.modPath_cfg (p : Path) (f : PathCopy → PathCopy) : (d.modPath p f).cfg = d.cfg := rfl
@[simp] theorem Dev.modPath_start (p : Path) (f : PathCopy → PathCopy) : (d.modPath p f).start = d.start := rfl
@[simp] theorem Dev.modPath_prot (p : Path) (f : PathCopy → PathCopy) : (d.modPath p f).prot = d.prot := rfl
@[simp] theorem Dev.modPath_pins (p : Path) (f : PathCopy → PathCopy) : (d.modPath p f).pins = d.pins := rfl
@[simp] theorem Dev.modPath_draws (p : Path) (f : PathCopy → PathCopy) : (d.modPath p f).draws = d.draws := rfl

@[simp] theorem Dev.jPush_clock (b : JBody) : (d.jPush b).clock = d.clock := rfl
@[simp] theorem Dev.jPush_regs (b : JBody) : (d.jPush b).regs = d.regs := rfl
@[simp] theorem Dev.jPush_ctxs (b : JBody) : (d.jPush b).ctxs = d.ctxs := rfl
@[simp] theorem Dev.jPush_hz (b : JBody) : (d.jPush b).hz = d.hz := rfl
@[simp] theorem Dev.jPush_health (b : JBody) : (d.jPush b).health = d.health := rfl
@[simp] theorem Dev.jPush_banks (b : JBody) : (d.jPush b).banks = d.banks := rfl
@[simp] theorem Dev.jPush_wisps (b : JBody) : (d.jPush b).wisps = d.wisps := rfl
@[simp] theorem Dev.jPush_thm (b : JBody) : (d.jPush b).thm = d.thm := rfl
@[simp] theorem Dev.jPush_pat (b : JBody) : (d.jPush b).pat = d.pat := rfl
@[simp] theorem Dev.jPush_sd (b : JBody) : (d.jPush b).sd = d.sd := rfl
@[simp] theorem Dev.jPush_hang (b : JBody) : (d.jPush b).hang = d.hang := rfl
@[simp] theorem Dev.jPush_dbg (b : JBody) : (d.jPush b).dbg = d.dbg := rfl
@[simp] theorem Dev.jPush_aon (b : JBody) : (d.jPush b).aon = d.aon := rfl
@[simp] theorem Dev.jPush_ledger (b : JBody) : (d.jPush b).ledger = d.ledger := rfl
@[simp] theorem Dev.jPush_afsin (b : JBody) : (d.jPush b).afsin = d.afsin := rfl
@[simp] theorem Dev.jPush_alarms (b : JBody) : (d.jPush b).alarms = d.alarms := rfl
@[simp] theorem Dev.jPush_cfg (b : JBody) : (d.jPush b).cfg = d.cfg := rfl
@[simp] theorem Dev.jPush_start (b : JBody) : (d.jPush b).start = d.start := rfl
@[simp] theorem Dev.jPush_prot (b : JBody) : (d.jPush b).prot = d.prot := rfl
@[simp] theorem Dev.jPush_pins (b : JBody) : (d.jPush b).pins = d.pins := rfl
@[simp] theorem Dev.jPush_draws (b : JBody) : (d.jPush b).draws = d.draws := rfl

@[simp] theorem Dev.zEvent_clock (source code ctx : Nat) (p0 p1 p2 p3 : Word) : (d.zEvent source code ctx p0 p1 p2 p3).clock = d.clock := rfl
@[simp] theorem Dev.zEvent_regs (source code ctx : Nat) (p0 p1 p2 p3 : Word) : (d.zEvent source code ctx p0 p1 p2 p3).regs = d.regs := rfl
@[simp] theorem Dev.zEvent_ctxs (source code ctx : Nat) (p0 p1 p2 p3 : Word) : (d.zEvent source code ctx p0 p1 p2 p3).ctxs = d.ctxs := rfl
@[simp] theorem Dev.zEvent_hz (source code ctx : Nat) (p0 p1 p2 p3 : Word) : (d.zEvent source code ctx p0 p1 p2 p3).hz = d.hz := rfl
@[simp] theorem Dev.zEvent_health (source code ctx : Nat) (p0 p1 p2 p3 : Word) : (d.zEvent source code ctx p0 p1 p2 p3).health = d.health := rfl
@[simp] theorem Dev.zEvent_banks (source code ctx : Nat) (p0 p1 p2 p3 : Word) : (d.zEvent source code ctx p0 p1 p2 p3).banks = d.banks := rfl
@[simp] theorem Dev.zEvent_wisps (source code ctx : Nat) (p0 p1 p2 p3 : Word) : (d.zEvent source code ctx p0 p1 p2 p3).wisps = d.wisps := rfl
@[simp] theorem Dev.zEvent_thm (source code ctx : Nat) (p0 p1 p2 p3 : Word) : (d.zEvent source code ctx p0 p1 p2 p3).thm = d.thm := rfl
@[simp] theorem Dev.zEvent_pat (source code ctx : Nat) (p0 p1 p2 p3 : Word) : (d.zEvent source code ctx p0 p1 p2 p3).pat = d.pat := rfl
@[simp] theorem Dev.zEvent_sd (source code ctx : Nat) (p0 p1 p2 p3 : Word) : (d.zEvent source code ctx p0 p1 p2 p3).sd = d.sd := rfl
@[simp] theorem Dev.zEvent_hang (source code ctx : Nat) (p0 p1 p2 p3 : Word) : (d.zEvent source code ctx p0 p1 p2 p3).hang = d.hang := rfl
@[simp] theorem Dev.zEvent_dbg (source code ctx : Nat) (p0 p1 p2 p3 : Word) : (d.zEvent source code ctx p0 p1 p2 p3).dbg = d.dbg := rfl
@[simp] theorem Dev.zEvent_aon (source code ctx : Nat) (p0 p1 p2 p3 : Word) : (d.zEvent source code ctx p0 p1 p2 p3).aon = d.aon := rfl
@[simp] theorem Dev.zEvent_ledger (source code ctx : Nat) (p0 p1 p2 p3 : Word) : (d.zEvent source code ctx p0 p1 p2 p3).ledger = d.ledger := rfl
@[simp] theorem Dev.zEvent_afsin (source code ctx : Nat) (p0 p1 p2 p3 : Word) : (d.zEvent source code ctx p0 p1 p2 p3).afsin = d.afsin := rfl
@[simp] theorem Dev.zEvent_alarms (source code ctx : Nat) (p0 p1 p2 p3 : Word) : (d.zEvent source code ctx p0 p1 p2 p3).alarms = d.alarms := rfl
@[simp] theorem Dev.zEvent_cfg (source code ctx : Nat) (p0 p1 p2 p3 : Word) : (d.zEvent source code ctx p0 p1 p2 p3).cfg = d.cfg := rfl
@[simp] theorem Dev.zEvent_start (source code ctx : Nat) (p0 p1 p2 p3 : Word) : (d.zEvent source code ctx p0 p1 p2 p3).start = d.start := rfl
@[simp] theorem Dev.zEvent_prot (source code ctx : Nat) (p0 p1 p2 p3 : Word) : (d.zEvent source code ctx p0 p1 p2 p3).prot = d.prot := rfl
@[simp] theorem Dev.zEvent_pins (source code ctx : Nat) (p0 p1 p2 p3 : Word) : (d.zEvent source code ctx p0 p1 p2 p3).pins = d.pins := rfl
@[simp] theorem Dev.zEvent_draws (source code ctx : Nat) (p0 p1 p2 p3 : Word) : (d.zEvent source code ctx p0 p1 p2 p3).draws = d.draws := rfl

@[simp] theorem State.onDev_pending (s : State) (f : Dev → Dev) : (s.onDev f).pending = s.pending := rfl
@[simp] theorem State.onDev_mem (s : State) (f : Dev → Dev) : (s.onDev f).mem = s.mem := rfl
@[simp] theorem State.onDev_dev (s : State) (f : Dev → Dev) : (s.onDev f).dev = f s.dev := rfl

/-! ## Reading what was written -/

@[simp] theorem Dev.zreg_setZ_same (off : Nat) (w : Word) : (d.setZ off w).zreg off = w := Tbl.get_set_same 0 d.regs.zn off w

theorem Dev.zreg_setZ_ne {off o : Nat} (w : Word) (h : o ≠ off) : (d.setZ off w).zreg o = d.zreg o :=
  Tbl.get_set_ne 0 d.regs.zn w h

@[simp] theorem Dev.zreg_setZf_same (off hi lo v : Nat) : (d.setZf off hi lo v).zreg off = setBits (d.zreg off) hi lo v :=
  d.zreg_setZ_same off _

@[simp] theorem Dev.zreg_addZ_same (off n : Nat) : (d.addZ off n).zreg off = d.zreg off + w32 n := d.zreg_setZ_same off _

@[simp] theorem Dev.zreg_bumpZ_same (off : Nat) : (d.bumpZ off).zreg off = d.zreg off + 1 := d.zreg_setZ_same off _

@[simp] theorem Dev.bank_modBank_same (b : Nat) (f : Bank → Bank) : (d.modBank b f).bank b = f (d.bank b) :=
  Tbl.get_modify_same Bank.init d.banks b f

theorem Dev.bank_modBank_ne {b c : Nat} (f : Bank → Bank) (h : c ≠ b) : (d.modBank b f).bank c = d.bank c :=
  Tbl.get_modify_ne Bank.init d.banks f h

@[simp] theorem Dev.wisp_modWisp_same (b p : Nat) (f : Wisp → Wisp) : (d.modWisp b p f).wisp b p = f (d.wisp b p) :=
  Tbl.get_modify_same Wisp.init d.wisps (coreUnit b p) f

theorem Dev.wisp_modWisp_ne {b p b' p' : Nat} (f : Wisp → Wisp) (h : coreUnit b' p' ≠ coreUnit b p) :
    (d.modWisp b p f).wisp b' p' = d.wisp b' p' := Tbl.get_modify_ne Wisp.init d.wisps f h

@[simp] theorem Dev.ctx_modCtx_same (c : Nat) (f : Ctx → Ctx) : (d.modCtx c f).ctx c = f (d.ctx c) :=
  Tbl.get_modify_same Ctx.init d.ctxs c f

theorem Dev.ctx_modCtx_ne {c e : Nat} (f : Ctx → Ctx) (h : e ≠ c) : (d.modCtx c f).ctx e = d.ctx e :=
  Tbl.get_modify_ne Ctx.init d.ctxs f h

@[simp] theorem Dev.path_modPath_same (p : Path) (f : PathCopy → PathCopy) : (d.modPath p f).path p = f (d.path p) :=
  Tbl.get_modify_same PathCopy.init d.regs.paths (pathNo p) f

@[simp] theorem Dev.bank_modWisp (b p c : Nat) (f : Wisp → Wisp) : (d.modWisp b p f).bank c = d.bank c := rfl
@[simp] theorem Dev.bank_modCtx (c b : Nat) (f : Ctx → Ctx) : (d.modCtx c f).bank b = d.bank b := rfl
@[simp] theorem Dev.bank_setZ (off : Nat) (w : Word) (b : Nat) : (d.setZ off w).bank b = d.bank b := rfl
@[simp] theorem Dev.wisp_modBank (b c p : Nat) (f : Bank → Bank) : (d.modBank b f).wisp c p = d.wisp c p := rfl
@[simp] theorem Dev.wisp_setZ (off : Nat) (w : Word) (b p : Nat) : (d.setZ off w).wisp b p = d.wisp b p := rfl
@[simp] theorem Dev.ctx_setZ (off : Nat) (w : Word) (c : Nat) : (d.setZ off w).ctx c = d.ctx c := rfl

/-- A field of a word that was written with it. -/
theorem bitsOf_setBits (w : Word) (hi lo v : Nat) (hlo : lo ≤ hi) (hhi : hi < 32) (hv : v < 2 ^ (hi + 1 - lo)) :
    bitsOf (setBits w hi lo v) hi lo = v := by
  have hA : w.toNat / 2 ^ (hi + 1) < 2 ^ (31 - hi) := by
    rw [Nat.div_lt_iff_lt_mul (Nat.pow_pos (by omega)), ← Nat.pow_add, show 31 - hi + (hi + 1) = 32 by omega]
    exact w.isLt
  have hB : w.toNat % 2 ^ lo < 2 ^ lo := Nat.mod_lt _ (Nat.pow_pos (by omega))
  have hQ : 2 ^ (hi + 1) = 2 ^ (hi + 1 - lo) * 2 ^ lo := by rw [← Nat.pow_add]; congr 1; omega
  have hT : (2 : Nat) ^ 32 = 2 ^ (31 - hi) * (2 ^ (hi + 1 - lo) * 2 ^ lo) := by
    rw [← hQ, ← Nat.pow_add]; congr 1; omega
  unfold bitsOf setBits
  simp only [BitVec.toNat_ofNat, Nat.mod_eq_of_lt hv]
  generalize w.toNat / 2 ^ (hi + 1) = a at *
  generalize w.toNat % 2 ^ lo = b at *
  rw [hQ, hT]
  generalize 2 ^ (hi + 1 - lo) = q at *
  generalize 2 ^ (31 - hi) = t at *
  generalize 2 ^ lo = p at *
  have e : a * (q * p) + v * p + b = (a * q + v) * p + b := by
    rw [Nat.add_mul, Nat.mul_assoc]
  have h1 : a * q + v < t * q := by
    calc a * q + v < a * q + q := by omega
      _ = (a + 1) * q := by rw [Nat.add_mul, Nat.one_mul]
      _ ≤ t * q := Nat.mul_le_mul_right q hA
  have h2 : (a * q + v) * p + b < t * (q * p) := by
    calc (a * q + v) * p + b < (a * q + v) * p + p := by omega
      _ = (a * q + v + 1) * p := by rw [Nat.add_mul (a * q + v) 1 p, Nat.one_mul]
      _ ≤ (t * q) * p := Nat.mul_le_mul_right p h1
      _ = t * (q * p) := Nat.mul_assoc t q p
  rw [e, Nat.mod_eq_of_lt h2, Nat.add_comm, Nat.add_mul_div_right b _ (by omega), Nat.div_eq_of_lt hB, Nat.zero_add,
    Nat.add_comm, Nat.add_mul_mod_self_right, Nat.mod_eq_of_lt hv]

end Sys2Proof.Machine
end

