-- ==== Sys2Proof/Laws/Steps.lean ====
section
/-! SUPPORT. What each operation over the whole state can change: the queue never, host memory only in its canonical form, and
the part in the pieces listed. -/

-- One proof after another: in one text with every other file, a task for each would take a thread for each.
set_option Elab.async false

namespace Sys2Proof.Machine

set_option linter.unusedSimpArgs false

/-! ## Host memory keeps its canonical form -/

theorem HostMem.wf_iff (m : HostMem) : m.wf = true ↔
    (Tbl.wf 0 m.bytes = true ∧ ∀ e ∈ m.bytes, e.1 < 2 ^ 48) ∧ (Tbl.wf 0 m.slots = true ∧ ∀ e ∈ m.slots, e.1 < 2 ^ 36) := by
  simp only [HostMem.wf, Bool.and_eq_true, List.all_eq_true, decide_eq_true_eq]
  exact ⟨fun ⟨⟨⟨a, b⟩, c⟩, d⟩ => ⟨⟨a, c⟩, b, d⟩, fun ⟨⟨a, c⟩, b, d⟩ => ⟨⟨⟨a, b⟩, c⟩, d⟩⟩

theorem Tbl.mem_put {α : Type} {t : Tbl α} {k : Nat} {v : α} {e : Nat × α} (h : e ∈ Tbl.put t k v) : e = (k, v) ∨ e ∈ t := by
  induction t with
  | nil => simpa [Tbl.put] using h
  | cons x t ih =>
    obtain ⟨j, y⟩ := x
    simp only [Tbl.put] at h
    split at h
    · rcases List.mem_cons.mp h with h | h
      · exact .inl h
      · exact .inr (List.mem_cons_of_mem _ h)
    · split at h
      · rcases List.mem_cons.mp h with h | h
        · exact .inl h
        · exact .inr h
      · rcases List.mem_cons.mp h with h | h
        · exact .inr (h ▸ List.mem_cons_self)
        · exact (ih h).imp id (List.mem_cons_of_mem _)

theorem Tbl.mem_erase {α : Type} {t : Tbl α} {k : Nat} {e : Nat × α} (h : e ∈ Tbl.erase t k) : e ∈ t := by
  induction t with
  | nil => simp [Tbl.erase] at h
  | cons x t ih =>
    obtain ⟨j, y⟩ := x
    simp only [Tbl.erase] at h
    split at h
    · exact List.mem_cons_of_mem _ (ih h)
    · rcases List.mem_cons.mp h with h | h
      · exact h ▸ List.mem_cons_self
      · exact List.mem_cons_of_mem _ (ih h)

theorem Tbl.bound_set {α : Type} [DecidableEq α] {d : α} {t : Tbl α} {k n : Nat} (v : α) (hk : k < n) (h : ∀ e ∈ t, e.1 < n) :
    ∀ e ∈ Tbl.set d t k v, e.1 < n := by
  intro e he
  unfold Tbl.set at he
  split at he
  · exact h e (Tbl.mem_erase he)
  · rcases Tbl.mem_put he with rfl | he
    · exact hk
    · exact h e he

theorem Tbl.fold_set_wf {α β : Type} [DecidableEq α] {d : α} {n : Nat} (k : β → Nat) (v : β → α) (hk : ∀ x, k x < n) (l : List β)
    {t : Tbl α} (h : Tbl.wf d t = true ∧ ∀ e ∈ t, e.1 < n) :
    Tbl.wf d (l.foldl (fun t x => Tbl.set d t (k x) (v x)) t) = true ∧
      ∀ e ∈ l.foldl (fun t x => Tbl.set d t (k x) (v x)) t, e.1 < n := by
  induction l generalizing t with
  | nil => exact h
  | cons x l ih => exact ih ⟨Tbl.wf_set _ _ h.1, Tbl.bound_set _ (hk x) h.2⟩

theorem HostMem.wf_write {m : HostMem} (addr : Nat) (l : List Byte) (h : m.wf = true) : (m.write addr l).wf = true := by
  rw [HostMem.wf_iff] at *
  exact ⟨Tbl.fold_set_wf (fun (x : Byte × Nat) => (addr + x.2) % 2 ^ 48) (fun x => x.1) (fun _ => Nat.mod_lt _ (by decide)) _ h.1, h.2⟩

theorem HostMem.wf_setSlot {m : HostMem} (addr : Nat) (w : DWord) (h : m.wf = true) : (m.setSlot addr w).wf = true := by
  rw [HostMem.wf_iff] at *
  exact ⟨h.1, Tbl.wf_set _ _ h.2.1, Tbl.bound_set _ (Nat.mod_lt _ (by decide)) h.2.2⟩

theorem HostMem.wf_writeRing {m : HostMem} (base size at_ : Nat) (l : List Byte) (h : m.wf = true) :
    (writeRing m base size at_ l).wf = true := by
  unfold writeRing
  split
  · exact h
  · rw [HostMem.wf_iff] at *
    exact ⟨Tbl.fold_set_wf (fun (x : Byte × Nat) => (base + (at_ + x.2) % size) % 2 ^ 48) (fun x => x.1) (fun _ => Nat.mod_lt _ (by decide)) _ h.1,
      h.2⟩

theorem Dev.logShares_wf (d : Dev) (c : Nat) {m : HostMem} (h : m.wf = true) : (d.logShares c m).wf = true := by
  unfold Dev.logShares
  split
  · exact HostMem.wf_writeRing _ _ _ _ h
  · exact h

/-! ## Steps that write host memory -/

/-- The waiting commands stay, host memory keeps its canonical form, and the part differs at most in the pieces listed. -/
structure State.WritesBut (l : List Part) (s t : State) : Prop where
  pending : t.pending = s.pending
  mem : s.mem.wf = true → t.mem.wf = true
  dev : Dev.SameBut l s.dev t.dev

theorem State.WritesBut.refl (l : List Part) (s : State) : State.WritesBut l s s := ⟨rfl, id, .refl _ _⟩

theorem State.WritesBut.trans {l : List Part} {s t u : State} (h1 : State.WritesBut l s t) (h2 : State.WritesBut l t u) :
    State.WritesBut l s u := ⟨h2.pending.trans h1.pending, h2.mem ∘ h1.mem, h1.dev.trans h2.dev⟩

theorem State.WritesBut.mono {k l : List Part} {s t : State} (h : State.WritesBut k s t) (hs : Part.sub k l = true) :
    State.WritesBut l s t := ⟨h.pending, h.mem, h.dev.mono hs⟩

theorem State.WritesBut.onDev {l : List Part} {s : State} {f : Dev → Dev} (h : Dev.SameBut l s.dev (f s.dev)) :
    State.WritesBut l s (s.onDev f) := ⟨rfl, id, h⟩

theorem State.WritesBut.foldl {l : List Part} {α : Type} {g : State → α → State} (h : ∀ s x, State.WritesBut l s (g s x))
    (xs : List α) (s : State) : State.WritesBut l s (xs.foldl g s) := by
  induction xs generalizing s with
  | nil => exact .refl _ _
  | cons x xs ih => exact (h s x).trans (ih _)

/-- A step that leaves host memory alone. -/
theorem State.SameBut.writes {l : List Part} {s t : State} (h : State.SameBut l s t) : State.WritesBut l s t :=
  ⟨h.1, fun hm => by rw [h.2.1]; exact hm, h.2.2⟩

variable (s : State)

theorem State.installCmd_writes (p : Path) : State.WritesBut [.pat, .reg Reg.ZN_PAT_STAT] s (s.installCmd p) := by
  unfold State.installCmd
  dsimp only
  split
  · exact ⟨rfl, id, Dev.patResult_keeps _ (Eq.refl true) (.refl _ _)⟩
  · refine ⟨rfl, fun h => ?_, Dev.stagePackage_keeps _ (Eq.refl true) (.refl _ _)⟩
    dsimp only
    split
    · split
      · exact HostMem.wf_write _ _ h
      · exact h
    · exact h

theorem State.bCommand_writes (p : Path) (b off : Nat) (v : Word) : State.WritesBut [.afsin, .banks, .clock, .ctxs, .dbg, .health, .hz, .jnl, .pat, .port, .wisps, .reg Reg.ZN_AFS_CNT_LOST, .reg Reg.ZN_AFS_CNT_SENT, .reg Reg.ZN_CFG_CNT_REJECT, .reg Reg.ZN_HANG_CNT_ANV_ISO, .reg Reg.ZN_HANG_CNT_BANK_ISO, .reg Reg.ZN_HANG_CNT_LATE, .reg Reg.ZN_HZ_CNT_ABANDONED, .reg Reg.ZN_HZ_CNT_REPLAYS, .reg Reg.ZN_STOP_LOST, .reg Reg.ZN_UHT_CNT_CLEAR, .reg Reg.ZN_UHT_CNT_ECLIPSE, .reg Reg.ZN_UHT_CNT_HAZE, .reg Reg.ZN_UHT_CNT_OVERCAST, .reg Reg.ZN_UHT_CNT_SET] s (s.bCommand p b off v) := by
  refine .onDev ?_
  repeat' first
    | simp +decide (maxDischargeDepth := 30) only [Dev.SameBut.refl, Dev.SameBut.ite, Dev.SameBut.upd, Dev.SameBut.upd', true_or, or_true, and_self, Dev.submit_keeps, Dev.endStep_keeps, Dev.ccDone_keeps, Dev.ccNofit_keeps, Dev.modBank_keeps]

theorem State.command_writes (p : Path) (t : Target) (v : Word) : State.WritesBut [.afsin, .alarms, .banks, .clock, .ctxs, .dbg, .draws, .hang, .health, .hz, .jnl, .pat, .port, .prot, .regs, .sd, .wisps] s (s.command p t v) := by
  unfold State.command
  split
  · split
    · exact (s.installCmd_writes p).mono (Eq.refl true)
    · exact .onDev (Dev.zCommand_keeps _ _ _ (Eq.refl true) (.refl _ _))
  · exact (s.bCommand_writes _ _ _ _).mono (Eq.refl true)
  · exact .onDev (Dev.wCommand_keeps _ _ _ _ (Eq.refl true) (.refl _ _))

theorem State.applyWrite_writes (p : Path) (t : Target) (v : Word) : State.WritesBut [.afsin, .alarms, .banks, .clock, .ctxs, .dbg, .draws, .hang, .health, .hz, .jnl, .pat, .port, .prot, .regs, .sd, .wisps] s (s.applyWrite p t v) := by
  unfold State.applyWrite
  repeat' first
    | exact .refl _ _
    | exact (s.command_writes p t v).mono (Eq.refl true)
    | exact .onDev (Dev.put_keeps _ _ _ _ (Eq.refl true) (.refl _ _))
    | split

theorem State.writeAt_writes (p : Path) (t : Target) (v : Word) : State.WritesBut [.afsin, .alarms, .banks, .clock, .ctxs, .dbg, .draws, .hang, .health, .hz, .jnl, .pat, .port, .prot, .regs, .sd, .wisps] s (s.writeAt p t v) := by
  unfold State.writeAt Dev.atTarget
  split
  · exact State.WritesBut.trans (State.WritesBut.onDev (f := fun d => d.onRefuse p t v .frozen) (l := [.afsin, .alarms, .banks, .clock, .ctxs, .dbg, .draws, .hang, .health, .hz, .jnl, .pat, .port, .prot, .regs, .sd, .wisps]) (Dev.onRefuse_keeps _ _ _ _ (Eq.refl true) (.refl _ _))) (State.applyWrite_writes _ p t v)
  split
  · exact ⟨rfl, id, Dev.onRefuse_keeps _ _ _ _ (Eq.refl true) (.refl _ _)⟩
  split
  · exact .refl _ _
  · exact (s.applyWrite_writes p t v).mono (Eq.refl true)

theorem bcastOne_writes (p : Path) (a v : Word) (x : State × Nat) (b : Nat) :
    State.WritesBut [.afsin, .alarms, .banks, .clock, .ctxs, .dbg, .draws, .hang, .health, .hz, .jnl, .pat, .port, .prot, .regs, .sd, .wisps] x.1 (bcastOne p a v x b).1 := by
  unfold bcastOne
  repeat' first
    | exact .refl _ _
    | exact .onDev (Dev.onRefuse_keeps _ _ _ _ (Eq.refl true) (.refl _ _))
    | exact (x.1.writeAt_writes _ _ _).mono (Eq.refl true)
    | dsimp only
    | split

theorem bcast_writes (p : Path) (a v : Word) (l : List Nat) (x : State × Nat) :
    State.WritesBut [.afsin, .alarms, .banks, .clock, .ctxs, .dbg, .draws, .hang, .health, .hz, .jnl, .pat, .port, .prot, .regs, .sd, .wisps] x.1 (l.foldl (bcastOne p a v) x).1 := by
  induction l generalizing x with
  | nil => exact .refl _ _
  | cons b l ih => exact (bcastOne_writes p a v x b).trans (ih _)

theorem State.writeInd_writes (p : Path) (a v : Word) : State.WritesBut [.afsin, .alarms, .banks, .clock, .ctxs, .dbg, .draws, .hang, .health, .hz, .jnl, .pat, .port, .prot, .regs, .sd, .wisps] s (s.writeInd p a v).1 := by
  unfold State.writeInd
  dsimp only
  split
  · dsimp only; exact .onDev (Dev.badWrite_keeps _ (Eq.refl true) (.refl _ _))
  split
  · split
    all_goals dsimp only
    all_goals first
      | exact (bcast_writes p a v _ (s, 0)).mono (Eq.refl true)
      | exact .onDev (Dev.onRefuse_keeps _ _ _ _ (Eq.refl true) (.refl _ _))
  split
  · dsimp only; exact .onDev (Dev.badWrite_keeps _ (Eq.refl true) (.refl _ _))
  split
  · dsimp only
    split
    · exact .onDev (Dev.onRefuse_keeps _ _ _ _ (Eq.refl true) (.refl _ _))
    · exact .refl _ _
  · dsimp only; exact (s.writeAt_writes _ _ _).mono (Eq.refl true)

theorem State.indWrite_writes (p : Path) (v : Word) : State.WritesBut [.afsin, .alarms, .banks, .clock, .ctxs, .dbg, .draws, .hang, .health, .hz, .jnl, .pat, .port, .prot, .regs, .sd, .wisps] s (s.indWrite p v) := by
  unfold State.indWrite
  split
  · exact .refl _ _
  split
  · exact .onDev (Dev.bumpZ_keeps _ (Eq.refl true) (.refl _ _))
  split
  · exact .onDev (Dev.onRefuse_keeps _ _ _ _ (Eq.refl true) (.refl _ _))
  · exact State.WritesBut.trans ((s.writeInd_writes _ _ _).mono (l := [.afsin, .alarms, .banks, .clock, .ctxs, .dbg, .draws, .hang, .health, .hz, .jnl, .pat, .port, .prot, .regs, .sd, .wisps]) (Eq.refl true)) (.onDev (Dev.indDone_keeps _ _ _ (Eq.refl true) (.refl _ _)))

theorem State.writeReg_writes (p : Path) (off : Nat) (v : Word) : State.WritesBut [.afsin, .alarms, .banks, .clock, .ctxs, .dbg, .draws, .hang, .health, .hz, .jnl, .pat, .port, .prot, .regs, .sd, .wisps] s (s.writeReg p off v) := by
  unfold State.writeReg
  dsimp only
  split
  · exact .refl _ _
  split
  · exact (s.indWrite_writes _ _).mono (Eq.refl true)
  · exact (s.writeAt_writes _ _ _).mono (Eq.refl true)

theorem State.aliasWrite_writes (b off k : Nat) (v : Word) (p : Path) : State.WritesBut [.afsin, .alarms, .banks, .clock, .ctxs, .dbg, .draws, .hang, .health, .hz, .jnl, .pat, .port, .prot, .regs, .sd, .wisps] s (s.aliasWrite b off k v p) := by
  unfold State.aliasWrite
  dsimp only
  repeat' first
    | exact .refl _ _
    | exact .onDev (Dev.onRefuse_keeps _ _ _ _ (Eq.refl true) (.refl _ _))
    | exact .onDev (Dev.bumpZ_keeps _ (Eq.refl true) (.refl _ _))
    | exact (s.writeAt_writes _ _ _).mono (Eq.refl true)
    | split

theorem State.mgmtWrite_writes (space : BitVec 8) (addr value : Word) : State.WritesBut [.afsin, .alarms, .banks, .clock, .ctxs, .dbg, .draws, .hang, .health, .hz, .jnl, .pat, .port, .prot, .regs, .sd, .wisps] s (s.mgmtWrite space addr value).1 := by
  unfold State.mgmtWrite
  split
  · split
    · dsimp only; exact (s.writeReg_writes _ _ _).mono (Eq.refl true)
    · dsimp only; exact .onDev (Dev.bumpZ_keeps _ (Eq.refl true) (.refl _ _))
  split
  · dsimp only; exact (s.writeInd_writes _ _ _).mono (Eq.refl true)
  · exact .refl _ _

/-- An Afsin request changes what its action changes, the Afsin state and the count of requests that do not authenticate. -/
theorem State.act_writes {l : List Part} (h : AfsHead) (code : Nat) (f : State → State × Answer)
    (hs : Part.sub [.afsin] l = true) (hf : ∀ s, State.WritesBut l s (f s).1) : State.WritesBut l s (s.act h code f) := by
  have h0 : State.WritesBut l s (s.onDev (fun d => d.noteRequest h)) := .onDev (Dev.noteRequest_keeps _ hs (.refl _ _))
  unfold State.act
  split
  rename_i s1 out he
  have h1 : State.WritesBut l s s1 := by
    have := hf (s.onDev (fun d => d.noteRequest h))
    rw [he] at this
    exact h0.trans this
  split
  · exact h1.trans (.onDev (Dev.respond_keeps _ _ _ _ hs (.refl _ _)))
  · exact h1

theorem State.request_writes {l : List Part} (h : AfsHead) (code : Nat) (body : List Byte) (f : State → State × Answer)
    (hs : Part.sub [.afsin, .reg Reg.ZN_AFS_CNT_BADAUTH] l = true) (hf : ∀ s, State.WritesBut l s (f s).1) : State.WritesBut l s (s.request h code body f) := by
  unfold State.request
  split
  · exact .refl _ _
  dsimp only
  split
  · exact s.act_writes h code f (by simp only [Part.sub, Bool.and_eq_true] at hs ⊢; exact ⟨hs.1, trivial⟩) hf
  · refine .onDev (Dev.SameBut.mono (k := [.afsin, .reg Reg.ZN_AFS_CNT_BADAUTH]) ?_ hs)
    simp +decide (maxDischargeDepth := 30) only [Dev.SameBut.refl, Dev.SameBut.ite, Dev.SameBut.upd, Dev.SameBut.upd', true_or, or_true, and_self, Dev.respond_keeps, Dev.bumpZ_keeps]

theorem State.requestDev_writes {l : List Part} (h : AfsHead) (code : Nat) (body : List Byte) (f : Dev → Dev × Nat)
    (hs : Part.sub [.afsin, .reg Reg.ZN_AFS_CNT_BADAUTH] l = true) (hf : ∀ d, Dev.SameBut l d (f d).1) : State.WritesBut l s (s.requestDev h code body f) :=
  s.request_writes h code body _ hs (fun s => ⟨rfl, id, hf s.dev⟩)

theorem writeClosed_writes (b p : Nat) : State.WritesBut [.wisps] s (writeClosed s b p) := by
  unfold writeClosed
  split
  · exact .refl _ _
  · refine ⟨rfl, fun h => HostMem.wf_setSlot _ _ h, ?_⟩
    exact Dev.wsCount_keeps _ _ _ _ (Eq.refl true) (Dev.modWisp_keeps _ _ _ (Eq.refl true) (.refl _ _))

theorem capWrite_writes (t : CapTrigger) (b : Nat) (r : CapRead) : State.WritesBut [.hang, .reg Reg.ZN_HANG_CNT_CAPLOST] s (capWrite s t b r) := by
  unfold capWrite
  dsimp only
  split
  all_goals
    constructor
    · rfl
    · intro h; dsimp only; exact HostMem.wf_writeRing _ _ _ _ h
    · dsimp only
      simp +decide (maxDischargeDepth := 30) only [Dev.SameBut.refl, Dev.SameBut.ite, Dev.SameBut.upd, Dev.SameBut.upd', true_or, or_true, and_self, Dev.addZ_keeps]

theorem drainTrace_writes (b : Nat) : State.WritesBut [.banks, .reg Reg.ZN_TRC_CNT_EVENTS] s (drainTrace s b) := by
  unfold drainTrace
  dsimp only
  have h0 : State.WritesBut [.banks, .reg Reg.ZN_TRC_CNT_EVENTS] s (s.onDev (fun d => d.traceLoss b)) :=
    .onDev (Dev.traceLoss_keeps _ (Eq.refl true) (.refl _ _))
  split
  · exact h0
  · exact h0.trans ⟨rfl, fun h => HostMem.wf_writeRing _ _ _ _ h, Dev.modBank_keeps _ _ (Eq.refl true) (Dev.addZ_keeps _ _ (Eq.refl true) (.refl _ _))⟩

theorem writeAllClosed_writes (b p n : Nat) : State.WritesBut [.wisps] s (writeAllClosed b p n s) := by
  induction n generalizing s with
  | zero => exact .refl _ _
  | succ n ih => exact (writeClosed_writes s b p).trans (ih _)

theorem State.parkNow_writes (b p : Nat) : State.WritesBut [.banks, .ctxs, .wisps, .reg Reg.ZN_STOP_LOST] s (s.parkNow b p) := by
  unfold State.parkNow
  refine State.WritesBut.trans ?_ (State.WritesBut.onDev (l := [.banks, .ctxs, .wisps, .reg Reg.ZN_STOP_LOST]) (Dev.modWisp_keeps _ _ _ (Eq.refl true) (Dev.modBank_keeps _ _ (Eq.refl true) (Dev.discard_keeps _ _ _ (Eq.refl true) (.refl _ _)))))
  exact State.WritesBut.trans (State.WritesBut.onDev (f := fun d => d.closeAll s.mem b p) (Dev.closeAll_keeps s.mem b p (l := [.banks, .ctxs, .wisps, .reg Reg.ZN_STOP_LOST]) (Eq.refl true) (.refl _ _))) ((writeAllClosed_writes _ _ _ _).mono (l := [.banks, .ctxs, .wisps, .reg Reg.ZN_STOP_LOST]) (Eq.refl true))

theorem State.latePark_writes (u : Nat) : State.WritesBut [.banks, .ctxs, .wisps, .reg Reg.ZN_STOP_LOST] s (s.latePark u) := by
  unfold State.latePark
  dsimp only
  split
  · exact s.parkNow_writes _ _
  · exact .refl _ _

theorem State.lateParks_writes  : State.WritesBut [.banks, .ctxs, .wisps, .reg Reg.ZN_STOP_LOST] s (s.lateParks) := by
  exact .foldl (fun s u => s.latePark_writes u) _ _

theorem State.tick_writes (inp : TickIn) : State.WritesBut [.afsin, .alarm, .alarms, .aon, .banks, .clock, .ctxs, .dbg, .draws, .frame, .hang, .health, .hz, .jnl, .ledger, .pat, .pins, .prot, .regs, .sd, .start, .thm, .wisps] s (s.tick inp) := by
  have h1 : State.WritesBut [.afsin, .alarm, .alarms, .aon, .banks, .clock, .ctxs, .dbg, .draws, .frame, .hang, .health, .hz, .jnl, .ledger, .pat, .pins, .prot, .regs, .sd, .start, .thm, .wisps] s (s.onDev (fun d => d.tick s.mem inp)) :=
    .onDev (Dev.tick_keeps s.mem inp (l := [.afsin, .alarm, .alarms, .aon, .banks, .clock, .ctxs, .dbg, .draws, .frame, .hang, .health, .hz, .jnl, .ledger, .pat, .pins, .prot, .regs, .sd, .start, .thm, .wisps]) (Eq.refl true) (.refl _ _))
  have h2 : ∀ (t : State) (l : List Nat), State.WritesBut [.afsin, .alarm, .alarms, .aon, .banks, .clock, .ctxs, .dbg, .draws, .frame, .hang, .health, .hz, .jnl, .ledger, .pat, .pins, .prot, .regs, .sd, .start, .thm, .wisps] t (l.foldl drainTrace t) := fun t l =>
    (State.WritesBut.foldl (fun s b => drainTrace_writes s b) l t).mono (Eq.refl true)
  have h3 : ∀ t : State, State.WritesBut [.afsin, .alarm, .alarms, .aon, .banks, .clock, .ctxs, .dbg, .draws, .frame, .hang, .health, .hz, .jnl, .ledger, .pat, .pins, .prot, .regs, .sd, .start, .thm, .wisps] t t.lateParks := fun t => (t.lateParks_writes).mono (Eq.refl true)
  exact (h1.trans (h2 _ _)).trans (h3 _)

end Sys2Proof.Machine
end

