-- ==== Sys2Proof/Tests/Slice0.lean ====
section
/-! SUPPORT. Checks of the model on small states: an ill-formed term for each check of WellFormed; for the statements, states
and operands that meet their hypotheses, with what one command then does to them; and worked values from the manual. -/

-- One proof after another: a task for each would take a thread for each.
set_option Elab.async false

namespace Sys2Proof.Tests
open Sys2Proof Sys2Proof.Machine

/-! ## Small states -/

/-- The part configured and running, with its Banks released. -/
def base : State :=
  { State.reset with
    dev := ({ State.reset.dev with
      start := { State.reset.dev.start with mode := .configured, step := 10, ready := true, active := true, banksReleased := true }
      clock := { State.reset.dev.clock with ticked := true } }).setZ Reg.ZN_CFG_STAT 1 }

/-- The running part changed by `f`. -/
def on (f : Dev → Dev) : State := base.onDev f

/-- The running part at frame `n`, changed by `f`. -/
def at' (n : Nat) (f : Dev → Dev) : State := (base.onDev (fun d => { d with clock.frame := n })).onDev f

/-- A command answers a next state that satisfies `f`. -/
def gives (c : Instr) (s : State) (f : Dev → Bool) : Bool :=
  match exec c s with
  | .next t => f t.dev
  | _ => false

/-- A command answers the same state. -/
def idle (c : Instr) (s : State) : Bool :=
  match exec c s with
  | .next t => decide (t = s)
  | _ => false

/-- A register command of the Zenith window is accepted. -/
def okZ (p : Path) (off : Nat) (v : Word) (s : State) : Bool :=
  !s.dev.off && !pathCc p && (s.dev.refuse p (.zn off) v).isNone

/-- What the check says. -/
theorem takesZ_of_okZ {p : Path} {off : Nat} {v : Word} {s : State} (h : okZ p off v s = true) : s.dev.takesZ p off v := by
  simpa [okZ, Dev.takesZ, and_assoc] using h

/-- A register command of a Bank or a Wisp is accepted. -/
def okAt (p : Path) (t : Target) (v : Word) (s : State) : Bool :=
  !s.dev.off && (s.dev.refuse p t v).isNone && decide (s.dev.reach t false ≠ 2) && !s.dev.inReset t &&
    (if pathCc p then ownBank p t else decide (s.dev.reach t false ≠ 3))

/-- A read of a Bank or a Wisp register is answered. -/
def okRead (p : Path) (t : Target) (s : State) : Bool :=
  !s.dev.readClamped p && t.row.isSome &&
    (if pathCc p then ownBank p t && decide (s.dev.reach t false ≠ 2) else s.dev.privReadOk p t && decide (s.dev.reach t false = 0))

/-- Bank 2. -/
def b2 : BankId := 2
/-- Position 5. -/
def p5 : Pos := 5

/-! ## Well-formed terms -/

theorem test_wf_store : (Instr.carriedStore b2 p5 0 (List.replicate 33 0)).wf = false := by decide
theorem test_wf_load : (Instr.carriedLoad b2 p5 0 (List.replicate 33 0)).wf = false := by decide
theorem test_wf_page : (Instr.pageDecodeDone ⟨.ring b2, 16⟩).wf = false := by decide
theorem test_wf_restart : (Instr.coreClockRestart b2 p5 ⟨false, ⟨List.replicate 9 0, 0⟩⟩).wf = false := by decide
theorem test_wf_hello : (Instr.helloReceive 0 [] 0).wf = false := by decide
theorem test_wf_commit : (Instr.commitReceive 0 (List.replicate 31 0)).wf = false := by decide
theorem test_wf_retract : (Instr.retractReceive 0 [1]).wf = false := by decide
theorem test_wf_expose : (Instr.exposeReceive 0 []).wf = false := by decide
theorem test_wf_tick_acts : (TickIn.mk [⟨b2, p5, List.replicate 9 0, 0, [], 0, 0, false, false, [], 0⟩] [] [] [] [] 0 0 [] [] [] true [] false).wf =
    false := by decide
theorem test_wf_tick_counts : (TickIn.mk [⟨b2, p5, [], 0, List.replicate 33 0, 0, 0, false, false, [], 0⟩] [] [] [] [] 0 0 [] [] [] true [] false).wf =
    false := by decide
theorem test_wf_tick_pages : (TickIn.mk [] [] [] [] [] 0 0 [] [(⟨.context, 16, 0⟩, 1)] [] true [] false).wf = false ∧
    (TickIn.mk [] [] [] [] [] 0 0 [] [] [⟨.stager b2, 4, 0⟩] true [] false).wf = false := by decide
/-- The faults of commands that no port carries (log entry 2). -/
theorem test_illformed_faults : exec (.carriedLoad b2 p5 0 (List.replicate 33 0)) base = .fault (.illFormed "CARRIED_LOAD") := rfl
/-- The pages of a Bank are 44, those of Zenith 2,964 (R463). -/
theorem test_pages : sumNat ([PageStore.ring b2, .queue b2, .operand b2, .stager b2].map PageStore.pages) = 44 ∧
    sumNat ([PageStore.healthTable, .pattern, .steward, .journal, .thermal, .horizon, .context].map PageStore.pages) = 2964 := by decide
theorem test_no_bits : decodeTableWord 16 0x1234 = none := by decide

/-! ## Frames, time, launch and stop -/

/-- A tick that every part answers. -/
def quietTick : TickIn := ⟨[], [], [], [], [], 0, 0, [], [], [], true, [], false⟩

theorem test_tick : (gives (.tick quietTick) State.reset (fun d => d.clock.ticked && d.clock.frame == 0) &&
    gives (.tick quietTick) base (fun d => d.clock.frame == 1 && d.zf Reg.ZN_CFG_STAT 3 0 == 1) &&
    gives (.tick quietTick) (at' (2 ^ 53 - 1) id) (fun d => d.clock.frame == 0)) = true := by decide +kernel
theorem test_tick_held : (!base.dev.off && idle (.tick quietTick) (on (fun d => { d with pins.resetHeld := true }))) = true := by
  decide +kernel

/-- The key of period 1 is drawn where there is none; the key of period 0 stays. -/
theorem test_seedPeriod : (let s := at' 70000 (fun d => { d with clock.seedKeys := [(0, 7)] })
    gives .seedPeriod s (fun d => (Tbl.find d.clock.seedKeys 1).isSome && Tbl.find d.clock.seedKeys 0 == some 7 && d.draws == 1)) = true := by
  rfl
theorem test_seedPeriod_stands : idle .seedPeriod (at' 70000 (fun d => { d with clock.seedKeys := [(1, 7)] })) = true := by decide +kernel

/-- A frame of period 1 is too young until frame 2 * 65536 + 65535. -/
def seedReg (f : Nat) (d : Dev) : Dev := (d.setZ Reg.ZN_SEED_FRAME_LO (w32 f))
theorem test_seedRead : (let young := at' 196606 (seedReg 70000)
    let gone := at' 196607 (seedReg 70000)
    let lost := at' 196607 (fun d => { seedReg 70000 d with clock.seedLost := [1] })
    okZ .mgmt Reg.ZN_SEED_CMD 1 young && gives (.seedRead .mgmt) young (fun d => d.zf Reg.ZN_SEED_MB_STAT 3 1 == 2) &&
    gives (.seedRead .mgmt) gone (fun d => d.zf Reg.ZN_SEED_MB_STAT 3 1 == 3) &&
    gives (.seedRead .mgmt) lost (fun d => d.zf Reg.ZN_SEED_MB_STAT 3 1 == 4)) = true := by decide +kernel
theorem test_seedRead_found : (let s := at' 131071 (fun d => { seedReg 0 d with clock.seedKeys := [(0, 0)] })
    gives (.seedRead .mgmt) s (fun d => d.zf Reg.ZN_SEED_MB_STAT 3 1 == 1 && (d.path .mgmt).seed.valid)) = true := by decide +kernel
/-- FIPS 197, appendix C.3, byte i of its strings being bits [8i + 7:8i]. -/
theorem test_aes256 : Crypto.aes256 0x1F1E1D1C1B1A191817161514131211100F0E0D0C0B0A09080706050403020100
    0xFFEEDDCCBBAA99887766554433221100 = 0x8960494B9049FCEABF456751CAB7A28E := by decide +kernel
theorem test_seed_p1_denied : gives (.seedRead .hostP1) base (fun d => d.zreg Reg.ZN_REG_CNT_DENIED == 1) = true := by decide +kernel

theorem test_timeSnap : (okZ .hostP1 Reg.ZN_TIME_CMD 1 base && gives (.timeSnap .hostP1 5) (at' 3 id) (fun d =>
    (d.path .hostP1).time == Mailbox.of [6149, 0] && (d.path .mgmt).time == Mailbox.init)) = true := by decide +kernel
theorem test_zclkMeasure : (gives (.zclkMeasure 1600000) (at' 1024 id) (fun d => d.clock.zclkKhz == 1600000) &&
    idle (.zclkMeasure 1600000) (at' 1023 id)) = true := by decide +kernel
theorem test_zclkChange : gives (.zclkChange 800000) base (fun d => d.clock.zclkNow == 800000 && d.clock.frame == 0) = true := by decide +kernel

/-- A Wisp that received frame 9 last rejoins at frame 12: it missed frames 10 and 11. -/
theorem test_coreClockRestart : (let s := at' 12 (fun d => d.modWisp 2 5 (fun w => { w with lastRx := some 9, missed := true }))
    !s.dev.bankDown 2 && !s.dev.clock.stopped && gives (.coreClockRestart b2 p5 ⟨false, ⟨[], 0⟩⟩) s (fun d =>
      (d.bank 2).ring.presented.map (fun x => (x.ev.code, x.ev.p0, x.ev.p1, x.ev.p2)) == [(0x01, 10, 0, 2)] &&
      (d.wisp 2 5).lastRx == some 12)) = true := by decide +kernel

/-- ARM of GSTOP for frame 0 at frame 5: the effective frame is 7, and the result MOVED. -/
def armed : State := at' 5 (fun d => d.setZ Reg.ZN_LAUNCH_ACT 1)
theorem test_launchArm : (okZ .hostP1 Reg.ZN_LAUNCH_CMD 1 armed && gives (.launchArm .hostP1) armed (fun d =>
      d.zf Reg.ZN_LAUNCH_STAT 3 0 == 2 && d.clock.launch == [(0, ⟨1, 0, 7⟩)] && d.zreg Reg.ZN_LAUNCH_FRAME_LO == 7) &&
    gives (.launchArm .hostP1) (at' 5 (fun d => d.setZ Reg.ZN_LAUNCH_ACT 0)) (fun d => d.zf Reg.ZN_LAUNCH_STAT 3 0 == 4) &&
    gives (.launchArm .hostP1) (at' 5 (fun d => d.setZ Reg.ZN_LAUNCH_ACT 5)) (fun d => d.zf Reg.ZN_LAUNCH_STAT 3 0 == 6)) = true := by
  decide +kernel
theorem test_launchArm_again : (let same := armed.onDev (fun d => { d with clock.launch := [(3, ⟨1, 0, 7⟩)] })
    let full := armed.onDev (fun d => { d with clock.launch := (List.range 8).map (fun i => (i, ⟨4, 0, 100 + i⟩)) })
    let other := at' 5 (fun d => ({ d with clock.launch := [(0, ⟨3, 1, 7⟩)] }).setZ Reg.ZN_LAUNCH_ACT 0x23)
    gives (.launchArm .hostP1) same (fun d => d.zf Reg.ZN_LAUNCH_STAT 6 4 == 3 && d.clock.launch.length == 1) &&
    gives (.launchArm .hostP1) full (fun d => d.zf Reg.ZN_LAUNCH_STAT 3 0 == 3 && d.clock.launch.length == 8) &&
    gives (.launchArm .hostP1) other (fun d => d.zf Reg.ZN_LAUNCH_STAT 3 0 == 3)) = true := by decide +kernel
theorem test_launchCancel : (let s := fun f => at' 5 (fun d => { d with clock.launch := [(3, ⟨1, 0, f⟩)] })
    okZ .hostP1 Reg.ZN_LAUNCH_CMD (w32 (2 + 256 * 3)) (s 9) &&
    gives (.launchCancel .hostP1 3) (s 9) (fun d => d.zf Reg.ZN_LAUNCH_STAT 3 0 == 5 && d.clock.launch == []) &&
    gives (.launchCancel .hostP1 3) (s 6) (fun d => d.zf Reg.ZN_LAUNCH_STAT 3 0 == 1 && d.clock.launch.length == 1) &&
    gives (.launchCancel .hostP1 2) (s 9) (fun d => d.zf Reg.ZN_LAUNCH_STAT 3 0 == 4)) = true := by decide +kernel

/-- A due action. -/
def due (a : Nat) (f : Dev → Dev) : State := at' 20 (fun d => f { d with clock.now := [⟨a, 0, 20⟩] })
theorem test_gstop : (gives .gstop (due 1 id) (fun d => d.clock.stopped && d.clock.stopFrame == 20 && d.clock.capturing.length == 192) &&
    gives .gstop (due 1 (fun d => { d with clock.stopped := true, clock.stopFrame := 3 })) (fun d => d.clock.stopFrame == 3)) = true := by
  decide +kernel
theorem test_gresume : (gives .gresume (due 2 (fun d => { d with clock.stopped := true })) (fun d => !d.clock.stopped &&
      d.zreg Reg.ZN_LAUNCH_FRAME_LO == 20) &&
    gives .gresume (due 2 (fun d => d.setZ Reg.ZN_LAUNCH_FRAME_LO 9)) (fun d => d.zreg Reg.ZN_LAUNCH_FRAME_LO == 9)) = true := by
  decide +kernel
/-- The reads of a Bank at a stop: position p within 96 zc from 96 p on. -/
def stopList : List CapRead := (List.range 264).map (fun p => ⟨some (Fin.ofNat 264 p), BitVec.ofNat 16 (96 * p), BitVec.ofNat 16 (96 * p + 96), false, []⟩)
theorem test_stopCaptureDone : (let s := on (fun d => { d with clock.stopped := true, clock.capturing := [2] })
    gives (.stopCaptureDone b2 stopList) s (fun d => d.zf Reg.ZN_STOP_STAT 9 2 == 1 && d.clock.capturing == []) &&
    idle (.stopCaptureDone 3 stopList) s && idle (.stopCaptureDone b2 stopList) base && idle (.stopCaptureDone b2 []) s) = true := by decide +kernel
/-- A capture takes the shares of the Wisps that act; a key that found no register stays invalid, a Wisp that missed the tick keeps its own. -/
theorem test_sigcap : (let s := due 3 (fun d => (d.modWisp 2 5 (fun w => { w with
      lastRx := some 20, shares := [⟨0, 7, 0, false, 0, 3, 0x55, false, 0⟩, ⟨0, 8, 0, false, 0, 2, 0x11, true, 0⟩] })).modWisp 2 6 (fun w => { w with
      lastRx := some 19, missed := true, shares := [⟨0, 7, 0, false, 0, 1, 0x33, false, 0⟩] }))
    gives .sigcap s (fun d => (d.wisp 2 5).shares == [⟨0, 8, 0, false, 0, 0, 0, true, 0⟩] && (d.wisp 2 6).shares.length == 1 &&
      d.hz.captured.map (fun e => (e.1, e.2.handle, e.2.blocks, e.2.sum)) == [(0, 7, 3, 0x55), (0, 8, 2, 0x11)])) = true := by decide +kernel
/-- At Gate the captured share is appended to the ring of the share log. -/
theorem test_sigcap_log : (let s := due 3 (fun d => ((({ d with cfg.regions := List.replicate 7 ⟨0x2000, 64⟩, hz.logAt := 1 } : Dev).modCtx 0 (fun x =>
      { x with core.level := 3, hz.epochs := [⟨6, none, false, 0, [], false, .live, true⟩] })).modWisp 2 5 (fun w =>
      { w with lastRx := some 20, shares := [⟨0, 7, 9, false, 0, 3, 0x55, false, 6⟩] })))
    match exec .sigcap s with
    | .next t => t.mem.read 0x2020 32 == [0, 0, 5, 0, 2, 0, 0, 0, 9, 0, 0, 0, 7, 0, 0, 0, 3, 0, 0, 0, 6, 0, 0, 0, 0x55, 0, 0, 0, 0, 0, 0, 0] &&
        t.dev.hz.logAt == 2 && t.dev.hz.log.length == 1
    | _ => false) = true := by decide +kernel
theorem test_ctrsnap : (let s := due 4 (fun d => (d.setZ Reg.ZN_CTR_S_CFG 1).setZ Reg.ZN_CTR_S_SIZE 1)
    s.dev.streamOn 0 && (s.dev.sampleBanks 0).contains 2 &&
    gives .ctrsnap s (fun d => Tbl.get 0 d.dbg.due 2 == 2 * 21 + 1)) = true := by decide +kernel
/-! ## Check words -/

/-- A store command of context 0: a block of 4,096 bytes at 0x10000. -/
def cmd0 : Cmd where
  ctx := 0
  layer := 1
  oper := 1
  step := 4
  tile := ⟨0, 0, 0, 0, 0⟩
  handle := 0x77
  base := 0x10000
  length := 4096
  fmt := 2
  carry := true
  isStore := true
  replay := false
  ticket := 0

/-- Context 0 at level Verify, with the Wisp changed by `f`. -/
def verify (f : Wisp → Wisp) : State :=
  on (fun d => (d.modCtx 0 (fun x => { x with core.level := 1 })).modWisp 2 5 f)

/-- A unit of sixteen bytes. -/
def unit16 : List Byte := List.replicate 16 9

theorem test_commandTap : (let s := verify (fun w => { w with cmd := some { cmd0 with oper := 7 }, opens := [⟨0x10000, 0, cmd0, none, [], false⟩] })
    s.dev.wispUp 2 5 && !s.dev.fenced 2 5 && gives (.commandTap b2 p5 cmd0) s (fun d => (d.wisp 2 5).cmd == some cmd0 &&
      (d.wisp 2 5).opens.isEmpty && (d.wisp 2 5).beacons == 1 && (d.ctx 0).core.step == 4 && (d.wisp 2 5).closed.length == 1)) = true := by
  decide +kernel
theorem test_commandTap_owner : (gives (.commandTap b2 p5 { cmd0 with ctx := 3 }) base (fun d => (d.bank 2).reg Reg.BK_CTX_MISMATCH == 1) &&
    idle (.commandTap b2 p5 cmd0) (on (fun d => d.modUht (coreUnit 2 5) (fun e => { e with state := .eclipse })))) = true := by
  decide +kernel
theorem test_carriedStore : (let s := verify (fun w => { w with cmd := some cmd0 })
    s.dev.carries 2 5 cmd0 && blockAt cmd0 0x10010 == some (0x10000, 0) && decide (16 < validBytes 4096 0) &&
    gives (.carriedStore b2 p5 0x10010 unit16) s (fun d => (d.wisp 2 5).opens ==
      [⟨0x10000, 0, cmd0, none, [(1, unit16)], false⟩])) = true := by decide +kernel
theorem test_checkWordWrite : (let s := verify (fun w => { w with closed := [⟨0x10000, 0xAB⟩] })
    !s.dev.clamped && gives (.checkWordWrite b2 p5) s (fun d => (d.wisp 2 5).closed.isEmpty && (d.wisp 2 5).reg Reg.WS_CW_GEN == 1) &&
    idle (.checkWordWrite b2 p5) (verify id)) = true := by decide +kernel
theorem test_checkWordWrite_slot : (match exec (.checkWordWrite b2 p5) (verify (fun w => { w with closed := [⟨0x10000, 0xAB⟩] })) with
    | .next t => decide (t.mem.slot 0x10FFF = 0xAB) && decide (t.mem.slot 0x11000 = 0)
    | _ => false) = true := by decide +kernel

/-- A load of the block with a word in its slot. -/
def loading (w : DWord) : State :=
  let s := verify (fun w => { w with cmd := some { cmd0 with isStore := false } })
  { s with mem := s.mem.setSlot 0x10000 w }
/-- The word of tag 0x77 and format 2 of a full block, its CRC 0 (R69). -/
def goodWord : DWord := checkWord 0 0x77 2 false false 4096
/-- The failing outcomes in the order of R82: MISSING, MALFORMED, TAG, LENGTH, FORMAT. -/
theorem test_carriedLoad : ([((0 : DWord), 0x10), (goodWord ||| 0x200, 0x11), (goodWord + 0x10000, 0x12), (goodWord - 0xFF + 0x200, 0x13),
      (goodWord + 0x1000, 0x14)].all (fun x =>
      let s := loading x.1
      bitOf ((s.dev.wisp 2 5).reg Reg.WS_CW_CTL) 1 && gives (.carriedLoad b2 p5 0x10000 unit16) s (fun d =>
        (d.bank 2).ring.presented.map (fun e => (e.source, e.ev.code, e.ev.p0)) == [(5, x.2, 0x77)]))) = true := by decide +kernel
theorem test_carriedLoad_taken : (gives (.carriedLoad b2 p5 0x10000 unit16) (loading goodWord) (fun d =>
      (d.wisp 2 5).loads.map (fun x => (x.blockAddr, x.word, x.taken, x.loaded)) == [(0x10000, goodWord, true, [(0, unit16)])]) &&
    idle (.carriedLoad b2 p5 0x10000 unit16) base) = true := by decide +kernel
/-- The CRC of the nine ASCII bytes "123456789" (R74). -/
theorem test_crc : crc32c [0x31, 0x32, 0x33, 0x34, 0x35, 0x36, 0x37, 0x38, 0x39] = 0xE3069283 := by decide +kernel
/-- The address of HOLD bit 5 in the bit window is the example of R495. -/
theorem test_bit_address : 0x100000 + 32 * 0x2008 + 4 * 5 = 0x140114 := by decide

/-! ## Candidates, descriptors and verdicts -/

/-- A DOT candidate of position 5, drawn outside an epoch. -/
def dot : Cand where
  op := 1
  src := 0
  chan := 0
  second := false
  validA := false
  validB := false
  ctx := 0
  pos := 5
  oper := 1
  step := 4
  decl := 0x4000
  row := 0
  col := 0
  count := 0
  blocks := 0
  sigA := 0
  sigB := 0
  handle := 0
  twoVec := false
  epoch := none
  tagNo := 0

theorem test_candidatePresent : (let s := on (fun d => d.modWisp 2 5 (fun w => { w with pend := [dot] }))
    !s.dev.bankDown 2 && (s.dev.bank 2).anv.room 0 0 1 && dot.entries == 1 && gives (.candidatePresent b2 p5) s (fun d =>
      (d.bank 2).anv.presented == [dot] && (d.wisp 2 5).presented == 1 && (d.wisp 2 5).pend == [dot])) = true := by decide +kernel
theorem test_descriptorAccept : (let s := on (fun d => (d.modBank 2 (fun k => { k with anv.presented := [dot] })).modWisp 2 5
      (fun w => { w with pend := [dot], presented := 1 }))
    !dot.needsSeed && gives (.descriptorAccept b2) s (fun d => ((d.bank 2).anv.chanQueue 0).map (fun y => (y.cand, y.seq)) == [(dot, 0)] &&
      (d.bank 2).anv.seq == 1 && (d.wisp 2 5).pend == [])) = true := by decide +kernel
theorem test_descriptorAccept_held : (let x := { dot with op := opROWSUM }
    let s := on (fun d => d.modBank 2 (fun k => { k with anv.presented := [x] }))
    (s.dev.bankSeed 2).isNone && gives (.descriptorAccept b2) s (fun d => (d.bank 2).anv.held == [x])) = true := by rfl

/-- A head descriptor of channel 0. -/
def desc0 (decl : List Byte) : Desc := ⟨dot, 0, 0, 0, .fetching, false, false, 0, 0, 0, 0, decl, [], 0⟩
/-- The Bank with that head. -/
def fetching (decl : List Byte) : State := on (fun d => d.modBank 2 (fun k => k.setQueue 0 [desc0 decl]))
/-- A DOT declaration: FP32 operands of 4 elements at 0x10000, 0x20000 and 0x30000, with handles 7, 8 and 9. -/
def dotDecl : List Byte := [1, 0x88, 8, 0] ++ List.replicate 12 0 ++ [0x10000, 0x20000, 0x30000, 0, 0, 0].flatMap (leBytes 8) ++
  [1, 1, 4, 4, 1, 1, 0, 0, 0, 0, 7, 8, 9, 0, 0, 0].flatMap (leBytes 4)
/-- Host memory with that declaration at 0x4000 and a check word for the block at 0x10000. -/
def dotMem (w : DWord) (s : State) : State := { s with mem := ({ bytes := [], slots := [(0x10, w)] } : HostMem).write 0x4000 dotDecl }
set_option maxRecDepth 100000 in
/-- The declaration is read first and decides nothing; the next block is A's first. -/
theorem test_operandFetch : (let s := dotMem 0x2FE (fetching [])
    ({ desc0 [] with decl := s.mem.read 0x4000 128 } : Desc).decide_ == none && ({ desc0 [] with decl := s.mem.read 0x4000 128 } : Desc).nextBlock == some 0x10000 &&
    gives (.operandFetch b2 0) s (fun d => ((d.bank 2).anv.chanQueue 0).map Desc.decl == [dotDecl])) = true := by decide +kernel
set_option maxRecDepth 100000 in
/-- A malformed check word ends the descriptor VOID OPERAND, in the mimic mode that it declares (R115), and is reported. -/
theorem test_operandFetch_malformed : (let s := dotMem 0x0FE (fetching dotDecl)
    (desc0 dotDecl).nextBlock == some 0x10000 && gives (.operandFetch b2 0) s (fun d => (d.bank 2).anv.done.map Desc.verdict == [0x124] &&
      (d.bank 2).anv.chanQueue 0 == [] && ((d.bank 2).ring.presented.map (fun x => (x.source, x.ev.code))).head? == some (265, 0x11))) = true := by
  decide +kernel
theorem test_slot : (gives (.slot b2) base (fun d => (d.bank 2).anv.slotNo == 1) &&
    idle (.slot b2) (on (fun d => d.modBank 2 (fun k => { k with anv.slotNo := 64 }))) &&
    idle (.slot b2) (on (fun d => d.modBank 2 (fun k => { k with anv.isolated := true })))) = true := by decide +kernel

/-- The submission registers hold operation `op` from source `src` for position `pos`. -/
def submitted (op src pos : Nat) (f : Bank → Bank) : State :=
  on (fun d => d.modBank 2 (fun k => f ((k.setReg Reg.BK_SUB_D (w32 (op + 16 * src))).setReg (Reg.BK_SUB_D + 4) (w32 pos))))
/-- BADSRC, BADPOS (position 256 serves no core), BADOP and OK. -/
theorem test_submit : (okAt (.cc b2) (.bk 2 Reg.BK_SUB_CMD) 1 (submitted 1 2 5 id) &&
    [(1, 0, 5, 3), (1, 2, 256, 4), (0, 2, 255, 5), (8, 2, 255, 5), (1, 2, 255, 1)].all (fun x =>
      gives (.submit (.cc b2) b2) (submitted x.1 x.2.1 x.2.2.1 id) (fun d =>
        bitsOf ((d.bank 2).reg Reg.BK_SUB_STAT) 2 0 == x.2.2.2))) = true := by decide +kernel
theorem test_submit_full : (let full : List Desc := (List.range 64).map (fun n => { desc0 [] with seq := w32 n })
    gives (.submit .hostP1 b2) (submitted 1 2 5 (fun k => k.setQueue 0 full)) (fun d =>
      bitsOf ((d.bank 2).reg Reg.BK_SUB_STAT) 2 0 == 2 && ((d.bank 2).anv.chanQueue 0).length == 64)) = true := by decide +kernel

/-- A verdict that reaches Zenith. -/
def verdictAt (v : DWord) (f : Dev → Dev) : State :=
  on (fun d => f { d with jnl.waiting := [.verdict 2 { desc0 [] with verdict := v }] })
theorem test_verdictAccept : (let s := verdictAt (plainVerdict vBEYOND 0) (fun d => d.modUht (coreUnit 2 5) (fun e => { e with state := .clear }))
    !s.dev.isLate { desc0 [] with verdict := plainVerdict vBEYOND 0 } && gives .verdictAccept s (fun d =>
      d.healthOf (coreUnit 2 5) == .haze && d.zreg Reg.ZN_ANV_CNT_BEYOND == 1 && !d.jnl.waiting.any (fun i => match i with
        | .verdict _ _ => true
        | _ => false))) = true := by decide +kernel
theorem test_verdictAccept_match : gives .verdictAccept (verdictAt (plainVerdict vMATCH 0) id) (fun d =>
    d.zreg Reg.ZN_ANV_CNT_MATCH == 1 && d.zreg Reg.ZN_ANV_CNT_LATE == 0) = true := by decide +kernel

/-- A check word failure that reaches Zenith. -/
def failed (code : Nat) : State := on (fun d =>
  { (d.modUht 50688 (fun e => { e with state := .clear })) with jnl.waiting := [.cw 2 (.cw code 0 0 4 none 5 0x77 0 none) false] })
theorem test_cwOutcomeAccept : (gives .cwOutcomeAccept (failed 0x15) (fun d => d.healthOf 50688 == .haze && (d.uht 50688).reason == 3) &&
    gives .cwOutcomeAccept (failed 0x10) (fun d => d.healthOf 50688 == .clear && d.jnl.waiting == [])) = true := by decide +kernel

/-! ## Contexts -/

/-- Context 3 selected, with `cfg` staged, the part changed by `f`. -/
def sel3 (cfg : Word) (f : Dev → Dev) : State := on (fun d => f ((d.setZ Reg.ZN_CTX_SEL 3).setZ Reg.ZN_CTX_CFG cfg))
/-- The RESULT of a context. -/
def resOf (d : Dev) (c : Nat) : Nat := (d.ctx c).core.result
/-- Context 3 in state `st` at level `l`. -/
def ctx3 (st : CtxState) (l : Nat) (d : Dev) : Dev := d.modCtx 3 (fun x => { x with core.state := st, core.level := l })

/-- BUSY in a shutdown, PENDING in a stop, BADCTX, BADLVL, BUSY, BUDGET and OK of CREATE. -/
theorem test_create : (okZ .hostP1 Reg.ZN_CTX_CMD 1 (sel3 1 id) &&
    gives (.create .hostP1) (sel3 1 id) (fun d => resOf d 3 == 1 && (d.ctx 3).core.state == .active && (d.ctx 3).core.level == 1 &&
      (d.ctx 3).core.incarn == 1) &&
    gives (.create .hostP1) (sel3 3 id) (fun d => (d.ctx 3).hz.opened) &&
    gives (.create .hostP1) (sel3 1 (fun d => d.setZ Reg.ZN_CTX_SEL 0)) (fun d => resOf d 0 == 4) &&
    gives (.create .hostP1) (sel3 6 id) (fun d => resOf d 3 == 0xA) &&
    gives (.create .hostP1) (sel3 1 (ctx3 .cooling 0)) (fun d => resOf d 3 == 3)) = true := by decide +kernel
theorem test_create_busy : (gives (.create .hostP1) (sel3 1 (fun d => { d with sd.phase := 1 })) (fun d => resOf d 3 == 3) &&
    gives (.create .hostP1) (sel3 1 (fun d => { d with clock.stopped := true })) (fun d => resOf d 3 == 2 &&
      d.clock.stopCmds == [(0, 3, 1)])) = true := by decide +kernel
/-- OK at the level in force, PENDING, BADLVL, FAILED, BADCTX, NOSHADOW and NOPAIR of a context that owns one normal core. -/
theorem test_setlvl : (okZ .hostP1 Reg.ZN_CTX_CMD 2 (sel3 2 (ctx3 .active 1)) &&
    [((1 : Word), CtxState.active, 1), (2, .active, 2), (6, .active, 0xA), (2, .failed, 8), (2, .free, 4), (0x14, .active, 6),
      (5, .active, 7)].all (fun x => gives (.setlvl .hostP1)
        (sel3 x.1 (fun d => (ctx3 x.2.1 1 d).modBank 2 (fun k => { k with cc.own := [(0, (3, 0))] }))) (fun d =>
        resOf d 3 == x.2.2 && (d.ctx 3).core.level == 1)) &&
    gives (.setlvl .hostP1) (sel3 3 (fun d => d.setZ Reg.ZN_CTX_SEL 0)) (fun d => resOf d 0 == 0xA)) = true := by decide +kernel
/-- BUDGET, with REDUND_CAP 0: level 4 where the shadow rule holds. -/
theorem test_budget : (let f := fun d : Dev => d.setZ Reg.ZN_LVL_BUDGET 0
    gives (.create .hostP1) (sel3 0x14 f) (fun d => resOf d 3 == 5) &&
    gives (.setlvl .hostP1) (sel3 0x14 (fun d => (((ctx3 .active 1 (f d)).modBank 2 (fun k => { k with cc.own := [(0, (3, 0))] })).modBank 4
      (fun k => { k with cc.own := [(0, (3, 1))] })).modUht (coreUnit 4 0) (fun e => { e with state := .clear }))) (fun d => resOf d 3 == 5)) = true := by
  decide +kernel
theorem test_setlvl_pending : (gives (.setlvl .hostP1) (sel3 2 (ctx3 .active 1)) (fun d => ((d.ctx 3).core.pend.map PendLevel.level) == some 2) &&
    gives (.setlvl .hostP1) (sel3 2 (fun d => { d with clock.stopped := true })) (fun d => d.clock.stopCmds == [(1, 3, 2)])) = true := by
  decide +kernel

/-- Context 3 at level `l` with level `q` due since frame 4, in frame `n`. -/
def due3 (n l q : Nat) : State := at' n (fun d => (ctx3 .active l d).modCtx 3 (fun x => { x with core.pend := some ⟨q, 0, some 4⟩ }))
theorem test_levelChangeApply : (gives (.levelChangeApply 3) (due3 5 1 3) (fun d => (d.ctx 3).core.level == 3 && (d.ctx 3).hz.opened &&
      resOf d 3 == 1) &&
    gives (.levelChangeApply 3) (due3 5 3 1) (fun d => (d.ctx 3).core.level == 1 && !(d.ctx 3).hz.opened) &&
    idle (.levelChangeApply 3) (due3 4 1 3) && idle (.levelChangeApply 3) (at' 5 (ctx3 .active 1))) = true := by decide +kernel
theorem test_teardown : (okZ .hostP1 Reg.ZN_CTX_CMD 4 (sel3 0 (ctx3 .failed 1)) &&
    [(CtxState.active, 1, true), (.failed, 1, true), (.closing, 4, false), (.free, 4, false)].all (fun x =>
      gives (.teardown .hostP1) (sel3 0 (ctx3 x.1 1)) (fun d => resOf d 3 == x.2.1 && (d.ctx 3).core.closePend == x.2.2)) &&
    gives (.teardown .hostP1) (sel3 9 (fun d => { d with clock.stopped := true })) (fun d =>
      resOf d 3 == 2 && d.clock.stopCmds == [(2, 3, 0)])) = true := by decide +kernel
theorem test_drainComplete : (gives (.drainComplete 3) (at' 70 (ctx3 .closing 1)) (fun d =>
      (d.ctx 3).core.state == .cooling && (d.ctx 3).core.coolAt == 70) &&
    idle (.drainComplete 3) (at' 70 (ctx3 .active 1)) &&
    idle (.drainComplete 3) (at' 70 (fun d => (ctx3 .closing 1 d).modBank 2 (fun k => k.setQueue 0 [{ desc0 [] with cand := { dot with ctx := 3 } }])))) =
    true := by decide +kernel
theorem test_coolingExpire : (let cool := fun n => at' n (fun d => (ctx3 .cooling 1 d).modCtx 3 (fun x => { x with core.coolAt := 70 }))
    gives (.coolingExpire 3) (cool 134) (fun d => (d.ctx 3).core.state == .free) && idle (.coolingExpire 3) (cool 133)) = true := by
  decide +kernel

/-- Bank 2, and with `both` Bank 4 too, owned by context 3. -/
def owned3 (both : Bool) (f : Dev → Dev) : State :=
  on (fun d => f ((if both then (fun (e : Dev) => e.modBank 4 (fun k => { k with cc.own := [(0, (3, 4))] })) else id)
    ((ctx3 .active 1 d).modBank 2 (fun k => { k with cc.own := [(0, (3, 4))], cc.step := 9 }))))
/-- The last mark, a first one of two, a foreign context, and a stop. -/
theorem test_endStep : ((owned3 false id).dev.banksOf 3 == [2] && okAt (.cc b2) (.bk 2 Reg.BK_CC_MARK) 0x30001 (owned3 false id) &&
    gives (.endStep (.cc b2) b2 false 3) (owned3 false id) (fun d => (d.ctx 3).core.marks == [] && (d.ctx 3).core.boundaryAt == some 0 &&
      (d.ctx 3).hz.endedStep == some 9) &&
    gives (.endStep (.cc b2) b2 false 3) (owned3 true id) (fun d => (d.ctx 3).core.marks == [2])) = true := by decide +kernel
theorem test_endStep_refused : (gives (.endStep (.cc b2) b2 false 7) (owned3 false id) (fun d => d.zreg Reg.ZN_CFG_CNT_REJECT == 1) &&
    gives (.endStep (.cc b2) b2 false 3) (owned3 false (fun d => { d with clock.stopped := true })) (fun d =>
      d.zreg Reg.ZN_STOP_LOST == 1 && (d.ctx 3).core.marks == [])) = true := by decide +kernel

/-! ## The commit horizon -/

/-- An epoch of number `n` that closed in frame 6. -/
def ep (n : Word) : Epoch := ⟨n, some 6, true, 0, [], false, .live, false⟩
/-- An inbound entry of context 3 from peer 0x22, of epoch `n`. -/
def inb (n : Nat) (dep : Word) : Inbound := ⟨0x22, 3, 1, 7, BitVec.ofNat 8 n, dep, 1, 0, 50⟩
/-- Context 3 ACTIVE at Gate with these epochs, incarnation 7, committed up to 8, sending to group 0x55, in frame 8. -/
def gate3 (eps : List Epoch) (f : Dev → Dev) : State := at' 8 (fun d => f ((ctx3 .active 3 d).modCtx 3 (fun x =>
  { x with core.incarn := 7, core.step := 12,
           hz := { x.hz with epochs := eps, epoch := 9, everOpened := true, committed := 8, committedAny := true, en := true, group := 0x55 } })))
/-- The epoch numbers of context 3 with their fates. -/
def fates (d : Dev) : List (Word × Fate) := (d.ctx 3).hz.epochs.map (fun e => (e.num, e.fate))

/-- Counted two frames after the closing frame and not one. -/
theorem test_epochCounted : (gives (.epochCounted 3 9) (gate3 [{ ep 9 with counted := false }] id) (fun d =>
      (d.ctx 3).hz.epochs.map Epoch.counted == [true]) &&
    idle (.epochCounted 3 9) (gate3 [{ ep 9 with counted := false, closing := some 7 }] id) &&
    idle (.epochCounted 3 9) (gate3 [{ ep 9 with counted := false, closing := none }] id)) = true := by decide +kernel
theorem test_epochSettle : (gives .tokenEmit (gate3 [] id) (fun d => d.hz.tokens == []) &&
    gives (.epochSettle 3) (gate3 [ep 9] (fun d => { d with hz.inbound := [inb 4 10] })) (fun d =>
      d.hz.tokens == [(3, .commit 9, 8)] && fates d == [(9, .committing)])) = true := by decide +kernel
/-- What keeps an epoch: not counted, a verdict outstanding, an entry it depends on, and its predecessor not committed. -/
theorem test_epochSettle_waits : (idle (.epochSettle 3) (gate3 [{ ep 9 with counted := false }] id) &&
    idle (.epochSettle 3) (gate3 [{ ep 9 with outstanding := 1 }] id) &&
    idle (.epochSettle 3) (gate3 [ep 9] (fun d => { d with hz.inbound := [inb 4 9] })) &&
    idle (.epochSettle 3) (gate3 [ep 10] id)) = true := by decide +kernel
theorem test_tokenEmit : (let s := gate3 [ep 9, ep 10] (fun d => { d with hz.tokens := [(3, .commit 9, 7), (3, .commit 10, 8)], hz.self := some 0x11 })
    gives .tokenEmit s (fun d => d.hz.tokens == [(3, .commit 10, 8)] && (d.ctx 3).hz.committed == 9 && fates d == [(10, .live)] &&
      d.hz.out.map (fun o => (o.bytes.take 12, o.dest)) == [([2, 1, 0x11, 0, 3, 0, 7, 0, 9, 0, 0, 0], .group 0x55)]) &&
    idle .tokenEmit (s.onDev (fun d => { d with clock.stopped := true }))) = true := by decide +kernel
/-- A RETRACT, and one of a context whose EN is 0, which hands nothing over. -/
theorem test_tokenEmit_retract : (let s := gate3 [{ ep 9 with fate := .retracting }] (fun d => { d with hz.tokens := [(3, .retract 9 9 1, 7)] })
    gives .tokenEmit s (fun d => (d.ctx 3).hz.committed == 8 && d.zreg Reg.ZN_HZ_CNT_RETRACT_OUT == 1 && fates d == []) &&
    gives .tokenEmit (s.onDev (fun d => d.modCtx 3 (fun x => { x with hz.en := false }))) (fun d => d.hz.out == [])) = true := by
  decide +kernel
/-- The tag of R192: context 3, incarnation 7, epoch 9 and PROV at Gate. -/
theorem test_swIssue : (gives (.swIssue 3) (gate3 [ep 9] id) (fun d => d.hz.transfers == [BitVec.ofNat 48 (3 + 7 * 0x400 + 9 * 0x4000000 + 0x400000000)] &&
      (d.ctx 3).hz.issued == some 12) &&
    gives (.swIssue 3) (gate3 [ep 9] (ctx3 .active 2)) (fun d => d.hz.transfers == [BitVec.ofNat 48 (3 + 7 * 0x400)])) = true := by decide +kernel
theorem test_nochkTransfer : gives (.nochkTransfer 3 9) (gate3 [ep 9, ep 10] id) (fun d =>
    (d.ctx 3).hz.epochs.map Epoch.exposed == [true, false]) = true := by decide +kernel
theorem test_tokenRefresh : (let s := gate3 [] (fun d => ((d.setZ Reg.ZN_HZ_REFRESH 8).setZ Reg.ZN_HZ_TIMEOUT 100).modCtx 3 (fun x =>
      { x with hz.lastToken := some (.commit 9, 2) }))
    Tbl.wf Ctx.init s.dev.ctxs && gives .tokenRefresh s (fun d => d.zreg Reg.ZN_HZ_CNT_REFRESH == 1 && d.hz.refreshAt == 8 &&
      d.hz.out.map OutMsg.dest == [.group 0x55])) = true := by decide +kernel
theorem test_peer_and_links : (gives (.peerIdValid 0x11) base (fun d => d.hz.self == some 0x11) &&
    gives (.linkDown 2) base (fun d => !(d.link 2).up && (d.link 2).width == 0)) = true := by decide +kernel
theorem test_linkTrained : gives (.linkTrained 2 16) base (fun d => (d.link 2).up && (d.link 2).width == 16 && d.hz.out.length == 1) = true := by rfl
theorem test_periodicHello : (match exec .periodicHello (at' 8 (fun d => { (d.setZ Reg.ZN_HZ_CTL 0x300) with hz.links := [(2, ⟨0, false, 16, true⟩)] })) with
    | .next t => decide (t.dev.hz.helloAt = 8) && decide (t.dev.hz.out.map OutMsg.dest = [.broadcast 2])
    | _ => false) = true := by rfl

/-- The tag of a transfer of context 3, incarnation 7, epoch 4, with PROV. -/
def tag4 : BitVec 48 := BitVec.ofNat 48 (3 + 7 * 0x400 + 4 * 0x4000000 + 0x400000000)
/-- A new entry, one that is there, a context that is closing, one below Gate, and no PROV. -/
theorem test_provisionalNotice : (gives (.provisionalNotice 0x22 tag4 1) (gate3 [ep 9] id) (fun d => d.hz.inbound.map (fun i =>
        (i.peer, i.ctx, i.incarn, i.epoch8, i.depend, i.count, i.last)) == [(0x22, 3, 7, 4, 9, 1, 8)]) &&
    gives (.provisionalNotice 0x22 tag4 2) (gate3 [ep 9] (fun d => { d with hz.inbound := [inb 4 9] })) (fun d =>
      d.hz.inbound.map (fun i => (i.count, i.last, i.link)) == [(2, 8, 2)]) &&
    gives (.provisionalNotice 0x22 tag4 1) (gate3 [] (ctx3 .closing 3)) (fun d => (d.ctx 3).core.deadIn == 1 && d.hz.inbound == []) &&
    gives (.provisionalNotice 0x22 tag4 1) (gate3 [] (ctx3 .active 2)) (fun d => d.zreg Reg.ZN_HZ_CNT_UNHELD == 1) &&
    idle (.provisionalNotice 0x22 3 1) (gate3 [] id)) = true := by decide +kernel

/-- A message from peer 0x22 about context 3, incarnation 7. -/
def msgOf (type : Nat) (body : List Byte) : List Byte := hzMessage type 0x22 3 7 body
theorem test_badmsg : ((parseMsg (msgOf 2 []).dropLast).isNone && (parseMsg (msgOf 5 [])).isNone &&
    gives (.commitReceive 1 []) base (fun d => d.zreg Reg.ZN_HZ_CNT_BADMSG == 1)) = true := by decide +kernel
/-- COMMIT of 4 frees the entries of epochs 3 and 4 and not the one of 5; a COMMIT of 2 finds none. -/
theorem test_commitReceive : (let s := gate3 [] (fun d => { d with hz.inbound := [inb 3 9, inb 4 9, inb 5 9] })
    (parseMsg (msgOf 2 [4, 0, 0, 0])).map (fun m => (m.type, m.ctx, m.field 8 4)) == some (2, 3, 4) &&
    gives (.commitReceive 1 (msgOf 2 [4, 0, 0, 0])) s (fun d => d.hz.inbound == [inb 5 9] && d.zreg Reg.ZN_HZ_CNT_COMMIT_IN == 1) &&
    gives (.commitReceive 1 (msgOf 2 [2, 0, 0, 0])) s (fun d => d.zreg Reg.ZN_HZ_CNT_NOENTRY == 1 && d.hz.inbound.length == 3)) = true := by
  decide +kernel
theorem test_retractReceive : gives (.retractReceive 1 (msgOf 3 [4, 0, 0, 0, 5, 0, 0, 0, 1])) (gate3 [] (fun d =>
      { d with hz.inbound := [inb 4 9], clock.stopped := true })) (fun d => d.hz.inbound == [] && d.zreg Reg.ZN_HZ_CNT_RETRACT_IN == 1 &&
      d.hz.stopQueue == [.retract 3 9 2]) = true := by decide +kernel
theorem test_exposeReceive : gives (.exposeReceive 1 (msgOf 4 [1])) base (fun d => d.zreg Reg.ZN_HZ_CNT_EXPOSE_IN == 1 &&
      d.afsin.notices.map Notice.code == [3] && d.jnl.waiting.length == 1) = true := by decide +kernel
/-- A HELLO that asks for an answer and carries no echo. -/
theorem test_helloReceive : gives (.helloReceive 1 (msgOf 1 [0x09, 0x02]) 5) (on (fun d => { d with hz.noChecker := [0x22] })) (fun d =>
      d.hz.noChecker == [] && d.hz.out.map OutMsg.dest == [.peer 0x22 2]) = true := by decide +kernel

/-- The deadline frame itself expires an entry. -/
theorem test_entryExpire : (gives (.entryExpire 0x22 3 7 4) (gate3 [] (fun d => { d with clock.frame := 50, hz.inbound := [inb 4 9] })) (fun d =>
      (d.ctx 3).core.state == .failed && (d.ctx 3).core.failReason == 2 && d.zreg Reg.ZN_HZ_CNT_TIMEOUT == 1) &&
    gives (.entryExpire 0x22 3 7 4) (gate3 [] (fun d => { d with clock.frame := 50, clock.stopped := true, hz.inbound := [inb 4 9] })) (fun d =>
      d.hz.stopQueue == [.retract 3 9 3, .fail 3 2] && d.hz.inbound == [])) = true := by decide +kernel
/-- A suspect step since frame 2. -/
def susp (step : Word) : Suspect := ⟨1, step, .beyond, true, 2, .waitOrig, [], none, 0, [], [], none, false, [], none⟩
theorem test_replayWaitExpire : (let s := fun n => gate3 [{ ep 9 with suspects := [susp 11] }] (fun d => { (d.setZ Reg.ZN_HZ_REPLAY_WAIT 6) with clock.frame := n })
    gives (.replayWaitExpire 3 11) (s 8) (fun d => (d.ctx 3).core.state == .failed && (d.ctx 3).core.failReason == 5) &&
    idle (.replayWaitExpire 3 11) (s 7)) = true := by decide +kernel
theorem test_resume : (let s := gate3 [] (fun d => (d.setZ Reg.ZN_CTX_SEL 3).modCtx 3 (fun x => { x with hz.retractPend := true }))
    okZ .hostP1 Reg.ZN_HZ_CTX_CMD 1 s && gives (.resume .hostP1) s (fun d => !(d.ctx 3).hz.retractPend && (d.ctx 3).hz.firstNext &&
      (d.ctx 3).hz.resumedAt == some 8) && idle (.resume .hostP1) (gate3 [] (fun d => d.setZ Reg.ZN_CTX_SEL 3))) = true := by decide +kernel

/-- Bank 2 with a replay request of ticket 6 for context 3. -/
def replay6 (f : Dev → Dev) : State := gate3 [] (fun d => f (d.modBank 2 (fun k => { k with cc.replays := [⟨6, 3, 11, 2, 4, 9, 0⟩] })))
/-- Context 3 waits for the replay of ticket 6. -/
def seek6 (d : Dev) : Dev := d.modCtx 3 (fun x => { x with hz.epochs := [{ ep 9 with suspects :=
  [{ susp 11 with phase := .replaying .r1, runs := [⟨.r1, 2, 9, 9, 6, 0, some 3, false, [], false, []⟩] }] }] })
theorem test_ccAnswerDone : (let s := replay6 id
    okAt (.cc b2) (.bk 2 Reg.BK_CC_ANSWER) 0x60001 s && (s.dev.byTicket 6).isNone &&
    gives (.ccAnswerDone (.cc b2) b2 6) s (fun d => (d.bank 2).cc.replays == []) &&
    (replay6 seek6).dev.byTicket 6 != none &&
    gives (.ccAnswerDone (.cc b2) b2 6) (replay6 seek6) (fun d => d.zreg Reg.ZN_HZ_CNT_REPLAYS == 1) &&
    gives (.ccAnswerDone (.cc b2) b2 6) base (fun d => d.zreg Reg.ZN_CFG_CNT_REJECT == 1)) = true := by decide +kernel
theorem test_ccAnswerNofit : (okAt (.cc b2) (.bk 2 Reg.BK_CC_ANSWER) 0x60002 (replay6 id) &&
    gives (.ccAnswerNofit (.cc b2) b2 6) (replay6 id) (fun d => (d.bank 2).cc.replays == []) &&
    gives (.ccAnswerNofit (.cc b2) b2 6) (replay6 seek6) (fun d => d.zreg Reg.ZN_HZ_CNT_ABANDONED == 1)) = true := by decide +kernel

/-! ## Unit health and field tests -/

/-- The core at Bank 2, position 5. -/
def u25 : UnitId := ⟨coreUnit 2 5, by decide⟩
/-- The part with the entry of that core changed, and registers set. -/
def core25 (regs : List (Nat × Word)) (f : UhtEntry → UhtEntry) : State :=
  on (fun d => (regs.foldl (fun (a : Dev) r => a.setZ r.1 r.2) d).modUht (coreUnit 2 5) f)
/-- An entry in a state whose ages are `k` units of 256 F. -/
def aged (st : Health) (k : Int) (e : UhtEntry) : UhtEntry :=
  { e with state := st, cleanBase := -k, t0Base := -k, t1Base := -k, t2Base := -k }

/-- A Dawn core is due T1; a Clear one at 2^10 F, and not 256 F before; T2 is deeper. -/
theorem test_testDue : ((core25 [] id).dev.tierReached (coreUnit 2 5) 0 == some 1 &&
    gives (.testDue u25) (core25 [] id) (fun d => (d.uht (coreUnit 2 5)).due && (d.uht (coreUnit 2 5)).dueTier == 1) &&
    gives (.testDue u25) (core25 [(Reg.ZN_TST_PER_CLEAR, 10), (Reg.ZN_TST_PER_T2, 0)] (aged .clear 4)) (fun d =>
      (d.uht (coreUnit 2 5)).dueTier == 0 && (d.uht (coreUnit 2 5)).due) &&
    idle (.testDue u25) (core25 [(Reg.ZN_TST_PER_CLEAR, 10), (Reg.ZN_TST_PER_T2, 0)] (aged .clear 3)) &&
    idle (.testDue u25) (core25 [(Reg.ZN_TST_PER_CLEAR, 0), (Reg.ZN_TST_PER_T2, 0)] (aged .clear 9))) = true := by decide +kernel
theorem test_testDue_deeper : gives (.testDue u25) (core25 [(Reg.ZN_TST_PER_CLEAR, 10), (Reg.ZN_TST_PER_T2, 10)] (fun e =>
    { aged .clear 4 e with due := true, dueAt := 7 })) (fun d => (d.uht (coreUnit 2 5)).dueTier == 2 && (d.uht (coreUnit 2 5)).dueAt == 7) =
    true := by decide +kernel
theorem test_graceExpire : (let s := fun (n : Nat) (st : Health) => State.onDev (core25 [(Reg.ZN_TST_GRACE, 100)] (fun e =>
      { aged st 0 e with due := true, dueAt := 3 })) (fun d => { d with health.graceClock := n })
    gives (.graceExpire u25) (s 103 .clear) (fun d => d.healthOf (coreUnit 2 5) == .haze && (d.uht (coreUnit 2 5)).reason == 6 &&
      (d.uht (coreUnit 2 5)).overdue && d.zreg Reg.ZN_TST_CNT_OVERDUE == 1) &&
    gives (.graceExpire u25) (s 103 .overcast) (fun d => d.healthOf (coreUnit 2 5) == .overcast && (d.uht (coreUnit 2 5)).overdue) &&
    idle (.graceExpire u25) (s 102 .clear)) = true := by decide +kernel
theorem test_hazeClearAge : (let s := fun k => core25 [(Reg.ZN_UHT_WIN, 0xA00)] (fun e => { aged .haze k e with charges := 2, fails := 1 })
    gives (.hazeClearAge u25) (s 4) (fun d => d.healthOf (coreUnit 2 5) == .clear && (d.uht (coreUnit 2 5)).reason == 0x11 &&
      (d.uht (coreUnit 2 5)).charges == 0 && d.zreg Reg.ZN_UHT_CNT_CLEAR == 1) &&
    idle (.hazeClearAge u25) (s 3) && idle (.hazeClearAge u25) (core25 [(Reg.ZN_UHT_WIN, 0)] (aged .haze 9)) &&
    idle (.hazeClearAge u25) (core25 [(Reg.ZN_UHT_WIN, 0xA00)] (fun e => { aged .haze 9 e with due := true }))) = true := by decide +kernel
/-- A slice ages out of Dawn; a core does not. -/
theorem test_dawnAgeQualify : (let s := on (fun d => (d.setZ Reg.ZN_UHT_DAWN_AGE 10).modUht 50688 (aged .dawn 4))
    unitKind 50688 == .slice && gives (.dawnAgeQualify ⟨50688, by decide⟩) s (fun d => d.healthOf 50688 == .clear && (d.uht 50688).reason == 0x12) &&
    idle (.dawnAgeQualify u25) (core25 [(Reg.ZN_UHT_DAWN_AGE, 10)] (aged .dawn 9))) = true := by decide +kernel
theorem test_ceWindowRestart : gives .ceWindowRestart (at' 1024 (fun d => d.setZ Reg.ZN_UHT_CE 0xA00)) (fun d => d.health.ceWindow == 1024) = true := by
  decide +kernel
theorem test_uhtRead : (let s := core25 [(Reg.ZN_UHT_SEL, 533)] (aged .haze 3)
    okZ .hostP1 Reg.ZN_UHT_CMD 1 s && gives (.uhtRead .hostP1) s (fun d => (d.path .hostP1).uht.valid &&
      (d.path .hostP1).uht.data.take 2 == [2, 3] && !(d.path .mgmt).uht.valid)) = true := by decide +kernel
/-- A core to Overcast with reason 0x17; a reserved reason, which is not written; a reserved state; an isolated Anvil. -/
theorem test_uhtSet : (let s := fun v => core25 [(Reg.ZN_UHT_SEL, 533), (Reg.ZN_UHT_SETVAL, v)] (fun e => { aged .haze 3 e with charges := 2 })
    okZ .mgmt Reg.ZN_UHT_CMD 2 (s 0x1703) && gives (.uhtSet .mgmt) (s 0x1703) (fun d => d.healthOf (coreUnit 2 5) == .overcast &&
      (d.uht (coreUnit 2 5)).reason == 0x17 && (d.uht (coreUnit 2 5)).charges == 0 && d.zreg Reg.ZN_UHT_CNT_SET == 1) &&
    gives (.uhtSet .mgmt) (s 0x2003) (fun d => d.healthOf (coreUnit 2 5) == .overcast && (d.uht (coreUnit 2 5)).reason == 0) &&
    idle (.uhtSet .mgmt) (s 5)) = true := by decide +kernel
theorem test_uhtSet_anvil : gives (.uhtSet .mgmt) (on (fun d => (((d.setZ Reg.ZN_UHT_SEL (w32 (anvilUnit 2))).setZ Reg.ZN_UHT_SETVAL 0).modUht
      (anvilUnit 2) (aged .eclipse 0)).modBank 2 (fun k => { k with anv.isolated := true }))) (fun d =>
    d.healthOf (anvilUnit 2) == .eclipse && (d.bank 2).anv.resetAt.isSome) = true := by decide +kernel

/-- Core 5 of Bank 2 with T0 due, its image valid and 0x99 the signature of each tier; two tests at once, and stashes of 2^26 bytes. -/
def testable (f : Dev → Dev) : State := on (fun d => f ((({ d with pat.installed := [0], cfg.regions := [⟨0x1000000, 0x4000000⟩, ⟨0x8000000, 0x4000000⟩] }).setZ
  Reg.ZN_TST_CTL 2).modWisp 2 5 (fun w => { w with pat := { w.pat with valid := true, sigs := [0x99, 0x99, 0x99] } }) |>.modUht (coreUnit 2 5)
    (fun e => { aged .clear 0 e with due := true })))
theorem test_testLaunch : ((testable id).dev.permit 2 5 == .free && (testable id).dev.testReady 2 5 0 &&
    gives (.testLaunch b2 p5) (testable id) (fun d => (d.testOn 2 5).map (fun x => (x.tier, x.phase, x.startFrame, x.stash)) ==
      some (0, .saving, 0, 64 * 4104) && d.stashTaken == [(0, 64 * 4104)]) &&
    idle (.testLaunch b2 p5) (testable (fun d => { d with sd.phase := 1 })) &&
    idle (.testLaunch b2 p5) (testable (fun d => d.modUht (coreUnit 2 5) (fun e => { e with due := false })))) = true := by decide +kernel
/-- Position 260, a spare, is not saved. -/
theorem test_testLaunch_spare : gives (.testLaunch b2 ⟨260, by decide⟩) (testable (fun d => (d.modWisp 2 260 (fun w => { w with pat.valid := true })).modUht
    (coreUnit 2 260) (fun e => { aged .dawn 0 e with due := true, dueTier := 1 }))) (fun d =>
    (d.testOn 2 260).map (fun x => (x.tier, x.phase, x.stash)) == some (1, .running, 0)) = true := by decide +kernel
/-- The core under test in a phase, its void reason `v`. -/
def underTest (tier : Nat) (ph : TestPhase) (v stash : Nat) (f : Dev → Dev) : State :=
  testable (fun d => f (d.modBank 2 (fun k => k.setTest 5 (some ⟨tier, ph, 0, 0, v, 0, none, stash, 0, [], false, false, false, 0x99, []⟩))))
theorem test_stashSaveDone : gives (.stashSaveDone b2 p5) (underTest 0 .saving 0 262656 id) (fun d =>
    (d.testOn 2 5).map Test.phase == some .starting) = true := by decide +kernel
/-- PASS, FAIL of T2, which takes the core to Eclipse, and VOID. -/
theorem test_testDone : (gives (.testDone b2 p5 true) (underTest 0 .running 0 262656 id) (fun d => d.zreg Reg.ZN_TST_CNT_PASS == 1 &&
      (d.testOn 2 5).map Test.phase == some .restoring) &&
    gives (.testDone b2 p5 true) (underTest 2 .running 0 0 (fun d => d.modWisp 2 5 (fun w => { w with pat.sigs := [0x99, 0x99, 0x98] }))) (fun d => d.zreg Reg.ZN_TST_CNT_FAIL == 1 && (d.testOn 2 5).isNone &&
      d.healthOf (coreUnit 2 5) == .eclipse && (d.uht (coreUnit 2 5)).reason == 9) &&
    gives (.testDone b2 p5 true) (underTest 0 .running 1 0 id) (fun d => d.zreg Reg.ZN_TST_CNT_VOID == 1 && d.zreg Reg.ZN_TST_CNT_PASS == 0) &&
    idle (.testDone b2 p5 true) (underTest 0 .saving 0 0 id) && idle (.testDone b2 p5 false) (underTest 0 .running 0 262656 id)) = true := by decide +kernel
/-- T0 fails at 2,048 F and not one frame before. -/
theorem test_testLimit : gives (.testLimit b2 p5) (underTest 0 .running 0 0 (fun d => { d with clock.frame := 2048 })) (fun d =>
    d.zreg Reg.ZN_TST_CNT_FAIL == 1) = true := by decide +kernel
theorem test_testLimit_early : idle (.testLimit b2 p5) (underTest 0 .running 0 0 (fun d => { d with clock.frame := 2047 })) = true := by decide +kernel
/-- A block whose copy A is good. -/
theorem test_restoreBlock (b p i : Nat) (t : Test) (s : State)
    (h : s.mem.copyFor (s.dev.stashBase 0 t) (s.dev.stashBase 1 t) (stashBlocks t.tier) i (t.crcs.getD i 0) = some false) :
    restoreBlock b p t s i =
      { s with mem := s.mem.unstashBlock (s.dev.sliceAddr b p i) (s.dev.stashBase 0 t) (stashBlocks t.tier) i } := by
  unfold restoreBlock
  dsimp only
  rw [h]
theorem test_restore : (idle (.restoreDone b2 p5 [] []) (underTest 0 .running 0 262656 id) && ((underTest 0 .restoring 0 262656 id).dev.stashLost 2 5 3 0x1FFFF).zreg
    Reg.ZN_TST_CNT_STASH_LOST == 1) = true := by decide +kernel

/-- Logical core 5 of Bank 2 ready to remap, with the spare at 256 in a state. -/
def remapping (spare : Health) (f : Dev → Dev) : State := on (fun d => f ((((List.range 264).foldl (fun (a : Dev) p =>
    if 256 ≤ p then (a.modUht (coreUnit 2 p) (aged (if p = 256 then spare else .eclipse) 0)).modUht (sliceUnit (coreUnit 2 p)) (aged .clear 0) else a) d)).modUht
  (coreUnit 2 5) (aged .eclipse 0) |>.modBank 2 (fun k => { k with cc.remapReady := [5] })))
theorem test_remapApply : ((remapping .clear id).dev.spareOf 2 == some 256 &&
    gives (.remapApply b2 ⟨5, by decide⟩) (remapping .clear id) (fun d => (d.bank 2).cc.posOf 5 == some 256 &&
      (d.bank 2).cc.remaps == [⟨5, 5, 256⟩] && d.zreg Reg.ZN_UHT_CNT_REMAP == 1) &&
    gives (.remapApply b2 ⟨5, by decide⟩) (remapping .eclipse id) (fun d => (d.bank 2).cc.vacant == [5] && (d.bank 2).cc.posOf 5 == none) &&
    idle (.remapApply b2 ⟨6, by decide⟩) (remapping .clear id)) = true := by decide +kernel
/-- An Overcast core without a spare works on. -/
theorem test_remapApply_overcast : gives (.remapApply b2 ⟨5, by decide⟩) (remapping .eclipse (fun d => (d.modUht (coreUnit 2 5) (aged .overcast 0)).modUht
    (sliceUnit (coreUnit 2 5)) (aged .clear 0))) (fun d => (d.bank 2).cc.posOf 5 == some 5 && (d.bank 2).cc.remapReady == []) = true := by decide +kernel
theorem test_take : (let s := on (fun d => d.modBank 2 (fun k => { k with cc.remaps := [⟨5, 5, 256⟩, ⟨6, 6, 257⟩] }))
    okAt (.cc b2) (.bk 2 Reg.BK_CC_RMP_TAKE) 1 s && gives (.take (.cc b2) b2) s (fun d => (d.bank 2).cc.remaps == [⟨6, 6, 257⟩])) = true := by
  decide +kernel

/-- An on-demand request of units 533 to 535, running since 0. -/
def asked (d : Dev) : Dev := { d with health.request := some ⟨[533, 534, 535], 1, 0, true, [533], [], 0⟩ }
/-- The selection of a request: first core, number of cores, tier. -/
def selReq (first n tier : Nat) (d : Dev) : Dev := (d.setZ Reg.ZN_TST_REQ_SEL (w32 (first + 262144 * tier))).setZ Reg.ZN_TST_REQ_COUNT (w32 n)
/-- OK, NULL, BADSEL of tier 3 and of a core past the last, and BUSY. -/
theorem test_testReqStart : (okZ .mgmt Reg.ZN_TST_REQ_CMD 1 (on (selReq 50687 1 2)) &&
    [(50687, 1, 2, 1), (50687, 0, 2, 3), (50687, 2, 2, 5), (533, 1, 3, 5)].all (fun x =>
      gives (.testReqStart .mgmt) (on (selReq x.1 x.2.1 x.2.2.1)) (fun d => d.zf Reg.ZN_TST_REQ_STAT 2 0 == x.2.2.2)) &&
    gives (.testReqStart .mgmt) (on (selReq 50687 1 2)) (fun d => d.health.request.map OnDemand.units == some [50687]) &&
    gives (.testReqStart .mgmt) (on (fun d => asked (selReq 533 1 1 d))) (fun d => d.zf Reg.ZN_TST_REQ_STAT 2 0 == 4)) = true := by decide +kernel
theorem test_testReqCancel : (okZ .mgmt Reg.ZN_TST_REQ_CMD 2 (on asked) && gives (.testReqCancel .mgmt) (on asked) (fun d =>
      d.zf Reg.ZN_TST_REQ_STAT 2 0 == 2 && d.health.request.map OnDemand.running == some false)) = true := by decide +kernel
theorem test_onDemandExpire : (let s := fun n => on (fun d => { (asked d).setZ Reg.ZN_TST_GRACE 100 with health.graceClock := n })
    gives .onDemandExpire (s 100) (fun d => d.health.request.map (fun r => (r.running, r.notRun)) == some (false, 2)) &&
    idle .onDemandExpire (s 99)) = true := by decide +kernel

/-! ## Patterns -/

/-- A package of one image of one packet, version 5, KEY_SLOT 0 (R264 to R267), with a signature. -/
def pkg (images key : Nat) (target : Nat) (sig : Nat) : List Byte :=
  leBytes 4 0x4B50444F ++ leBytes 2 1 ++ [BitVec.ofNat 8 images, BitVec.ofNat 8 key] ++ leBytes 8 5 ++ leBytes 4 target ++ leBytes 4 1 ++
    List.replicate 40 0 ++ leBytes 2 0 ++ leBytes 2 1 ++ leBytes 4 0 ++ leBytes 4 0x8ACD48BD ++ leBytes 4 1000000 ++ leBytes 4 0 ++ leBytes 4 4 ++
    leBytes 4 8 ++ leBytes 4 0 ++ leBytes 8 0x99 ++ leBytes 8 0x99 ++ leBytes 8 0x99 ++ List.replicate 8 0 ++ List.replicate 3968 0 ++
    List.replicate 256 0x5A ++ Crypto.beBytes 96 sig
/-- The good package. -/
def goodPkg : List Byte := pkg 1 0 0x4F44C192 0
/-- The part with a package staged and no key. -/
def stagedPkg (l : List Byte) : State := on (fun d => { d with pat.stage := l })

/-- LOCKED and counted frozen at Lock; NULL, BUSY in a round and in a staging, and a package of 64 bytes staged. -/
theorem test_install : (let s := fun (len : Word) (f : Dev → Dev) => on (fun d => f (d.setZ Reg.ZN_PAT_LEN len))
    okZ .hostP1 Reg.ZN_PAT_CMD 1 (s 64 id) &&
    gives (.install .hostP1) (s 64 (fun d => { d with aon.alarmLevel := 2 })) (fun d => d.zreg Reg.ZN_ALM_CNT_FROZEN == 1 &&
      d.pat.stage == [] && d.zf Reg.ZN_PAT_STAT 3 0 == 9) &&
    gives (.install .hostP1) (s 0 id) (fun d => d.zf Reg.ZN_PAT_STAT 3 0 == 2) &&
    gives (.install .hostP1) (s 64 (fun d => { d with pat.phase := 2 })) (fun d => d.zf Reg.ZN_PAT_STAT 3 0 == 3) &&
    gives (.install .hostP1) (s 64 (fun d => { d with pat.stage := [1] })) (fun d => d.zf Reg.ZN_PAT_STAT 3 0 == 3) &&
    gives (.install .hostP1) (s 64 id) (fun d => d.pat.stage.length == 64)) = true := by decide +kernel
/-- The SHA-384 of "abc" (FIPS 180-4's example). -/
theorem test_sha384 : Crypto.digest [0x61, 0x62, 0x63] = 0xcb00753f45a35e8bb5a03d699ac65007272c32ab0eded1631a8b605a43ff5bed8086072ba1e7cc2358baeca134c825a7 := by
  decide +kernel
set_option maxRecDepth 100000 in
/-- NULL, BADFMT, BADTARGET and BADSIG. -/
theorem test_packageCheckDone : [(pkg 0 0 0x4F44C192 0, 2), (pkg 1 4 0x4F44C192 0, 4), (pkg 1 0 1 0, 5), (pkg 1 1 0x4F44C192 0, 6)].all
    (fun x => gives .packageCheckDone (stagedPkg x.1) (fun d => d.zf Reg.ZN_PAT_STAT 3 0 == x.2 && d.pat.stage == [] && d.pat.installed == [])) =
    true := by decide +kernel
theorem test_rebcast : (okZ .hostP1 Reg.ZN_PAT_CMD 2 base && gives (.rebcast .hostP1) base (fun d => d.zf Reg.ZN_PAT_STAT 3 0 == 2) &&
    gives (.rebcast .hostP1) (on (fun d => { d with pat.installed := goodPkg, pat.phase := 3 })) (fun d => d.zf Reg.ZN_PAT_STAT 3 0 == 3) &&
    gives (.rebcast .hostP1) (on (fun d => { d with pat.installed := goodPkg })) (fun d => d.zf Reg.ZN_PAT_STAT 3 0 == 1 && d.pat.round == 1 &&
      d.pat.banksLeft.length == 192)) = true := by decide +kernel
theorem test_patSlotWriteDone : (let s := on (fun d => { d with pat.slotWrite := some 1, pat.installed := [7], pat.version := 9, aon.floor := 3 })
    gives (.patSlotWriteDone true) s (fun d => d.aon.floor == 9 && d.pat.durable && d.pat.slot == 1) &&
    gives (.patSlotWriteDone false) s (fun d => d.aon.floor == 3 && d.zf Reg.ZN_PAT_STAT 3 0 == 0xA) &&
    idle (.patSlotWriteDone true) base) = true := by decide +kernel
/-- A candidate that is no package leaves the next to be read. -/
theorem test_packageSlotReadDone : (gives (.packageSlotReadDone [1]) (on (fun d => { d with pat.readsLeft := [1, 0] })) (fun d => d.pat.readsLeft == [0]) &&
    idle (.packageSlotReadDone goodPkg) base) = true := by decide +kernel

/-- The Wisp at Bank 2, position 5 in round 3, with an image of two packets that starts at 7; packets 0 to 29 of 40 go out in this frame. -/
def receiving (f : WispPat → WispPat) : State := on (fun d => ({ d with pat.round := 3, pat.phase := 2, pat.words := 2040, pat.installed :=
    (List.replicate 20 0 ++ leBytes 4 40 ++ List.replicate 6120 0 ++ List.replicate 512 0x5A : List Byte) } : Dev).modWisp 2 5 (fun w =>
  { w with pat := f { w.pat with first := 7, count := 2, round := 3, programmed := true } }))
/-- The header words of a DATA, a REPAIR and an END packet: SEQ, ROUND and KIND, then TARGET (R273). -/
theorem test_packetWords : ((receiving id).dev.itemWords (.data 8)).take 3 = [0x13000008, 0x1FF, 0x5A5A5A5A] ∧
    ((receiving id).dev.itemWords (.repair p5 8)).take 2 = [0x23000008, 5] ∧ ((receiving id).dev.itemWords .finish).take 3 = [0x33000028, 0x1FF, 0] ∧
    ((receiving id).dev.itemWords .finish).length = 67 := by decide +kernel
set_option maxRecDepth 100000 in
/-- A packet taken, one with a bit inverted, and a Wisp whose buffer showed a parity hit. -/
theorem test_packetReceive : (gives (.packetReceive b2 p5 ⟨.data 8, []⟩) (receiving id) (fun d => (d.wisp 2 5).pat.bitmap == [1] &&
      Tbl.get [] (d.wisp 2 5).pat.image 1 == List.replicate 256 0x5A) &&
    gives (.packetReceive b2 p5 ⟨.data 8, [(1, 1)]⟩) (receiving id) (fun d => (d.wisp 2 5).pat.bitmap == [] &&
      (d.wisp 2 5).reg Reg.WS_PAT_CNT_PKT_CRC == 1) &&
    gives (.packetReceive b2 p5 ⟨.data 8, []⟩) (receiving (fun x => { x with bufferHit := true })) (fun d => (d.wisp 2 5).pat.bitmap == [] &&
      !(d.wisp 2 5).pat.bufferHit)) = true := by decide +kernel
set_option maxRecDepth 100000 in
/-- A packet of another round, one outside the image, and one that does not go out in this frame. -/
theorem test_packetReceive_not : (idle (.packetReceive b2 p5 ⟨.data 8, []⟩) (receiving (fun x => { x with round := 4 })) &&
    idle (.packetReceive b2 p5 ⟨.data 9, []⟩) (receiving id) && idle (.packetReceive b2 p5 ⟨.data 30, []⟩) (receiving id)) = true := by decide +kernel
set_option maxRecDepth 100000 in
/-- A full bitmap whose CRC holds, and one whose CRC does not; a valid image that no longer holds; no check asked. -/
theorem test_imageCheckDone : (let full := fun (crc : Word) (v : Bool) => receiving (fun x => { x with
      bitmap := [0, 1], image := [(0, List.replicate 256 0x5A), (1, List.replicate 256 0x5A)], valid := v, checking := true,
      crc := crc + crc32c (List.replicate 512 0x5A) })
    gives (.imageCheckDone b2 p5) (full 0 false) (fun d => (d.wisp 2 5).pat.valid) &&
    gives (.imageCheckDone b2 p5) (full 1 false) (fun d => !(d.wisp 2 5).pat.valid && (d.wisp 2 5).pat.bitmap == [] &&
      (d.wisp 2 5).reg Reg.WS_PAT_CNT_IMG_CRC == 1) &&
    gives (.imageCheckDone b2 p5) (full 1 true) (fun d => !(d.wisp 2 5).pat.valid && d.pat.lateQueue == [(2, 5)]) &&
    gives (.imageCheckDone b2 p5) (full 0 true) (fun d => (d.wisp 2 5).pat.valid) &&
    idle (.imageCheckDone b2 p5) (receiving id)) = true := by decide +kernel
/-- Every Wisp of Bank 2 valid, but with `v` false for position 5; round 3 in progress there. -/
def tail2 (v : Bool) (left : List Nat) (rep : Nat) : State := on (fun d =>
  { d with pat.installed := [1], pat.round := 3, pat.phase := 2, pat.banksLeft := left,
           wisps := (List.range 264).map (fun p => (528 + p, { Wisp.init with pat.valid := v || p != 5, pat.count := 2 })) } |>.modBank 2 (fun k =>
    { k with patRepair := rep, patTail := 7 }))
/-- A repair round, the end of the round after three of them, and one that finds every Wisp valid. -/
theorem test_broadcastTailEnd : (gives (.broadcastTailEnd b2) (tail2 false [2] 0) (fun d => (d.bank 2).patRepair == 1 && d.pat.banksLeft == [2]) &&
    gives (.broadcastTailEnd b2) (tail2 false [2] 3) (fun d => d.pat.banksLeft == [] && d.pat.phase == 0 && (d.bank 2).patRepair == 0) &&
    gives (.broadcastTailEnd b2) (tail2 true [2, 3] 0) (fun d => d.pat.banksLeft == [3] && d.pat.phase == 2)) = true := by decide +kernel
set_option maxRecDepth 100000 in
theorem test_lateRepair : (let s := on (fun d => { d with pat.installed := goodPkg, pat.round := 3, pat.lateQueue := [(2, 5)] })
    gives (.lateRepair b2 p5) s (fun d => d.pat.lateQueue == [] && d.pat.lateRun == [((2, 5), 1)] && (d.wisp 2 5).pat.count == 1 &&
      (d.wisp 2 5).pat.round == 3 && d.zreg Reg.ZN_PAT_CNT_LATE == 1)) = true := by decide +kernel
set_option maxRecDepth 100000 in
theorem test_retryRound : (let s := fun (n : Nat) (f : Dev → Dev) => at' n (fun d => f ({ d with pat.installed := goodPkg }.setZ Reg.ZN_PAT_RETRY 10))
    let lacks : Dev → Dev := fun d => d.modUht (coreUnit 2 5) (fun e => { e with patMissing := true })
    gives .retryRound (s 1024 lacks) (fun d => d.pat.phase == 3 && d.pat.banksLeft == [2] && d.pat.round == 1) &&
    gives .retryRound (s 1024 id) (fun d => d.pat.phase == 0 && d.pat.retryAt == 1024) &&
    idle .retryRound (s 1023 lacks) && idle .retryRound base) = true := by decide +kernel

/-! ## Shutdown -/

/-- The part with its ledger module bound and the ledger key held, in phase `ph` of a shutdown. -/
def sd (ph : Nat) (f : Dev → Dev) : State := on (fun d => f { d with sd.phase := ph, ledger.state := .bound, ledger.keyHeld := true, jnl.volatileRun := false })
/-- BUSY, STOPPED, frozen at Lock, CTX_OPEN and OK. -/
theorem test_shutdown : (okZ .hostP1 Reg.ZN_SD_CMD 1 (sd 0 id) &&
    gives (.shutdown .hostP1) (sd 1 id) (fun d => d.zf Reg.ZN_SD_STAT 7 4 == 2) &&
    gives (.shutdown .hostP1) (sd 0 (fun d => { d with clock.stopped := true })) (fun d => d.zf Reg.ZN_SD_STAT 7 4 == 4) &&
    gives (.shutdown .hostP1) (sd 0 (fun d => { d with aon.alarmLevel := 2 })) (fun d => d.zreg Reg.ZN_ALM_CNT_FROZEN == 1 && !d.sd.quiescePend) &&
    gives (.shutdown .hostP1) (sd 0 (ctx3 .failed 0)) (fun d => d.zf Reg.ZN_SD_STAT 7 4 == 3) &&
    gives (.shutdown .hostP1) (sd 0 (ctx3 .cooling 0)) (fun d => d.zf Reg.ZN_SD_STAT 7 4 == 1 && d.sd.quiescePend)) = true := by decide +kernel
/-- CANCELLED up to CHECKPOINT, the control cores held up to the next tick; LATE from ARRAY on; nothing when none runs. -/
theorem test_sdCancel : (okZ .hostP1 Reg.ZN_SD_CMD 2 (sd 2 id) &&
    gives (.sdCancel .hostP1) (sd 2 (fun d => { d with sd.hold := true })) (fun d => d.zf Reg.ZN_SD_STAT 7 4 == 6 && d.sd.phase == 0 && d.sd.hold &&
      !d.sdTick.sd.hold) &&
    gives (.sdCancel .hostP1) (sd 3 id) (fun d => d.zf Reg.ZN_SD_STAT 7 4 == 7 && d.sd.phase == 3) &&
    gives (.sdCancel .hostP1) (sd 7 id) (fun d => d.zf Reg.ZN_SD_STAT 7 4 == 7) && idle (.sdCancel .hostP1) (sd 0 id)) = true := by decide +kernel
/-- A command in progress keeps QUIESCE open until its core is unquiesced. -/
theorem test_quiesceEnd : (let busy : Dev → Dev := fun d => d.modWisp 2 5 (fun w => { w with inProgress := true })
    gives .quiesceEnd (sd 1 id) (fun d => d.sd.phase == 2 && d.zreg Reg.ZN_JNL_CNT_CKPT == 1) && idle .quiesceEnd (sd 1 busy) &&
    gives .quiesceEnd (sd 1 (fun d => busy { d with sd.unquiesced := [533] })) (fun d => d.sd.phase == 2) && idle .quiesceEnd (sd 2 id)) = true := by
  decide +kernel
theorem test_quiesceLimit : gives .quiesceLimit (sd 1 (fun d => { (d.setZ Reg.ZN_SD_QUIESCE 64).modWisp 2 5 (fun w => { w with inProgress := true })
      with clock.frame := 64 })) (fun d => d.sd.unquiesced == [533] && d.sd.phase == 1) = true := by decide +kernel
theorem test_checkpointEnd : (gives (.checkpointEnd false) (sd 2 id) (fun d => d.sd.phase == 8 && d.zf Reg.ZN_SD_STAT 18 16 == 4) &&
    gives (.checkpointEnd true) (sd 2 (fun d => { d with ledger.keyHeld := false })) (fun d => d.sd.phase == 8) &&
    idle (.checkpointEnd true) (sd 2 (fun d => { d with jnl.waiting := [.entry (.ckptBegin 0)] })) &&
    gives (.checkpointEnd true) (sd 2 id) (fun d => d.sd.phase == 3)) = true := by decide +kernel
theorem test_sdLimitExpire : (let s := fun ph n => sd ph (fun d => { d.setZ Reg.ZN_SD_LIMIT 100 with clock.frame := n })
    gives .sdLimitExpire (s 4 100) (fun d => d.sd.phase == 8 && d.zf Reg.ZN_SD_STAT 18 16 == 1) &&
    idle .sdLimitExpire (s 4 99) && idle .sdLimitExpire (s 7 100)) = true := by decide +kernel

/-- The arrays destroyed, supply and ZCLK within the window. -/
def arrays (bad : Bool) : State := sd 3 (fun d => { d.setZ Reg.ZN_SD_CTL 0 with sd.destroyed := true, sd.windowBad := bad, cfg.sdZclk := d.clock.zclkKhz * 100, pins.odtSupplyOk := true })
/-- A row of the first array of a Wisp is repaired by spare 0; outside the window nothing is judged. -/
theorem test_arrayTestEnd : (let x : ArrayFail := ⟨.wisp b2 p5, 0x20, some 9, false, 0⟩
    (arrays false).dev.windowNow && freeSpare [] [] 2 5 0x20 0 == some 0 &&
    gives (.arrayTestEnd [x]) (arrays false) (fun d => (d.bank 2).repairs.map (fun r => (r.kind, r.pos, r.array, r.frm, r.dst)) == [(1, 5, 0x20, 9, 0)] &&
      d.zf Reg.ZN_SD_STAT 10 10 == 1 && (d.sd.phase == 5 || d.sd.phase == 6)) &&
    gives (.arrayTestEnd [x]) (arrays true) (fun d => (d.bank 2).repairs == [] && d.zf Reg.ZN_SD_STAT 10 10 == 0) &&
    idle (.arrayTestEnd []) (sd 3 id)) = true := by decide +kernel
/-- The last Bank's last group ends CORES; with another Bank left it does not. -/
theorem test_coreTestGroupEnd : (let s := fun (l : List Nat) => sd 4 (fun d => { d with sd.banksLeft := l, sd.nextPos := [(2, 264)], sd.tested := [(533, 0), (534, 1), (535, 0)] })
    gives (.coreTestGroupEnd b2) (s [2]) (fun d => (d.sd.phase == 5 || d.sd.phase == 6) && d.sd.ended 0 == 2 && d.sd.ended 1 == 1) &&
    gives (.coreTestGroupEnd b2) (s [2, 3]) (fun d => d.sd.phase == 4 && d.sd.banksLeft == [3]) && idle (.coreTestGroupEnd b2) (s [3])) = true := by
  decide +kernel
/-- A row repair left to fuse. -/
def row9 : RepairRow := ⟨1, false, false, 5, 0x20, 9, 0⟩
theorem test_fuseEntryDone : (let s := sd 5 (fun d => { d with sd.fuseLeft := [(2, row9)], pins.fusePwrOk := true }.modBank 2 (fun k => { k with repairs := [row9] }))
    gives (.fuseEntryDone b2 true) s (fun d => Tbl.get (0, []) d.aon.fuses 2 == (1, [{ row9 with fused := true }]) &&
      (d.bank 2).repairs == [{ row9 with fused := true }] && d.zreg Reg.ZN_SD_FUSES == 1) &&
    gives (.fuseEntryDone b2 false) s (fun d => Tbl.get (0, []) d.aon.fuses 2 == (1, []) && (d.bank 2).repairs == [{ row9 with badFuse := true }] &&
      d.zreg Reg.ZN_SD_FUSES == 0x10000) && idle (.fuseEntryDone b2 true) (sd 4 id)) = true := by decide +kernel
theorem test_certDone : (gives (.certDone true) (sd 6 (fun d => { d with sd.clean := true })) (fun d => d.sd.phase == 7 && d.zf Reg.ZN_SD_STAT 8 8 == 1) &&
    gives (.certDone false) (sd 6 id) (fun d => d.sd.phase == 8 && d.zf Reg.ZN_SD_STAT 18 16 == 4) &&
    idle (.certDone true) (sd 6 (fun d => { d with jnl.waiting := [.entry (.ckptBegin 0)] }))) = true := by decide +kernel

/-! ## Thermal, hangs and resets -/

/-- The model running, an update due in frame 64. -/
def hotIn (n : Nat) (f : Dev → Dev) : State := at' n (fun d => f { d with thm.started := true, thm.nextAt := 64 })
theorem test_thermalUpdate_waits : idle .thermalUpdate (hotIn 63 id) = true := by decide +kernel
/-- Without a model a diode at its limit is an emergency and trips; without a valid one nothing is. -/
theorem test_thermalUpdate_diode : (let s := on (fun d => { d with thm.diodes := [(3, ⟨0x7FFF, true, 0, 0x7FFF, 0, false⟩)] })
    s.dev.validDiodes == [3] && decide (s.dev.diodeMargin 3 ≤ 0) &&
    gives .thermalUpdate s (fun d => d.thm.emerg.isSome && d.thm.pendTrip.isSome) &&
    gives .thermalUpdate base (fun d => d.thm.emerg.isNone && d.thm.pendTrip.isNone)) = true := by decide +kernel
theorem test_stopFramesExpire : (let s := fun n => on (fun d => { d.setZ Reg.ZN_THM_STOP 64 with
      thm.emerg := some (3, 9), thm.stopReq := true, thm.stopAt := 10, thm.updateAt := n })
    gives .stopFramesExpire (s 74) (fun d => d.thm.pendTrip == some (3, 9)) && idle .stopFramesExpire (s 73) && idle .stopFramesExpire base) =
    true := by decide +kernel

/-- Context 3 ACTIVE and quiet for `q` of 100 frames, its core at Bank 2, position 0 busy with no wait target. -/
def quiet3 (q : Nat) (f : Dev → Dev) : State := owned3 false (fun d => f ((d.setZ Reg.ZN_HANG_FRAMES 100).modCtx 3 (fun x => { x with hang.quiet := q })
  |>.modWisp 2 0 (fun w => { w with busy := true })))
theorem test_hangDetect : ((quiet3 100 id).dev.busyCores 3 == [528] &&
    gives (.hangDetect 3) (quiet3 100 id) (fun d => (d.ctx 3).core.state == .failed && (d.ctx 3).core.failReason == 4 &&
      (d.ctx 3).hang.incident == some 1 && d.zreg Reg.ZN_HANG_LAST == 0x403 && d.zreg Reg.ZN_HANG_LAST_INC == 1 && (d.uht 528).due &&
      d.hang.incidents.map (fun i => (i.number, i.ctx, i.blamed)) == [(1, 3, 528)]) &&
    idle (.hangDetect 3) (quiet3 99 id) && idle (.hangDetect 3) (quiet3 100 (fun d => { d with clock.stopped := true }))) = true := by decide +kernel

/-- Incident 7 of context 3 in a phase, ticket 21, queued in frame 10. -/
def inc (ph : IncidentPhase) : Incident := ⟨7, 3, [3], [(2, 0)], none, 528, false, ph, 9, none, 10, 21, none, [], [], false, false⟩
/-- The part with that incident, its context FAILED HUNG, RECOV_LIMIT 100 and SUPP_EXTRA 8, in frame `n`. -/
def hung (n : Nat) (i : Incident) (f : Dev → Dev) : State := at' n (fun d => f (({ d with hang.incidents := [i] }.setZ Reg.ZN_RECOV_LIMIT 100).setZ
  Reg.ZN_SUPP_EXTRA 8 |>.setZ Reg.ZN_CTX_SEL 3 |>.modCtx 3 (fun x => { x with core.state := .failed, core.failReason := 4, hang.incident := some 7 })))
/-- RECOV_EN as it is and a RECOVER given before. -/
theorem test_captureEnd : (gives (.captureEnd 7 []) (hung 12 (inc .capturing) (fun d => d.setZ Reg.ZN_HANG_CTL 0)) (fun d =>
      d.hang.incidents.map Incident.phase == [.awaitingCommand]) &&
    gives (.captureEnd 7 []) (hung 12 (inc .capturing) (fun d => d.setZ Reg.ZN_HANG_CTL 1)) (fun d =>
      d.hang.incidents.map (fun i => (i.phase, i.queuedAt)) == [(.queued, 12)]) &&
    idle (.captureEnd 7 []) (hung 12 (inc .queued) id)) = true := by decide +kernel
/-- STARTED, BUSY and NOTHUNG. -/
theorem test_recover : (okZ .hostP1 Reg.ZN_RECOV_CMD 1 (hung 12 (inc .awaitingCommand) id) &&
    gives (.recover .hostP1) (hung 12 (inc .awaitingCommand) id) (fun d => d.zf Reg.ZN_RECOV_STAT 2 0 == 1 &&
      d.hang.incidents.map Incident.phase == [.queued]) &&
    gives (.recover .hostP1) (hung 12 (inc .requested) id) (fun d => d.zf Reg.ZN_RECOV_STAT 2 0 == 3) &&
    gives (.recover .hostP1) (hung 12 (inc .awaitingCommand) (ctx3 .active 0)) (fun d => d.zf Reg.ZN_RECOV_STAT 2 0 == 2)) = true := by decide +kernel
theorem test_rcDone : (gives (.rcDone 21) (hung 12 (inc .requested) id) (fun d => d.zreg Reg.ZN_HANG_CNT_RECOVERED == 1 &&
      d.hang.incidents.map (fun i => (i.phase, i.windowEnd)) == [(.recovered, some 20)] && (d.ctx 3).hang.recovered) &&
    gives (.rcDone 21) (hung 12 (inc .timedOut) id) (fun d => d.zreg Reg.ZN_HANG_CNT_LATE == 1) && idle (.rcDone 22) (hung 12 (inc .requested) id)) =
    true := by decide +kernel
theorem test_rcFail : (gives (.rcFail 21) (hung 12 (inc .requested) id) (fun d => d.hang.chipReset && d.aon.rstCause == 5 &&
      d.zreg Reg.ZN_HANG_CNT_RECOV_TO == 1 && d.hang.incidents.map Incident.phase == [.timedOut]) && idle (.rcFail 22) base) = true := by decide +kernel
theorem test_recovLimitExpire : ((hung 0 (inc .queued) id).dev.recovDeadline (inc .queued) == 111 &&
    gives (.recovLimitExpire 21) (hung 111 (inc .requested) id) (fun d => d.hang.chipReset && d.aon.rstCount == 1) &&
    idle (.recovLimitExpire 21) (hung 110 (inc .requested) id)) = true := by decide +kernel
/-- The window's neighbour, context 5: busy without a beacon since the request, and not busy. -/
theorem test_suppressionEnd : (let s := fun (b : Bool) => hung 20 { inc .recovered with windowEnd := some 20, neighbours := [5], requestAt := some 12 } (fun d => d.modCtx 5 (fun x => { x with core.state := .active, hang := { x.hang with busy := b, quiet := 9 } }))
    gives (.suppressionEnd 7) (s true) (fun d => (d.ctx 5).core.state == .failed && (d.ctx 5).core.failReason == 4 &&
      d.zreg Reg.ZN_HANG_CNT_COLLATERAL == 1) &&
    gives (.suppressionEnd 7) (s false) (fun d => (d.ctx 5).core.state == .active && (d.ctx 5).hang.quiet == 0)) = true := by decide +kernel

/-- BADUNIT of Bank 192 and of an isolated Anvil, BUSY, and a reset that starts. -/
theorem test_anvReset : (okZ .hostP1 Reg.ZN_RECOV_CMD 0x202 base &&
    gives (.anvReset .hostP1 192) base (fun d => d.zf Reg.ZN_RECOV_STAT 2 0 == 4) &&
    gives (.anvReset .hostP1 2) (on (fun d => d.modBank 2 (fun k => { k with anv.isolated := true }))) (fun d => d.zf Reg.ZN_RECOV_STAT 2 0 == 4) &&
    gives (.anvReset .hostP1 2) (on (fun d => d.modBank 2 (fun k => { k with anv.resetAt := some 0 }))) (fun d => d.zf Reg.ZN_RECOV_STAT 2 0 == 3) &&
    gives (.anvReset .hostP1 191) base (fun d => d.zf Reg.ZN_RECOV_STAT 2 0 == 1 && (d.bank 191).anv.resetAt == some 0 &&
      (d.bank 191).anv.resetCause == 3 && d.zreg Reg.ZN_HANG_CNT_ANV_RESET == 1)) = true := by decide +kernel
theorem test_anvilNoProgress : gives (.anvilNoProgress b2) base (fun d => (d.bank 2).anv.resetAt == some 0 && (d.bank 2).anv.resetCause == 1) =
    true := by decide +kernel
/-- A pass, a failure, and a completion after isolation. -/
theorem test_anvilResetDone : (let s := at' 9 (fun d => d.modBank 2 (fun k => { k with anv.resetAt := some 0 }))
    gives (.anvilResetDone b2 true) s (fun d => (d.bank 2).anv.resetPassed && (d.bank 2).anv.resetAt == some 0) &&
    gives (.anvilResetDone b2 false) s (fun d => (d.bank 2).anv.isolated && d.healthOf (anvilUnit 2) == .eclipse &&
      (d.uht (anvilUnit 2)).reason == 0x16 && d.zreg Reg.ZN_HANG_CNT_ANV_ISO == 1) &&
    gives (.anvilResetDone b2 true) (on (fun d => d.modBank 2 (fun k => { k with anv.isolated := true }))) (fun d =>
      d.zreg Reg.ZN_HANG_CNT_LATE == 1)) = true := by decide +kernel
theorem test_anvRstLimitExpire : (let s := fun n => at' n (fun d => (d.setZ Reg.ZN_ANV_RST_LIMIT 16).modBank 2 (fun k => { k with anv.resetAt := some 3 }))
    gives (.anvRstLimitExpire b2) (s 19) (fun d => (d.bank 2).anv.isolated) && idle (.anvRstLimitExpire b2) (s 18)) = true := by decide +kernel
/-- A Bank reset keeps the control-core block and loses ring, queue and pending candidates. -/
theorem test_bankReset : (let s := on (fun d => (d.modBank 2 (fun k => { k with cc.step := 9, ring.count := 4, ring.wr := 4 })).modWisp 2 5 (fun w =>
      { w with pend := [dot], pat.valid := true }))
    okZ .hostP1 Reg.ZN_RECOV_CMD 0x204 s && gives (.bankReset .hostP1 2) s (fun d => d.zf Reg.ZN_RECOV_STAT 2 0 == 1 && (d.bank 2).cc.step == 9 &&
      (d.bank 2).ring == Bank.init.ring && (d.wisp 2 5).pend == [] && (d.wisp 2 5).pat.valid && d.zreg Reg.ZN_HANG_CNT_BANKLOST == 4) &&
    gives (.bankReset .hostP1 192) s (fun d => d.zf Reg.ZN_RECOV_STAT 2 0 == 4) &&
    gives (.bankReset .hostP1 2) (on (fun d => d.modBank 2 (fun k => { k with resetAt := some 0 }))) (fun d => d.zf Reg.ZN_RECOV_STAT 2 0 == 3)) =
    true := by decide +kernel
theorem test_bankSummaryMissing : (let s := fun n => on (fun d => d.modBank 2 (fun k => { k with missing := n }))
    gives (.bankSummaryMissing b2) (s 16) (fun d => (d.bank 2).resetAt == some 0 && (d.bank 2).resetCause == 1) && idle (.bankSummaryMissing b2) (s 15)) =
    true := by decide +kernel
theorem test_bankResetEnd : (gives (.bankResetEnd b2) (at' 4 (fun d => d.modBank 2 (fun k => { k with resetAt := some 3 }))) (fun d => (d.bank 2).resetAt == none) &&
    gives (.bankResetEnd b2) (on (fun d => d.modBank 2 (fun k => { k with isolated := true }))) (fun d => d.zreg Reg.ZN_HANG_CNT_LATE == 1)) = true := by
  decide +kernel
/-- A reset of a Bank already isolated leaves it so at the limit, and not a frame before. -/
theorem test_bankRstLimitExpire : (let s := fun (n : Nat) => at' n (fun d => (d.setZ Reg.ZN_BANK_RST_LIMIT 16).modBank 2 (fun k =>
      { k with resetAt := some 3, isolated := true }))
    gives (.bankRstLimitExpire b2) (s 19) (fun d => (d.bank 2).isolated && (d.bank 2).resetAt == none) && idle (.bankRstLimitExpire b2) (s 18)) = true := by
  decide +kernel
theorem test_kick : (let s := on (fun d => { d with hang.wdog := 5 })
    okZ .steward Reg.ZN_WDOG_KICK 1 s && gives (.kick .steward) s (fun d => d.hang.wdog == 0) &&
    gives (.kick .hostP1) s (fun d => d.hang.wdog == 5)) = true := by decide +kernel
theorem test_watchdogExpire : (let s := fun n => on (fun d => { d.setZ Reg.ZN_WDOG 64 with hang.wdog := n })
    gives .watchdogExpire (s 64) (fun d => d.hang.chipReset && d.aon.rstCause == 1) && idle .watchdogExpire (s 63)) = true := by decide +kernel

/-! ## Records and the journal -/

/-- An event of source 5 presented to Bank 2. -/
def pres (code : Nat) (frm : Option Nat) (fwd : Forward) : Presented := ⟨5, frm, ⟨code, 3, false, 1, 2, 3, 4, none⟩, fwd⟩
/-- Bank 2 with its ring changed, in frame 8. -/
def ring2 (f : BankRing → BankRing) : State := at' 8 (fun d => d.modBank 2 (fun k => { k with ring := f k.ring }))
/-- Written at WR, full, frozen, forwarded, and stamped with the frame a Wisp's event carries. -/
theorem test_bankRecordAccept : (let s := fun f => ring2 (fun r => f { r with presented := [pres 1 none .nothing], rd := 4, wr := 4, count := 0 })
    gives (.bankRecordAccept b2 7) (s id) (fun d => (d.bank 2).ring.wr == 5 && (d.bank 2).ring.count == 1 && (d.bank 2).ring.presented == [] &&
      (Tbl.find (d.bank 2).ring.ring 4).map (fun x => (x.ts, x.code, x.source, x.ctx, x.rpt, x.p3)) == some (mkStamp 8 7, 1, 5, 3, 1, 4)) &&
    gives (.bankRecordAccept b2 7) (s (fun r => { r with count := 2048 })) (fun d => (d.bank 2).ring.lost == 1 && (d.bank 2).ring.count == 2048) &&
    gives (.bankRecordAccept b2 7) (s (fun r => { r with frozenAt := some 3 })) (fun d => (d.bank 2).ring.lost == 1) &&
    idle (.bankRecordAccept b2 7) (s (fun r => { r with presented := [] }))) = true := by decide +kernel
theorem test_bankRecordAccept_stamp : (gives (.bankRecordAccept b2 7) (ring2 (fun r => { r with presented := [pres 1 (some 7) .journal] })) (fun d =>
      (Tbl.find (d.bank 2).ring.ring 0).map Rec.ts == some (mkStamp 7 2047) && d.jnl.waiting.length == 1)) = true := by decide +kernel
/-- RD moves within COUNT and not past it. -/
theorem test_recRdWrite : (let s := ring2 (fun r => { r with rd := 2046, wr := 1, count := 3 })
    okAt (.cc b2) (.bk 2 Reg.BK_REC_RD) 0 s && gives (.recRdWrite (.cc b2) b2 1) s (fun d => (d.bank 2).ring.rd == 1 && (d.bank 2).ring.count == 0) &&
    gives (.recRdWrite (.cc b2) b2 2) s (fun d => (d.bank 2).ring.rd == 2046 && (d.bank 2).ring.count == 3)) = true := by decide +kernel
/-- The lane mask of BK_REC_CTL: nothing without it. -/
theorem test_recFreeze : (let s := ring2 (fun r => { r with frozenAt := some 3 })
    okAt (.cc b2) (.bk 2 Reg.BK_REC_CTL) 0x10001 s && gives (.recFreeze (.cc b2) b2 0x10001) (ring2 id) (fun d => (d.bank 2).ring.frozenAt == some 8) &&
    gives (.recFreeze (.cc b2) b2 0x10000) s (fun d => (d.bank 2).ring.frozenAt == none) &&
    gives (.recFreeze (.cc b2) b2 1) s (fun d => (d.bank 2).ring.frozenAt == some 3)) = true := by decide +kernel
theorem test_freezes_expire : (let s := fun n => at' n (fun d => (d.modBank 2 (fun k => { k with ring.frozenAt := some 3 })).modWisp 2 5 (fun w => { w with frozenAt := some 3 }))
    gives (.recFreezeExpire b2) (s 65539) (fun d => (d.bank 2).ring.frozenAt == none) && idle (.recFreezeExpire b2) (s 65538) &&
    gives (.wsRecFreezeExpire b2 p5) (s 65539) (fun d => (d.wisp 2 5).frozenAt == none) && idle (.wsRecFreezeExpire b2 p5) (s 65538)) = true := by
  decide +kernel
/-- Through the indirect window. -/
theorem test_wsRecFreeze : (okAt .hostP1 (.ws 2 5 Reg.WS_REC_CTL) 0x10001 (ring2 id) &&
    gives (.wsRecFreeze .hostP1 b2 p5 0x10001) (ring2 id) (fun d => (d.wisp 2 5).frozenAt == some 8) &&
    gives (.wsRecFreeze .hostP1 b2 p5 1) (ring2 id) (fun d => (d.wisp 2 5).frozenAt == none)) = true := by decide +kernel
/-- DENIED of the host, BADBANK of Bank 192, and ARMED. -/
theorem test_recClrArm : (let s := fun v => on (fun d => d.setZ Reg.ZN_REC_CLR_SEL v)
    okZ .mgmt Reg.ZN_REC_CLR_CMD 1 (s 2) && gives (.recClrArm .hostP1 7) (s 2) (fun d => d.zf Reg.ZN_REC_CLR_STAT 2 0 == 3) &&
    gives (.recClrArm .mgmt 7) (s 192) (fun d => d.zf Reg.ZN_REC_CLR_STAT 2 0 == 5) &&
    gives (.recClrArm .mgmt 7) (s 191) (fun d => d.zf Reg.ZN_REC_CLR_STAT 2 0 == 1 && (d.path .mgmt).clearArmed == some (7, 191))) = true := by
  decide +kernel
/-- 1,024 zc after ARM is in time and 1,025 is not; an ARM of another path does not count. -/
theorem test_recClrClear : (let s := on (fun d => (d.setZ Reg.ZN_REC_CLR_SEL 2).modPath .mgmt (fun c => { c with clearArmed := some (7, 2) }))
    okZ .mgmt Reg.ZN_REC_CLR_CMD 2 s && gives (.recClrClear .mgmt 1031) s (fun d => d.zf Reg.ZN_REC_CLR_STAT 2 0 == 2 &&
      (d.bank 2).ring.clearPend == some false && (d.bank 3).ring.clearPend == none && (d.path .mgmt).clearArmed == none) &&
    gives (.recClrClear .mgmt 1032) s (fun d => d.zf Reg.ZN_REC_CLR_STAT 2 0 == 4 && (d.bank 2).ring.clearPend == none) &&
    gives (.recClrClear .steward 8) s (fun d => d.zf Reg.ZN_REC_CLR_STAT 2 0 == 4)) = true := by decide +kernel
/-- A record is latched at W0; W7 moves IDX on. -/
theorem test_recW : (let x : Rec := ⟨mkStamp 8 7, 1, 0, 5, 3, 1, 11, 12, 13, 14⟩
    let s := ring2 (fun r => { r with ring := [(2047, x)], idx := 2047 })
    okRead (.cc b2) (.bk 2 Reg.BK_REC_W) s && gives (.recW0Read (.cc b2) b2) s (fun d => (d.bank 2).ring.valid && (d.bank 2).ring.copy == x.words &&
      d.regs.readData == x.words.headD 0) &&
    gives (.recW7Read (.cc b2) b2) (ring2 (fun r => { r with idx := 2047, valid := true, copy := x.words })) (fun d => (d.bank 2).ring.idx == 0 &&
      !(d.bank 2).ring.valid && d.regs.readData == 14)) = true := by decide +kernel

/-- The journal of a bound module of four sectors with its key held, nothing lost. -/
def jn (f : Journal → Journal) : State := on (fun d => { d with
  ledger := { d.ledger with state := .bound, keyHeld := true, header := some ⟨0, 0, 1, 40, 0, 0, 0, 4, false, some 0⟩ },
  jnl := f { d.jnl with volatileRun := false, ckptOwed := false } })
/-- A staged entry of 48 bytes. -/
def jev (n : Nat) : JEntry := ⟨1, n, .event 2 ⟨0, 1, 0, 5, 3, 1, 0, 0, 0, 0⟩⟩
set_option maxRecDepth 100000 in
/-- The last 16 KiB of staging take no EVENT: 3,840 entries fill the rest. -/
theorem test_journalAppend : (gives (.journalAppend 7) (jn (fun j => { j with waiting := [.entry (jev 0).body], nextSeq := 9, start := 1 })) (fun d =>
      d.jnl.staging.map JEntry.seq == [9] && d.jnl.nextSeq == 10 && d.zreg Reg.ZN_JNL_CNT_APPEND == 1 && d.jnl.waiting == []) &&
    gives (.journalAppend 7) (jn (fun j => { j with waiting := [.entry (jev 0).body], staging := List.replicate 3840 (jev 0) })) (fun d =>
      d.jnl.staging.length == 3840 && d.jnl.lostEvents == 1 && d.zreg Reg.ZN_JNL_CNT_LOST == 1) && idle (.journalAppend 7) (jn id)) = true := by
  decide +kernel
theorem test_journalEntryDurable : (gives .journalEntryDurable (jn (fun j => { j with staging := [jev 4], sector := 2, sectorFill := 65456 })) (fun d =>
      d.jnl.staging == [] && d.jnl.durableSeq == some 4 && Tbl.get [] d.jnl.sectors 2 == [jev 4] && d.jnl.sectorFill == 65536) &&
    idle .journalEntryDurable (jn id) && idle .journalEntryDurable (on (fun d => { d with jnl.staging := [jev 4], ledger.state := .foreign }))) = true := by
  decide +kernel
/-- An empty next sector is erased; one that holds entries no checkpoint outside covers calls for a checkpoint first. -/
theorem test_sectorErase : (let s := fun l => jn (fun j => { j with staging := [jev 4], sector := 3, sectorFill := 65457, sectors := l })
    gives .sectorErase (s []) (fun d => d.jnl.sector == 0 && d.jnl.sectorFill == 64 && d.wear == 41 && d.jnl.staging == [jev 4]) &&
    gives .sectorErase (s [(0, [jev 1])]) (fun d => d.jnl.sector == 3 && d.zreg Reg.ZN_JNL_CNT_CKPT == 1)) = true := by decide +kernel
theorem test_agesCheckpoint : (let s := fun n => at' n (fun d => d.setZ Reg.ZN_JNL_CKPT 10)
    gives .agesCheckpoint (s 1024) (fun d => d.jnl.ckptAt == 1024 && d.zreg Reg.ZN_JNL_CNT_CKPT == 1) && idle .agesCheckpoint (s 1023) &&
    idle .agesCheckpoint (at' 1024 (fun d => d.setZ Reg.ZN_JNL_CKPT 0))) = true := by decide +kernel
theorem test_jnlSeqSnap : (let s := jn (fun j => { j with nextSeq := 9, durableSeq := none })
    okZ .hostP1 Reg.ZN_JNL_SEQ_CMD 1 s && gives (.jnlSeqSnap .hostP1) s (fun d => (d.path .hostP1).jnl.data == [9, 0, 0xFFFFFFFF, 0xFFFFFFFF])) = true := by
  decide +kernel

/-! ## Debug -/

/-- The debug region of 2^24 bytes, in frame 8. -/
def dbg8 (f : Dev → Dev) : State := at' 8 (fun d => f { d with cfg.regions := List.replicate 7 ⟨0x1000000, 0x1000000⟩ })
/-- A stream without a ring skips its sample; one whose context owns no core here writes a header of 64 bytes. -/
theorem test_counterSample : (let s := dbg8 (fun d => { d with dbg.due := [(194, 18)] }.setZ (Reg.ZN_CTR_S_CTX + 0x20) 7)
    gives (.counterSample 1 b2) s (fun d => Tbl.get 0 d.dbg.due 194 == 0 && d.zreg (Reg.ZN_CTR_S_SKIPPED + 0x20) == 1) &&
    idle (.counterSample 1 b2) (dbg8 id)) = true := by decide +kernel
theorem test_counterSample_ring : (let s := dbg8 (fun d => ({ d with dbg.due := [(194, 18)] }.setZ (Reg.ZN_CTR_S_SIZE + 0x20) 1).setZ (Reg.ZN_CTR_S_CTX + 0x20) 7)
    gives (.counterSample 1 b2) s (fun d => Tbl.get 0 d.dbg.due 194 == 0 && Tbl.get 0 (d.bank 2).dbg.ctrWr 1 == 4)) = true := by decide +kernel
/-- The trace enabled with a ring of 4 KiB for each Bank, and a minimum of 10 clocks. -/
def traced (f : Dev → Dev) : State := dbg8 (fun d => f (((d.setZ Reg.ZN_TRC_CTL 1).setZ Reg.ZN_TRC_SIZE 1).setZ Reg.ZN_TRC_MIN 10))
/-- A wait of 10 clocks is staged, one of 9 is not; a full stager loses it. -/
theorem test_syncWaitEnd : (gives (.syncWaitEnd b2 p5 10 0x20 7) (traced id) (fun d => (d.bank 2).dbg.staged.map List.length == [16]) &&
    gives (.syncWaitEnd b2 p5 10 0x20 7) (traced (fun d => d.modBank 2 (fun k => { k with dbg.staged := List.replicate 255 [] }))) (fun d =>
      (d.bank 2).dbg.traceLost == 1 && d.zreg Reg.ZN_TRC_CNT_LOST == 1) &&
    idle (.syncWaitEnd b2 p5 9 0x20 7) (traced id) && idle (.syncWaitEnd b2 p5 10 0x20 7) (dbg8 id)) = true := by decide +kernel

/-- A store command that Bank 2 sees for logical core 5. -/
def offer : CmdTag := ⟨⟨5, by decide⟩, 3, 1, 2, 4, 0x77, 0x10000, 4096, 2, true, true, false⟩
/-- Breakpoint 0 on it with SKIP passes to let by, the rest of the part changed by `f`. -/
def brk (skip : Word) (f : Dev → Dev) : State := dbg8 (fun d => f ((((d.setZ Reg.ZN_BRK_CFG 1).setZ Reg.ZN_BRK_MATCH0 0x10003).setZ Reg.ZN_BRK_MATCH1
  (2 + 65536 * skip)).setZ Reg.ZN_BRK_STEP 4))
/-- No breakpoint, a pass, a hit, and a Bank that withholds. -/
theorem test_commandOffer : (gives (.commandOffer b2 offer) (dbg8 id) (fun d => d.dbg.hits == [] && (d.bank 2).dbg.withheld == []) &&
    gives (.commandOffer b2 offer) (brk 1 id) (fun d => d.dbg.passes == [(0, 1)] && d.dbg.hits == []) &&
    gives (.commandOffer b2 offer) (brk 0 id) (fun d => d.dbg.hits == [⟨0, 8, 3, false, 2, false⟩] && (d.bank 2).dbg.withheld == [⟨offer, true⟩]) &&
    gives (.commandOffer b2 offer) (brk 0 (fun d => d.modBank 2 (fun k => { k with dbg.withheld := [⟨offer, true⟩] }))) (fun d =>
      (d.bank 2).dbg.withheld.length == 2 && d.dbg.hits == [])) = true := by decide +kernel
theorem test_commandOffer_down : (idle (.commandOffer b2 offer) (dbg8 (fun d => d.modBank 2 (fun k => { k with isolated := true }))) &&
    gives (.commandOffer b2 offer) (dbg8 (fun d => { d with dbg.dumps := [(1, { Dump.init with state := 1, ctx := 3, layer := 1, oper := 2, step := 4, handle := 0x77 })] }))
      (fun d => (d.dump 1).state == 2 && (d.dump 1).extents == [⟨2, 0x10000, 4096, 2, true⟩])) = true := by decide +kernel
theorem test_contextHalted : (let s := dbg8 (fun d => { d with dbg.dumps := [(1, { Dump.init with state := 2, ctx := 3, halting := true })] }.modCtx 3
      (fun x => { x with dbgState := 1 }))
    gives (.contextHalted 3) s (fun d => (d.ctx 3).dbgState == 2 && (d.dump 1).state == 3 && (d.dump 1).startFrame == 8) && idle (.contextHalted 3) (dbg8 id)) =
    true := by decide +kernel
theorem test_continue : (let s := dbg8 (fun d => { d with dbg.hits := [⟨0, 8, 3, false, 2, false⟩, ⟨1, 8, 4, false, 2, false⟩, ⟨2, 8, 4, true, 2, false⟩] })
    okZ .hostP1 Reg.ZN_BRK_CMD 0x30001 s && gives (.continueHit .hostP1 3) s (fun d => d.dbg.hits.map BrkHit.releasing == [true, false, true]) &&
    okZ .hostP1 Reg.ZN_BRK_CMD 2 s && gives (.continueAll .hostP1) s (fun d => d.dbg.hits.map BrkHit.releasing == [true, true, true])) = true := by
  decide +kernel
/-- LOCKED, BUSY, NULL, BADAREA and ARMED. -/
theorem test_dumpArm : (let s := fun (l : Word) (f : Dev → Dev) => dbg8 (fun d => f ((d.setZ (Reg.ZN_DMP_LIMIT + 0x20) l).setZ (Reg.ZN_DMP_CTX + 0x20) 3))
    okZ .hostP1 Reg.ZN_DMP_CMD 0x101 (s 8 id) &&
    gives (.dumpArm .mgmt 1) (s 8 (fun d => { d with aon.alarmLevel := 2 })) (fun d => d.zf Reg.ZN_DMP_RES 2 0 == 4) &&
    gives (.dumpArm .hostP1 1) (s 8 (fun d => { d with dbg.dumps := [(1, { Dump.init with state := 3 })] })) (fun d => d.zf Reg.ZN_DMP_RES 2 0 == 3) &&
    gives (.dumpArm .hostP1 1) (s 0 id) (fun d => d.zf Reg.ZN_DMP_RES 2 0 == 2) &&
    gives (.dumpArm .hostP1 1) (s 4097 id) (fun d => d.zf Reg.ZN_DMP_RES 2 0 == 6 && d.zreg Reg.ZN_DBG_CNT_REJECT == 1) &&
    gives (.dumpArm .hostP1 1) (s 4096 id) (fun d => d.zf Reg.ZN_DMP_RES 2 0 == 1 && (d.dump 1).state == 1 && (d.dump 1).ctx == 3)) = true := by
  decide +kernel
theorem test_dumpCancel : (let s := dbg8 (fun d => { d with dbg.dumps := [(1, { Dump.init with state := 2, halting := true })] })
    okZ .hostP1 Reg.ZN_DMP_CMD 0x102 s && gives (.dumpCancel .hostP1 1) s (fun d => d.zf Reg.ZN_DMP_RES 2 0 == 5 && (d.dump 1).state == 0 && (d.dump 1).releasing) &&
    gives (.dumpCancel .hostP1 1) (dbg8 id) (fun d => d.zf Reg.ZN_DMP_RES 2 0 == 2)) = true := by decide +kernel
theorem test_dumpCopyDone : (gives (.dumpCopyDone 1) (dbg8 (fun d => { d with dbg.dumps := [(1, { Dump.init with state := 3, limit := 1 })] })) (fun d =>
      (d.dump 1).state == 4 && (d.dump 1).releasing) && idle (.dumpCopyDone 1) (dbg8 id)) = true := by decide +kernel
theorem test_graph : (let s := dbg8 (fun d => ctx3 .active 1 (d.setZ Reg.ZN_CTX_SEL 3))
    okZ .hostP1 Reg.ZN_WFG_CMD 1 s && gives (.graph .hostP1) s (fun d => d.dbg.wfg == 1 && d.dbg.wfgWaits == []) &&
    gives (.graph .hostP1) (dbg8 (fun d => d.setZ Reg.ZN_CTX_SEL 3)) (fun d => d.dbg.wfg == 3)) = true := by decide +kernel
theorem test_graphDone : (gives .graphDone (dbg8 (fun d => { d with dbg.wfg := 1 })) (fun d => d.dbg.wfg == 2) && idle .graphDone (dbg8 id)) = true := by
  decide +kernel
theorem test_counterRead : (let s := dbg8 (fun d => d.modWisp 2 5 (fun w => { (w.setReg Reg.WS_CTR_SEL 4) with counters := [(4, 0x100000009)] }))
    okAt .hostP1 (.ws 2 5 Reg.WS_CTR_CMD) 1 s && gives (.counterRead .hostP1 b2 p5) s (fun d =>
      Tbl.get Mailbox.init (d.path .hostP1).counter 533 == ⟨true, [9, 1]⟩)) = true := by decide +kernel
/-- Selector 9 is metric 1 with bit 3 set. -/
theorem test_extremeRead : (let s := fun x => dbg8 (fun d => d.modWisp 2 5 (fun w => { (w.setReg Reg.WS_REC_X_SEL 9) with extremes := [(3, x)] }))
    okAt .hostP1 (.ws 2 5 Reg.WS_REC_X_CMD) 1 (s none) && gives (.extremeRead .hostP1 b2 p5) (s (some ⟨77, 6⟩)) (fun d =>
      Tbl.get Mailbox.init (d.path .hostP1).extreme 533 == ⟨true, [77, 0x3000, 0]⟩) &&
    gives (.extremeRead .hostP1 b2 p5) (s none) (fun d => (d.path .hostP1).extremeEmpty.contains 533)) = true := by decide +kernel

/-! ## Keys, alarms and the management port -/

/-- A supply glitch is Lock by default; TAMPER is Erase when the image says so, and a lower source does not lower the level. -/
theorem test_alarms : (gives .vglitch (at' 8 id) (fun d => d.aon.alarmLevel == 2 && d.aon.raised == 2 && d.zreg Reg.ZN_ALM_CNT_RAISE == 1) &&
    gives .cglitch (at' 8 (fun d => { d with aon.alarmLevel := 3 })) (fun d => d.aon.alarmLevel == 3 && d.aon.raised == 4) &&
    gives .tamper (at' 8 (fun d => { d with cfg.alarmMap := 3 * 4 ^ 3, ledger.keyHeld := true, afsin.session := some 1 })) (fun d =>
      d.aon.alarmLevel == 3 && !d.ledger.keyHeld && d.afsin.session == none && d.jnl.volatileRun)) = true := by decide +kernel
/-- Held in reset, the always-on slice alone acts. -/
theorem test_alarm_held : gives .tamper (at' 8 (fun d => { d with pins.resetHeld := true, ledger.keyHeld := true, cfg.alarmMap := 3 * 4 ^ 3 })) (fun d =>
    d.aon.alarmLevel == 3 && !d.ledger.keyHeld && d.zreg Reg.ZN_ALM_CNT_RAISE == 0) = true := by decide +kernel
theorem test_drbgReseed : (gives (.drbgReseed true) (at' 65536 id) (fun d => d.alarms.reseedAt == 65536 && !d.alarms.entFail) &&
    gives (.drbgReseed false) (at' 65536 id) (fun d => d.alarms.entFail && d.aon.alarmLevel == d.alarmLevelOf 5) &&
    idle (.drbgReseed false) (at' 65535 id)) = true := by decide +kernel
theorem test_debugChallenge : exec .debugChallenge base =
    .next (base.onDev (fun d => { d with draws := d.draws + 1, alarms.challenge := some ((Config.drbg d.draws).setWidth 256) })) := rfl
theorem test_debugChallenge_locked : idle .debugChallenge (at' 8 (fun d => { d with aon.alarmLevel := 2 })) = true := by decide +kernel
/-- A challenge offered, after `n` failures; the image holds no debug key, so an attempt fails. -/
def dbgTry (n : Nat) : State := at' 8 (fun d => { d with alarms.challenge := some 7, aon.debugFails := n })
theorem test_debugUnlock : (gives (.debugUnlock 9) (dbgTry 1) (fun d => d.alarms.challenge == none && d.aon.debugFails == 2 && d.aon.alarmLevel == 0) &&
    gives (.debugUnlock 9) (dbgTry 2) (fun d => d.aon.debugFails == 3 && d.aon.alarmLevel == d.alarmLevelOf 4 && !d.alarms.debugOpen) &&
    idle (.debugUnlock 9) base) = true := by decide +kernel
/-- No signature is good where the image has no key. -/
theorem test_debugUnlock_witness : (dbgTry 1).dev.locked = false ∧ (dbgTry 1).dev.alarms.challenge = some 7 ∧
    ((false : Bool) = true ↔ ∃ k, (dbgTry 1).dev.imageKey 4 = some k ∧
      Crypto.ecdsaVerify k (Crypto.digest (challengeBytes 7)) 9 = true) := by
  refine ⟨by decide +kernel, by decide +kernel, ?_⟩
  have h : (dbgTry 1).dev.imageKey 4 = none := by decide +kernel
  simp [h]
/-- What a good signature does. -/
theorem test_debugUnlock_good : (let d := (dbgTry 2).dev.debugAttempt true
    d.alarms.debugOpen && d.alarms.challenge == none && d.aon.debugFails == 0 && d.aon.alarmLevel == 0) = true := by decide +kernel

/-- STATE, BUSY and a start. -/
theorem test_export : (let s := fun f => at' 8 (fun d => f { d with ledger.state := .bound })
    okZ .hostP1 Reg.ZN_EXP_CMD 1 (s id) && gives (.exportCmd .hostP1) (s id) (fun d => d.zf Reg.ZN_EXP_STAT 2 0 == 1 && d.alarms.exportRunning == some true) &&
    gives (.exportCmd .hostP1) (s (fun d => { d with alarms.exportRunning := some false })) (fun d => d.zf Reg.ZN_EXP_STAT 2 0 == 3) &&
    gives (.exportCmd .hostP1) (s (fun d => { d with jnl.volatileRun := true })) (fun d => d.zf Reg.ZN_EXP_STAT 2 0 == 4) &&
    idle .exportDone (s id)) = true := by decide +kernel
/-- An export whose snapshot is taken. -/
def exported : State := at' 8 (fun d => { d with alarms.exportRunning := some true, alarms.exportSnap := some { uht := [], sweepNo := 0, ceSweep := 0, maps := [], repairs := [], stamp := 0 } })
theorem test_exportDone : exported.dev.alarms.exportRunning = some true ∧ exported.dev.alarms.exportSnap = some { uht := [], sweepNo := 0, ceSweep := 0, maps := [], repairs := [], stamp := 0 } := by decide +kernel
/-- An import accepted in frame 8, at frame `n`. -/
def importing (n : Nat) : State := at' n (fun d => { d with alarms.importPend := some ⟨[], [], [], 0, 8⟩ })
theorem test_importApply : exec .importApply (importing 9) = .next ((importing 9).onDev (fun d => d.applyImport ⟨[], [], [], 0, 8⟩)) := rfl
theorem test_importApply_waits : idle .importApply (importing 8) = true := by decide +kernel

/-- A session is open under key 1. -/
def ses (f : Dev → Dev) : State := at' 8 (fun d => f { d with afsin.session := some 1 })
/-- The header of a request: SEQ 5 and a tag. -/
def rq (tag : BitVec 128) : AfsHead := ⟨5, true, tag⟩
/-- A request may act. -/
def okReq (c : Instr) (s : State) : Bool :=
  match afsRequest c with
  | some (h, code, body) => s.dev.afsOn && decide (s.dev.examine h code body = 0)
  | none => false
/-- The STATUS of the last answer. -/
def status (d : Dev) : Option Byte := d.afsin.response[14]?

theorem test_refused_requests : (gives (.alarmClear (rq 0)) (at' 8 id) (fun d => status d == some 3 && d.zreg Reg.ZN_AFS_CNT_BADAUTH == 0) &&
    gives (.alarmClear (rq 0)) (ses id) (fun d => status d == some 1 && d.zreg Reg.ZN_AFS_CNT_BADAUTH == 1) &&
    gives (.alarmClear (rq 82168382869397361187569392551141590719)) (ses (fun d => { d with afsin.lastSeq := some 5 })) (fun d =>
      status d == some 2 && d.zreg Reg.ZN_AFS_CNT_BADAUTH == 1) &&
    idle (.alarmClear (rq 0)) (ses (fun d => { d with start.mode := .unconfigured }))) = true := by decide +kernel
theorem test_entdaa : (gives (.entdaa 9) base (fun d => d.afsin.dynAddr == 9) && idle (.entdaa 9) (at' 8 (fun d => { d with afsin.dynAddr := 8 })) &&
    gives (.setdasa 9) (at' 8 (fun d => { d with cfg.i3cStatic := 8 })) (fun d => d.afsin.dynAddr == 9) && idle (.setdasa 9) base) = true := by decide +kernel
/-- Base specification 1.3 and the Afsin message type; unconfigured, no type. -/
theorem test_mctp : (gives (.setEndpointId 9) base (fun d => d.afsin.eid == 9 && d.afsin.response == [0, 0, 9, 0]) &&
    gives .getEndpointId (at' 8 (fun d => { d with afsin.eid := 9 })) (fun d => d.afsin.response == [0, 9, 0, 0]) &&
    gives .getMctpVersionSupport base (fun d => d.afsin.response == [0, 1, 0xF1, 0xF3, 0xFF, 0]) &&
    gives .getMessageTypeSupport base (fun d => d.afsin.response == [0, 1, 0x7F]) &&
    gives .getMessageTypeSupport (at' 8 (fun d => { d with start.mode := .unconfigured })) (fun d => d.afsin.response == [0, 0]) &&
    gives .getVendorDefinedMessageSupport (at' 8 (fun d => { d with cfg.vendorIana := 0x01020304 })) (fun d =>
      d.afsin.response == [0, 0xFF, 1, 1, 2, 3, 4, 1, 0])) = true := by decide +kernel
theorem test_getId : exec (.getId 5) base = .next (base.onDev (fun d => d.respond 0x40 5 0
    (Crypto.chipBytes ++ leBytes 4 0x4F44C192 ++ Crypto.beBytes 97 Crypto.devicePublic.toNat ++ leBytes 8 d.ledger.uid.toNat))) := rfl
/-- A key that is no point of the curve opens nothing. -/
theorem test_sessionOpen : gives (.sessionOpen 5 0 0 0) (ses id) (fun d => d.afsin.session == some 1 && d.zreg Reg.ZN_AFS_CNT_BADAUTH == 1) = true := by
  decide +kernel
theorem test_sessionTimeout : (gives .sessionTimeout (at' (2 ^ 30) (fun d => { d with afsin.session := some 1 })) (fun d => d.afsin.session == none) &&
    idle .sessionTimeout (at' (2 ^ 30 - 1) (fun d => { d with afsin.session := some 1 })) && idle .sessionTimeout (at' (2 ^ 30) id)) = true := by
  decide +kernel
theorem test_noticeReoffer : (gives .noticeReoffer (at' 65536 (fun d => { d with afsin.lostPending := 1 })) (fun d => d.afsin.ibi && d.afsin.offeredAt == 65536) &&
    idle .noticeReoffer (at' 65535 (fun d => { d with afsin.lostPending := 1 })) && idle .noticeReoffer (at' 65536 id)) = true := by decide +kernel

/-- SESSION_CLOSE under its tag; the tags of these tests were reckoned over the message's bytes outside. -/
def qClose : Instr := .sessionClose (rq 164146247663362011220441479698053418991)
theorem test_sessionClose : (okReq qClose (ses id) && gives qClose (ses id) (fun d => d.afsin.session == none && d.afsin.lastAuth == 8)) = true := by decide +kernel
/-- NOTICE_ACK up to 7. -/
def qAck : Instr := .noticeAck (rq 179955372356838330370301225624274681430) 7
theorem test_noticeAck : (let s := ses (fun d => { d with afsin.lostPending := 2, afsin.lostSeq := 8, afsin.ibi := true })
    okReq qAck s && gives qAck s (fun d => d.afsin.lastSeq == some 5 && d.afsin.ibi && d.afsin.lostPending == 2) &&
    gives qAck (ses (fun d => { d with afsin.lostPending := 2, afsin.lostSeq := 7, afsin.ibi := true })) (fun d => !d.afsin.ibi)) = true := by decide +kernel
/-- REG_READ of offset 0x10. -/
def qRead : Instr := .regRead (rq 260290235045040566750193782241432732592) 0 0x10
theorem test_regRead : (okReq qRead (ses id) && gives qRead (ses id) (fun d => status d == some 0 && d.regs.readData == (d.readReg .mgmt 0x10).regs.readData)) =
    true := by decide +kernel
/-- REG_WRITE of 9 to ZN_CTX_SEL. -/
def qWrite : Instr := .regWrite (rq 7416709912224108677979777235715831528) 0 (BitVec.ofNat 32 Reg.ZN_CTX_SEL) 9
theorem test_regWrite : (okReq qWrite (ses id) && gives qWrite (ses id) (fun d => status d == some 0 && d.afsin.lastSeq == some 5)) = true := by decide +kernel
/-- UNIT_SET of core 70 to state 4. -/
def qSet : Instr := .unitSet (rq 339661115958260324180168288288373638384) 70 4 2
theorem test_unitSet : (okReq qSet (ses id) && gives qSet (ses id) (fun d => some (d.healthOf 70) == Health.ofCode 4 && (d.uht 70).reason == 2 &&
    d.zreg Reg.ZN_UHT_CNT_SET == 1)) = true := by decide +kernel
/-- TEST_REQ of no units. -/
def qTest : Instr := .testReq (rq 287585794483706942637568502493316276574) 0 0
theorem test_testReq : (okReq qTest (ses id) && gives qTest (ses id) (fun d => d.afsin.lastSeq == some 5)) = true := by decide +kernel
/-- PAT_FRAGMENT at 0 of three bytes, and their commit. -/
def qFrag : Instr := .patFragment (rq 231106626416716187657428582759032116145) 0 [1, 2, 3]
/-- PAT_COMMIT of three bytes. -/
def qCommit : Instr := .patCommit (rq 321569027775856826093977530322205362283) 3
theorem test_patFragment : (okReq qFrag (ses id) && gives qFrag (ses id) (fun d => d.afsin.patStage == [1, 2, 3] && status d == some 0) &&
    gives qFrag (ses (fun d => { d with afsin.patStage := [9] })) (fun d => d.afsin.patStage == [] && status d == some 4)) = true := by decide +kernel
theorem test_patCommit : (let s := fun f => ses (fun d => f { d with afsin.patStage := [1, 2, 3] })
    okReq qCommit (s id) && gives qCommit (s id) (fun d => d.afsin.patStage == [] && d.pat.stage == [1, 2, 3]) &&
    gives qCommit (ses id) (fun d => status d == some 4 && d.pat.stage == [])) = true := by decide +kernel
/-- SHUTDOWN. -/
def qDown : Instr := .afsinShutdown (rq 300898608909883416074307951468339665466)
theorem test_afsinShutdown : (okReq qDown (ses id) && gives qDown (ses id) (fun d => d.zf Reg.ZN_SD_STAT 7 4 == 1 && d.sd.quiescePend)) = true := by decide +kernel
/-- REC_CLEAR of Bank 2. -/
def qRec : Instr := .recClear (rq 115914413432420511732600200796219866393) 2
theorem test_recClear : (okReq qRec (ses id) && gives qRec (ses id) (fun d => (d.bank 2).ring.clearPend == some false && (d.bank 3).ring.clearPend == none)) =
    true := by decide +kernel
/-- EXPORT. -/
def qExp : Instr := .afsinExport (rq 143190629973234193721495149715304189734)
theorem test_afsinExport : (let s := ses (fun d => { d with ledger.state := .bound })
    okReq qExp s && gives qExp s (fun d => d.alarms.exportRunning == some false && d.afsin.response == [])) = true := by decide +kernel
/-- IMPORT_FRAGMENT and IMPORT_COMMIT of three bytes. -/
def qImp : Instr := .importFragment (rq 44125336762076820417225778035515428506) 0 [1, 2, 3]
/-- IMPORT_COMMIT of three bytes. -/
def qImpCommit : Instr := .importCommit (rq 66331479840470563358204535782364350659) 3
theorem test_import : (let s := ses (fun d => { d with afsin.impStage := [1, 2, 3], ledger.state := .bound })
    okReq qImp (ses id) && gives qImp (ses id) (fun d => d.afsin.impStage == [1, 2, 3]) &&
    okReq qImpCommit s && gives qImpCommit s (fun d => d.afsin.impStage == [] && d.zf Reg.ZN_EXP_STAT 5 3 == 5 && d.alarms.importPend == none)) = true := by
  decide +kernel
/-- FORMAT. -/
def qFormat : Instr := .format (rq 223084727368674271700990075733517988402)
theorem test_format : (let s := ses (fun d => { d with ledger.state := .foreign })
    okReq qFormat s && gives qFormat s (fun d => d.ledger.state == .bound && d.ledger.keyHeld && d.jnl.sectors == [])) = true := by decide +kernel
theorem test_format_bound : gives qFormat (ses (fun d => { d with ledger.state := .bound })) (fun d => !d.ledger.keyHeld && status d == some 0x14) = true := by
  decide +kernel
/-- ALARM_CLEAR. -/
def qAlm : Instr := .alarmClear (rq 82168382869397361187569392551141590719)
theorem test_alarmClear : (let s := ses (fun d => { d with aon.alarmLevel := 2, aon.raised := 5 })
    okReq qAlm s && gives qAlm s (fun d => d.aon.alarmLevel == 0 && d.aon.raised == 0 && status d == some 0)) = true := by decide +kernel

/-! ## Storage protection and scrub -/

/-- Byte 0x00 is stored with parity bit 1 and byte 0x01 with 0; a single bit that differs is a hit and two are not (R457). -/
theorem test_parity : nineBits 0 = 0x100 ∧ nineBits 1 = 1 ∧ readHits 0x100 = false ∧ readHits 0x101 = true ∧ readHits 0x103 = false := by decide
/-- α^8 = 0x1D; g(x) is monic of degree 8 and α^0 to α^7 are its zeros; data symbol 127 alone gives x^8 mod g(x) (R458, R461). -/
theorem test_code : alphaPow 8 = 0x1D ∧ generator.length = 9 ∧ generator.getD 8 0 = 1 ∧ (List.range 8).all (fun i => polyEval generator (alphaPow i) == 0) ∧
    (List.range 8).map (genCoeff 127) = (generator.take 8).reverse := by decide +kernel
/-- Differences in interleave 0: `e` symbols of two bits each, then `a` of one bit, the parity hits. -/
def diffs (e a : Nat) : Tbl (BitVec 9) := (List.range e).map (fun j => (32 * j, 3)) ++ (List.range a).map (fun j => (32 * (e + j), 1))
/-- Two errors and four erasures are corrected, two and five are not; no two errors are a third, nor eight erasures a ninth. -/
theorem test_decodePage : decodePage (diffs 2 4) = some ([], 6) ∧ decodePage (diffs 0 8) = some ([], 8) ∧ decodePage (diffs 2 5) = none ∧
    decodePage (diffs 0 9) = none := by decide +kernel
/-- A data byte written anew carries its difference into the check symbols, and the decode still corrects it. -/
theorem test_writeCell : (writeCell (diffs 1 0) 0).map Prod.fst = (List.range 8).map (fun k => 4096 + 32 * k) ∧ writeCell (diffs 1 0) 32 = diffs 1 0 ∧
    writeHits (diffs 1 1) 0 = false ∧ writeHits (diffs 1 1) 32 = true ∧ writeHits [(4096, 1)] 0 = true := by decide +kernel
/-- The part in frame 8 with page 0 of a store changed. -/
def paged (st : PageStore) (e a : Nat) (f : Dev → Dev) : State := at' 8 (fun d => f { d with prot.pages := [(pageKey st 0, ⟨diffs e a, []⟩)] })
theorem test_pageDecodeDone : (gives (.pageDecodeDone ⟨.ring b2, 0⟩) (paged (.ring b2) 2 4 id) (fun d => d.zreg Reg.ZN_PROT_CNT_CORR == 1 &&
      d.zreg Reg.ZN_PROT_CNT_SYM == 6 && d.zreg Reg.ZN_PROT_CNT_PAR == 4 && bitsOf ((d.bank 2).reg Reg.BK_PROT_PAR) 15 0 == 1 && d.prot.pages == []) &&
    gives (.pageDecodeDone ⟨.healthTable, 0⟩) (paged .healthTable 5 1 id) (fun d => d.hang.chipCause == some 3) &&
    idle (.pageDecodeDone ⟨.healthTable, 0⟩) (paged .healthTable 5 0 id) &&
    idle (.pageDecodeDone ⟨.ring b2, 0⟩) (paged (.ring b2) 5 1 (fun d => d.modBank 2 (fun k => { k with isolated := true })))) = true := by decide +kernel
/-- The entry on the lost page of staging is lost; a package that stands nowhere else cannot be reloaded. -/
theorem test_page_lost : (gives (.pageDecodeDone ⟨.journal, 0⟩) (paged .journal 5 1 (fun d => { d with jnl.staging := [⟨0, 1, .start 0 1 0 0 0⟩] })) (fun d =>
      d.jnl.staging == [] && d.jnl.lostOthers == 1 && d.zreg Reg.ZN_JNL_CNT_LOST == 1) &&
    !(at' 8 (fun d => { d with pat.installed := [1], pat.version := 4 })).dev.canReload) = true := by decide +kernel
theorem test_patrol : (let s := fun n => at' n (fun d => d.setZ Reg.ZN_PROT_CTL 3)
    gives .patrol (s 8) (fun d => d.prot.patrolBusy && d.prot.patrolFrom == 8 && d.prot.patrolAt == 8) && idle .patrol (s 7) && idle .patrol base &&
    okZ .hostP1 Reg.ZN_PROT_CMD 1 base && gives (.patrolNow .hostP1) base (fun d => d.prot.patrolBusy) &&
    idle (.patrolNow .hostP1) (at' 8 (fun d => { d with prot.patrolBusy := true }))) = true := by decide +kernel
/-- A CE of a slice, an unconsumed UE of it, and a consumed UE of a location that names no unit. -/
theorem test_hostReport : (gives (.hostMemoryReport false false true (.tier1 b2 p5)) (at' 8 id) (fun d =>
      d.zreg Reg.ZN_HMR_CNT_CE == 1 && d.zreg Reg.ZN_SCR_CE == 1 && d.zreg Reg.ZN_HMR_LAST == w32 (sliceUnit (coreUnit 2 5) + 0x80000)) &&
    gives (.hostMemoryReport true false false (.tier1 b2 p5)) (at' 8 id) (fun d => d.healthOf (sliceUnit (coreUnit 2 5)) == .eclipse && d.zreg Reg.ZN_HMR_CNT_UE == 1) &&
    gives (.hostMemoryReport true true false (.lane 0xFFFF)) (at' 8 id) (fun d => d.zreg Reg.ZN_HMR_CNT_UNMAPPED == 1 && d.hang.chipCause == some 2)) = true := by
  decide +kernel
theorem test_hostReport_stop : (gives (.hostMemoryReport true false false (.tier1 b2 p5)) (at' 8 (fun d => { d with clock.stopped := true })) (fun d =>
      d.clock.stopHealth.length == 2 && d.healthOf (sliceUnit (coreUnit 2 5)) == .dawn) &&
    idle (.hostMemoryReport true true true (.lane 0)) (at' 8 (fun d => { d with hang.chipReset := true }))) = true := by decide +kernel
theorem test_hmrDropCount : (gives (.hmrDropCount 7) (at' 8 (fun d => d.setZ Reg.ZN_HMR_CNT_HOSTDROP 2)) (fun d => d.zreg Reg.ZN_HMR_CNT_HOSTDROP == 9) &&
    idle (.hmrDropCount 7) (at' 8 (fun d => { d with start.mode := .unconfigured }))) = true := by decide +kernel
/-- The registers of a scrub: target, base and length. -/
def scr (t b l : Word) (f : Dev → Dev) : State :=
  at' 8 (fun d => f (((({ d with cfg.t2Base := 0, cfg.t2Stride := 2 ^ 40 }).setZ Reg.ZN_SCR_CTL t).setZ Reg.ZN_SCR_BASE_LO b).setZ Reg.ZN_SCR_LEN l))
/-- A scrub at its end, of all of region 0. -/
def scrubbed (u : List Nat) : Dev → Dev := fun d => { d with prot.scrub := some ⟨0, 0, 12288, false, 0, true, 12288, 7, u⟩ }
theorem test_scrubStart : (okZ .hostP1 Reg.ZN_SCR_CMD 1 (scr 0 4096 5 id) &&
    gives (.scrubStart .hostP1) (scr 0 4096 5 id) (fun d => d.zf Reg.ZN_SCR_STAT 5 2 == 1 && d.prot.scrub == some ⟨0, 4096, 5, false, 15, false, 0, 0, []⟩) &&
    gives (.scrubStart .hostP1) (scr 0 4096 5 (scrubbed [])) (fun d => d.zf Reg.ZN_SCR_STAT 5 2 == 4) &&
    gives (.scrubStart .hostP1) (scr 0 4096 0 id) (fun d => d.zf Reg.ZN_SCR_STAT 5 2 == 3) &&
    gives (.scrubStart .hostP1) (scr 0 4097 5 id) (fun d => d.zf Reg.ZN_SCR_STAT 5 2 == 6) &&
    gives (.scrubStart .hostP1) (scr 1 50687 1024 id) (fun d => d.zf Reg.ZN_SCR_STAT 5 2 == 1) &&
    gives (.scrubStart .hostP1) (scr 1 50688 1024 id) (fun d => d.zf Reg.ZN_SCR_STAT 5 2 == 6)) = true := by decide +kernel
theorem test_scrub_isolated : (gives (.scrubStart .hostP1) (scr 1 528 1 (fun d => d.modBank 2 (fun k => { k with isolated := true }))) (fun d =>
      d.zf Reg.ZN_SCR_STAT 5 2 == 7) && okZ .hostP1 Reg.ZN_SCR_CMD 2 (scr 0 0 1 (scrubbed [])) &&
    gives (.scrubCancel .hostP1) (scr 0 0 1 (scrubbed [])) (fun d => d.zf Reg.ZN_SCR_STAT 5 2 == 8 && d.prot.scrub == none) &&
    idle (.scrubCancel .hostP1) (scr 0 0 1 id)) = true := by decide +kernel
/-- A region read whole in Dawn is Clear, unless a UE named it. -/
theorem test_scrubDone : (gives .scrubDone (scr 0 0 1 (scrubbed [])) (fun d => d.zf Reg.ZN_SCR_STAT 5 2 == 2 && d.prot.scrub == none &&
      d.healthOf (regionUnit 0 0) == .clear && d.healthOf (regionUnit 0 1) == .dawn) &&
    gives .scrubDone (scr 0 0 1 (scrubbed [regionUnit 0 0])) (fun d => d.healthOf (regionUnit 0 0) == .dawn) &&
    idle .scrubDone (scr 0 0 1 id) && idle .scrubDone (scr 0 0 1 (fun d => { (scrubbed [] d) with clock.stopped := true }))) = true := by decide +kernel

/-! ## Start, reset and the pins -/

/-- The start at step `n`. -/
def starting (n : Nat) (f : Dev → Dev) : State :=
  { State.reset with dev := f ({ State.reset.dev with
      start := { State.reset.dev.start with mode := .starting, step := n } }) }
/-- A module of 2^30 bits. -/
def chip30 : ModuleId := ⟨0, 30, 77, none⟩
theorem test_selftest : (gives (.startSelftestDone [⟨.zenith, 3, none, true, 0⟩] (some chip30)) (starting 1 id) (fun d =>
      d.start.mode == .unconfigured && d.start.step == 10 && d.start.ready && d.zreg Reg.ZN_CFG_STAT == 0xA) &&
    gives (.startSelftestDone [] none) (starting 1 id) (fun d => d.ledger.state == .absent && d.start.mode == .unconfigured && d.zreg Reg.ZN_CFG_STAT == 2) &&
    gives (.startSelftestDone [] (some { chip30 with density := 28 })) (starting 1 id) (fun d => d.ledger.state == .absent) &&
    idle (.startSelftestDone [] none) (starting 2 id)) = true := by decide +kernel
/-- A module without a header is formatted. -/
theorem test_selftest_bind : gives (.startSelftestDone [] (some chip30)) (starting 1 id) (fun d => d.ledger.state == .bound && d.start.step == 3 &&
    d.start.mode == .starting && d.jnl.sectors == [] && d.zf Reg.ZN_PROT_STAT 1 1 == 1) = true := by decide +kernel
/-- Fewer than 4 bytes are no image: NOIMAGE. -/
theorem test_imageRead : ((starting 3 id).dev.checkImage [1, 2, 3]).map (fun x => x.result) = some 2 ∧
    gives (.imageReadDone [1, 2, 3]) (starting 3 id) (fun d => d.start.mode == .unconfigured && d.start.ready && d.zreg Reg.ZN_CFG_STAT == 2) = true ∧
    idle (.imageReadDone []) (starting 4 id) = true := by decide +kernel
theorem test_journalReplay : (starting 5 id).dev.off = false ∧ (starting 5 id).dev.start.mode = .starting ∧ (starting 5 id).dev.start.step = 5 ∧
    idle (.journalReplayDone none false) (starting 3 id) = true := by decide +kernel
/-- What replay keeps where the module is not bound, and where a bound one has no entry. -/
theorem test_replayJournal : (((starting 5 id).dev.replayJournal none false).1.jnl.volatileRun &&
    !((starting 5 (fun d => { d with ledger.state := .bound, ledger.keyHeld := true, ledger.density := 30 })).dev.replayJournal none false).2.length.blt 0) = true := by
  decide +kernel
/-- At step 7 the Banks are released, by the host or by the limit. -/
theorem test_hostCoresUp : (starting 7 id).dev.off = false ∧ (starting 7 id).dev.start.mode = .starting ∧ (starting 7 id).dev.start.step = 7 ∧
    gives .hostCoresUp (starting 5 id) (fun d => d.pins.hostCoresUp && d.start.step == 5 && !d.start.banksReleased) = true := by decide +kernel
/-- Step 7 at frame `n`, entered at 3, with HOSTWAIT 5. -/
def waiting7 (n : Nat) : State := starting 7 (fun d => { d with clock.frame := n, start.hostWaitFrom := 3, cfg.hostWait := 5 })
theorem test_hostwait : (waiting7 8).dev.start.step = 7 ∧ (waiting7 8).dev.start.hostWaitFrom + (waiting7 8).dev.cfg.hostWait ≤ (waiting7 8).dev.clock.frame ∧
    idle .hostwaitExpire (waiting7 7) = true := by decide +kernel
theorem test_release : exec .hostCoresUp (starting 7 id) =
    .next ((starting 7 id).onDev (fun d => ({ d with pins.hostCoresUp := true } : Dev).releaseBanks)) := rfl
theorem test_startupTestsDone : (let s := fun f => starting 9 (fun d => f { d with clock.frame := 40 })
    gives .startupTestsDone (s id) (fun d => d.start.mode == .configured && d.start.ready && d.start.active && d.pins.swChecker &&
      d.zreg Reg.ZN_START_FRAMES == 40) && idle .startupTestsDone base) = true := by decide +kernel

theorem test_hostCoreReset : (let s := at' 8 (fun d => d.modWisp 2 5 (fun w => { w with pend := [dot] }))
    gives (.hostCoreReset b2 p5) s (fun d => (d.wisp 2 5).pend == [] && (d.wisp 2 5).reg Reg.WS_SMP_DROPPED == 1) &&
    idle (.hostCoreReset b2 p5) (at' 8 (fun d => d.modBank 2 (fun k => { k with isolated := true })))) = true := by decide +kernel
theorem test_supplyLoss : (let s := fun p => at' 8 (fun d => d.modWisp 2 5 (fun w => { w with parked := p, counters := [(4, 9)] }))
    gives (.coreSupplyLoss b2 p5) (s false) (fun d => (d.wisp 2 5).counters == [] && (d.wisp 2 5).supplyLost) &&
    gives (.coreSupplyLoss b2 p5) (s true) (fun d => (d.wisp 2 5).counters == [(4, 9)] && !(d.wisp 2 5).supplyLost)) = true := by decide +kernel
/-- A park copies the record, and the release restores it; without a Bank it is lost. -/
theorem test_park : (let s := fun f => at' 8 (fun d => f (d.modWisp 2 5 (fun w => { w with counters := [(4, 9)] })))
    gives (.parkRequest b2 p5) (s id) (fun d => (d.wisp 2 5).parked && (Tbl.get none (d.bank 2).parkCopies 5).map (fun c => c.counters) == some [(4, 9)]) &&
    gives (.parkRequest b2 p5) (s (fun d => d.modBank 2 (fun k => { k with isolated := true }))) (fun d => (d.wisp 2 5).parked && (d.wisp 2 5).counters == []) &&
    idle (.parkRequest b2 p5) (s (fun d => d.modWisp 2 5 (fun w => { w with parkReq := true }))) &&
    gives (.parkRelease b2 p5) (s (fun d => d.modBank 2 (fun k => { k with parkCopies := [(5, some ⟨[], [], [(4, 7)]⟩)] }))) (fun d =>
      (d.wisp 2 5).counters == [(4, 7)] && (d.bank 2).parkCopies == [] && !(d.wisp 2 5).parked)) = true := by decide +kernel
/-- A test on the core ends VOID, and the acknowledgement waits. -/
theorem test_reset_pins : (let held := at' 8 (fun d => { d with pins.resetHeld := true, aon.floor := 3, ledger.header := none })
    gives .odtResetRelease held (fun d => d.clock.frame == 0 && d.start.mode == .starting && d.start.step == 1 && d.aon.floor == 3 && !d.off) &&
    idle .odtResetRelease base && idle .odtResetAssert held &&
    gives .odtResetAssert (at' 8 id) (fun d => d.off && d.clamped && d.clock.frame == 0 && !d.pins.swChecker) &&
    gives .odtPwrOkFall (at' 8 id) (fun d => d.off && !d.pins.pwrOk) && idle .odtPwrOkFall (at' 8 (fun d => { d with pins.pwrOk := false }))) = true := by
  decide +kernel
theorem test_aonPor : gives .aonPor (at' 8 (fun d => { d with aon.floor := 3, aon.alarmLevel := 2, aon.debugFails := 1 })) (fun d =>
    d.aon.floor == 3 && d.aon.alarmLevel == 0 && d.aon.debugFails == 0 && d.aon.powered && d.off && d.pins.resetHeld) = true := by decide +kernel

/-! ## The register interface -/

/-- A direct write of the Zenith window. -/
def wr (p : Path) (off : Nat) (v : Word) : Instr := .registerWrite p (BitVec.ofNat 16 off) v 15
/-- An RW register takes its own bits, a masked one the bits whose mask is set. -/
theorem test_registerWrite : (okZ .hostP1 Reg.ZN_SCR_RATE 0x1FF (at' 8 id) && gives (wr .hostP1 Reg.ZN_SCR_RATE 0x1FF) (at' 8 id) (fun d => d.zreg Reg.ZN_SCR_RATE == 0xFF) &&
    gives (wr .hostP1 Reg.ZN_PROT_CTL 0x3001F) (at' 8 (fun d => d.setZ Reg.ZN_PROT_CTL 0x10)) (fun d => d.zreg Reg.ZN_PROT_CTL == 0x13)) = true := by
  decide +kernel
/-- Partial byte enables, a hole, a path that may not, two commands at once, a value out of range. -/
theorem test_registerWrite_refused : (gives (.registerWrite .hostP1 (BitVec.ofNat 16 Reg.ZN_SCR_RATE) 1 3) (at' 8 id) (fun d => d.zreg Reg.ZN_REG_CNT_HOLE == 1) &&
    gives (wr .hostP1 0xFFFC 1) (at' 8 id) (fun d => d.zreg Reg.ZN_REG_CNT_HOLE == 1) &&
    gives (wr (.hostP2 3) Reg.ZN_SCR_RATE 1) (at' 8 id) (fun d => d.zreg Reg.ZN_REG_CNT_DENIED == 1 && d.zreg Reg.ZN_SCR_RATE == 8) &&
    gives (wr .hostP1 Reg.ZN_CTX_CMD 3) (at' 8 id) (fun d => d.zreg Reg.ZN_CFG_CNT_REJECT == 1) &&
    gives (wr .hostP1 Reg.ZN_PAT_SRC_LO 1) (at' 8 id) (fun d => d.zreg Reg.ZN_CFG_CNT_REJECT == 1)) = true := by decide +kernel
theorem test_registerWrite_frozen : (gives (wr .hostP1 Reg.ZN_SCR_RATE 1) (at' 8 (fun d => { d with aon.alarmLevel := 2 })) (fun d =>
      d.zreg Reg.ZN_ALM_CNT_FROZEN == 1 && d.zreg Reg.ZN_SCR_RATE == 8) &&
    idle (wr .hostP1 Reg.ZN_SCR_RATE 1) (at' 8 (fun d => { d with pins.pwrOk := false }))) = true := by decide +kernel
/-- Two of the commands that a write gives. -/
theorem test_registerWrite_command : (gives (wr .hostP1 Reg.ZN_PROT_CMD 1) base (fun d => d.prot.patrolBusy) &&
    gives (wr .hostP1 Reg.ZN_SCR_CMD 2) (scr 0 0 1 (scrubbed [])) (fun d => d.zf Reg.ZN_SCR_STAT 5 2 == 8)) = true := by decide +kernel
/-- The host's indirect address and increment, the rest changed by `f`. -/
def ind (a : Word) (inc : Nat) (f : Dev → Dev) : State :=
  at' 8 (fun d => f (d.modPath .hostP1 (fun c => { c with indAddr := a, indInc := inc })))
/-- The address of a Wisp register of Bank 2, position 5. -/
def wsAddr (off : Nat) : Word := w32 (2 * 2 ^ 24 + 5 * 2 ^ 15 + off)
theorem test_indDataWrite : (gives (.indDataWrite .hostP1 0xFF) (ind (wsAddr Reg.WS_CTR_SEL) 1 id) (fun d => (d.path .hostP1).indResult == 0 &&
      (d.wisp 2 5).reg Reg.WS_CTR_SEL != 0 && (d.path .hostP1).indAddr == wsAddr (Reg.WS_CTR_SEL + 4)) &&
    gives (.indDataWrite .hostP1 1) (ind 0xC0000000 0 id) (fun d => (d.path .hostP1).indResult == 1) &&
    gives (.indDataWrite .hostP1 1) (ind (wsAddr Reg.WS_CTR_SEL) 2 (fun d => d.modBank 2 (fun k => { k with isolated := true }))) (fun d =>
      (d.path .hostP1).indResult == 2 && bitsOf (d.path .hostP1).indAddr 23 15 == 6)) = true := by decide +kernel
theorem test_indDataRead : (gives (.indDataRead .hostP1) (ind (wsAddr Reg.WS_CTR_SEL) 0 (fun d => d.modWisp 2 5 (fun w => w.setReg Reg.WS_CTR_SEL 9))) (fun d =>
      (d.path .hostP1).indResult == 0 && d.regs.readData == 9) &&
    gives (.indDataRead .hostP1) (ind (0xFF000000 + wsAddr 0 - 0x2000000) 0 id) (fun d => (d.path .hostP1).indResult == 6) &&
    gives (.indDataRead .hostP1) (ind 0xC0000000 0 id) (fun d => (d.path .hostP1).indResult == 1 && d.regs.readData == 0)) = true := by decide +kernel
/-- BADSEL, ISOLATED and DONE; source 1, Bank 2, channel 0. -/
theorem test_accumulatorRead : (let s := fun (x : Word) f => at' 8 (fun d => f (d.setZ Reg.ZN_MB_SEL x))
    okZ .hostP1 Reg.ZN_MB_CMD 1 (s 9 id) && gives (.accumulatorRead .hostP1) (s 2 id) (fun d => d.zf Reg.ZN_MB_STAT 2 1 == 2) &&
    gives (.accumulatorRead .hostP1) (s 9 (fun d => d.modBank 2 (fun k => { k with isolated := true }))) (fun d => d.zf Reg.ZN_MB_STAT 2 1 == 3) &&
    gives (.accumulatorRead .hostP1) (s 9 (fun d => d.modBank 2 (fun k => { k with anv.ctxs := [(0, { ChanCtx.init with abs := 77 })] }))) (fun d =>
      d.zf Reg.ZN_MB_STAT 2 1 == 1 && (d.path .hostP1).wide.data.head? == some 77)) = true := by decide +kernel
/-- Reading the last word clears VALID. -/
theorem test_mailboxLastRead : (let s := at' 8 (fun d => d.modPath .hostP1 (fun c => { c with time := ⟨true, [3, 4]⟩ }))
    gives (.mailboxLastRead .hostP1 (BitVec.ofNat 16 Reg.ZN_TIME_MB_HI)) s (fun d => d.regs.readData == 4 && !(d.path .hostP1).time.valid) &&
    gives (.mailboxLastRead .hostP1 (BitVec.ofNat 16 Reg.ZN_TIME_MB_LO)) s (fun d => d.regs.readData == 3 && (d.path .hostP1).time.valid)) = true := by
  decide +kernel
/-- The address of bit k of a register. -/
def bitAt (off k : Nat) : BitVec 21 := BitVec.ofNat 21 (0x100000 + 32 * off + 4 * k)
/-- A masked bit, a plain bit, a reserved one. -/
theorem test_bitAliasWrite : (gives (.bitAliasWrite b2 (bitAt Reg.BK_REC_IDX 3) 1) (at' 8 (fun d => d.modBank 2 (fun k => { k with ring.idx := 2 }))) (fun d =>
      (d.bank 2).ring.idx == 10) &&
    gives (.bitAliasWrite b2 (bitAt Reg.BK_REC_IDX 11) 1) (at' 8 id) (fun d => d.zreg Reg.ZN_REG_CNT_HOLE == 1) &&
    idle (.bitAliasWrite b2 (bitAt Reg.BK_CC_RMP_TAKE 0) 0) (at' 8 id) &&
    idle (.bitAliasWrite b2 (bitAt Reg.BK_REC_IDX 3) 1) (at' 8 (fun d => d.modBank 2 (fun k => { k with isolated := true })))) = true := by decide +kernel

/-! ## Tags, words and bins -/

/-- Tags of handle 0x1234: the product of the index alone, and an index that wraps. -/
theorem test_blockTag : blockTag 0x1234 0 = 0x1234 ∧ blockTag 0x1234 1 = 0x8C03 ∧ blockTag 0x51234 0x10001 = 0x8C03 := by decide
/-- VCNT is 1 + n units of 16 bytes; 0xFF is malformed in a partial word, and demanded in a whole one. -/
theorem test_malformed : wordMalformed 0x2FF = true ∧ wordMalformed 0x0FE = true ∧ wordMalformed 0x0FF = false ∧ wordMalformed 0x2FE = false ∧
    wordValid 0x200 = 16 := by decide
theorem test_histBin : histBin 0 = 0 ∧ histBin 1 = 1 ∧ histBin 3 = 2 ∧ histBin (2 ^ 30 - 1) = 30 ∧ histBin (2 ^ 40) = 31 := by decide +kernel

/-! ## Clauses at their edges -/

/-- The header gives back frame and seed; an action of this tick sets bit ACTION - 1 of word 4, one of the next tick bit ACTION + 15. -/
theorem test_header : (let d := (at' 77 (fun d => { d with clock.now := [⟨3, 0, 77⟩], clock.launch := [(0, ⟨1, 0, 78⟩)] })).dev
    d.header.length == 8 && readHeader (BitVec.ofNat 256 (leWordNat d.header)) == some (77, d.seed.getD 0) &&
    (d.header.getD 4 0).getLsbD 2 && (d.header.getD 4 0).getLsbD 16 && !(d.header.getD 4 0).getLsbD 0) = true := by decide +kernel
/-- A supply loss gives a GAP record though no tick was missed (R49). -/
theorem test_rejoin_supply : gives (.coreClockRestart b2 p5 ⟨false, ⟨[], 0⟩⟩) (at' 10 (fun d => d.modWisp 2 5 (fun w =>
    { w with lastRx := some 9, missed := true, supplyLost := true }))) (fun d => (d.bank 2).ring.presented.map (fun x => (x.ev.code, x.ev.p2)) == [(1, 0)]) =
    true := by decide +kernel
/-- GSTOP in a stop and GRESUME outside one answer NULL. -/
theorem test_stop_null : (gives .gstop (due 1 (fun d => { d with clock.stopped := true })) (fun d => d.zf Reg.ZN_LAUNCH_STAT 3 0 == 4) &&
    gives .gresume (due 2 id) (fun d => d.zf Reg.ZN_LAUNCH_STAT 3 0 == 4)) = true := by decide +kernel

/-- A load of a block that is open in the Wisp counts its unit as skipped (R85). -/
theorem test_load_open : (let s := verify (fun w => { w with cmd := some { cmd0 with isStore := false }, opens := [⟨0x10000, 0, cmd0, none, [], false⟩] })
    s.dev.checking 2 5 && (s.dev.runs 2 5).isNone && s.dev.carries 2 5 { cmd0 with isStore := false } &&
    gives (.carriedLoad b2 p5 0x10000 unit16) s (fun d => (d.wisp 2 5).reg Reg.WS_CW_SKIP_BYTES == 1 && (d.wisp 2 5).loads == [])) = true := by
  decide +kernel
/-- A core whose spare-remap entry waits to be reloaded takes no command (R465). -/
theorem test_tap_reloading : (let s := on (fun d => (d.modBank 2 (fun k => { k with cc.remapBad := [5] })).modWisp 2 5 (fun w => { w with lastRx := some 0 }))
    s.dev.reloading 2 5 && idle (.commandTap b2 p5 cmd0) s) = true := by decide +kernel
/-- A verdict of Anvil 3 may pass an earlier failure of Bank 2's record arbiter; a second failure of Bank 2 may not pass the first. -/
theorem test_takeItem : (let x : ArbItem := .cw 2 (.cw 0x10 0 0 4 none 5 0x77 0 none) false
    let y : ArbItem := .cw 2 (.cw 0x15 0 0 4 none 5 0x77 0 none) false
    let v : ArbItem := .verdict 3 (desc0 [])
    takeItem ArbItem.isVerdict [] [x, v] == some (v, [x]) && takeItem ArbItem.isCw [] [v, x, y] == some (x, [v, y]) &&
    takeItem ArbItem.isEntry [] [x, v] == none) = true := by decide +kernel
/-- A returned Anvil runs no slot while its partner's table still serves its channels. -/
theorem test_slot_hostTable : idle (.slot b2) (on (fun d => d.modBank (partner 2) (fun k => { k with anv.hostTable := true }))) = true := by decide +kernel

/-- Bank 4 is isolated: Bank 2's mark is the boundary. -/
theorem test_endStep_isolated : (let s := owned3 true (fun d => d.modBank 4 (fun k => { k with isolated := true }))
    s.dev.banksOf 3 == [2, 4] && gives (.endStep (.cc b2) b2 false 3) s (fun d => (d.ctx 3).core.boundaryAt == some 0 && (d.ctx 3).core.marks == [])) =
    true := by decide +kernel
/-- A rise to Gate while two epochs settle waits (R189). -/
theorem test_level_stall : gives (.levelChangeApply 3) ((due3 5 1 3).onDev (fun d => d.modCtx 3 (fun x => { x with hz.epochs := [ep 4, ep 5] }))) (fun d =>
    (d.ctx 3).core.level == 3 && (d.ctx 3).hz.stall && (d.ctx 3).hz.epochs == [ep 4, ep 5] && !(d.ctx 3).hz.opened) = true := by decide +kernel
/-- A token that came in the same frame keeps the hold (R225). -/
theorem test_resume_again : (let s := gate3 [] (fun d => (d.setZ Reg.ZN_CTX_SEL 3).modCtx 3 (fun x => { x with hz.retractPend := true, hz.againAt := some 8 }))
    gives (.resume .hostP1) s (fun d => (d.ctx 3).hz.retractPend && (d.ctx 3).hz.firstNext)) = true := by decide +kernel
/-- The replay's open blocks close with its answer (R77). -/
theorem test_answer_closes : gives (.ccAnswerDone (.cc b2) b2 6) (replay6 (fun d => (seek6 d).modWisp 2 9 (fun w =>
    { w with opens := [⟨0x10000, 0, cmd0, none, [], false⟩] }))) (fun d => (d.wisp 2 9).opens == [] && d.zreg Reg.ZN_HZ_CNT_REPLAYS == 1) = true := by
  decide +kernel

/-- SET in a stop waits for its end. -/
theorem test_uhtSet_stop : gives (.uhtSet .mgmt) ((core25 [(Reg.ZN_UHT_SEL, 533), (Reg.ZN_UHT_SETVAL, 0x1703)] (aged .haze 3)).onDev (fun d =>
    { d with clock.stopped := true })) (fun d => d.clock.stopHealth == [(533, .set .overcast 0x17)] && d.healthOf 533 == .haze) = true := by decide +kernel
/-- The second save starts after the first one's copies; a third of 64 copies does not fit 130 (R247). -/
theorem test_stashPlace : stashPlace (4104 * 130) (4104 * 64) [(0, 4104 * 64)] = some (4104 * 64) ∧
    stashPlace (4104 * 130) (4104 * 64) [(0, 4104 * 64), (4104 * 64, 4104 * 64)] = none := by decide +kernel
/-- A saved core whose CRCs are those of copy A, as the save left them; L and the copies lie apart. -/
def saved : State := (underTest 0 .restoring 0 262656 (fun d => { d with cfg.t1Base := 0x80000000 }))
theorem test_restore_places : (let x : Test := ⟨0, .restoring, 0, 0, 0, 0, none, 262656, 0, [], false, false, false, 0x99, []⟩
    let L := saved.dev.sliceAddr 2 5 0
    let A := saved.dev.stashBase 0 x
    let B := saved.dev.stashBase 1 x
    stashBlocks x.tier == 64 && decide (L + 4096 * 64 ≤ 2 ^ 48) && decide (A + 4104 * 64 ≤ B) && decide (B + 4104 * 64 ≤ L)) = true := by decide +kernel
theorem test_restore_crcs (m : HostMem) (A i : Nat) (h : i < 64) :
    crc32c (m.copyBytes A 64 i) = ((List.range 64).map (fun k => crc32c (m.copyBytes A 64 k))).getD i 0 := by
  simp [List.getD, h]
/-- Copy B serves where copy A's CRC fails, and neither where both fail. -/
theorem test_copyFor (m : HostMem) (cA cB n i : Nat) :
    (crc32c (m.copyBytes cB n i) ≠ crc32c (m.copyBytes cA n i) → m.copyFor cA cB n i (crc32c (m.copyBytes cB n i)) = some true) ∧
    ∀ c, c ≠ crc32c (m.copyBytes cA n i) → c ≠ crc32c (m.copyBytes cB n i) → m.copyFor cA cB n i c = none := by
  refine ⟨fun h => ?_, fun c h1 h2 => ?_⟩
  · simp [HostMem.copyFor, h]
  · simp [HostMem.copyFor, h1, h2]
/-- A test's store of a unit opens its block; the core's other tests stand. -/
theorem test_test_store : (let s := (underTest 0 .running 0 0 id).onDev (fun d => d.modWisp 2 5 (fun w => { w with lastRx := some 0 }))
    s.dev.wispUp 2 5 && gives (.carriedStore b2 p5 (BitVec.ofNat 48 (s.dev.sliceAddr 2 5 0)) unit16) s (fun d =>
      (d.testOn 2 5).map (fun x => x.opens.map (fun o => o.written.map Prod.fst)) == some [[0]])) = true := by decide +kernel

/-- With a drop seen, the fuse entry stays soft though the supply is back (R299). -/
theorem test_fuse_drop : (let s := sd 5 (fun d => { d with sd.fuseLeft := [(2, row9)], sd.fuseDrop := true, pins.fusePwrOk := true }.modBank 2 (fun k => { k with repairs := [row9] }))
    gives (.fuseEntryDone b2 true) s (fun d => (d.bank 2).repairs == [{ row9 with badFuse := true }] && d.zreg Reg.ZN_SD_FUSES == 0x10000)) = true := by
  decide +kernel
/-- A full ring and a frozen one lose SD_RECORDS_END and count it (R367, R370). -/
theorem test_recordsEnd : (let f := fun (g : BankRing → BankRing) => (sd 2 (fun d => d.modBank 2 (fun k => { k with ring := g k.ring })))
    gives (.checkpointEnd true) (f id) (fun d => (d.bank 2).ring.count == 1 && (Tbl.find (d.bank 2).ring.ring 0).map (fun r => (r.code, r.p0)) == some (6, 0)) &&
    gives (.checkpointEnd true) (f (fun r => { r with count := 2048 })) (fun d => (d.bank 2).ring.lost == 1 && (d.bank 2).ring.ring == []) &&
    gives (.checkpointEnd true) (f (fun r => { r with frozenAt := some 0 })) (fun d => (d.bank 2).ring.lost == 1 && (d.bank 2).ring.ring == [])) = true := by
  decide +kernel
/-- SHUTDOWN of the host at Lock is LOCKED. -/
theorem test_shutdown_locked : (let s := sd 0 (fun d => { d with aon.alarmLevel := 2 })
    s.dev.locked && !s.dev.off && !s.dev.notReady .hostP1 && !s.dev.dbgHold 0 && !s.dev.sdActive &&
    gives (.shutdown .hostP1) s (fun d => d.zf Reg.ZN_SD_STAT 7 4 == 5 && d.zreg Reg.ZN_ALM_CNT_FROZEN == 1)) = true := by decide +kernel
/-- A spare that failed is not used again, though no entry names it. -/
theorem test_freeSpare_bad : freeSpare [] [(2, 5, 0x20, 0)] 2 5 0x20 0 = none ∧ freeSpare [] [(2, 0x1FF, 2, 0)] 2 0x1FF 2 0 = some 1 := by decide +kernel

/-- The reads of Bank 2 in position order: core 0 and the cluster. -/
def reads2 : List (BankId × CapRead) := [(b2, ⟨some ⟨0, by decide⟩, 0, 96, false, [1, 2]⟩), (b2, ⟨none, 96, 192, false, []⟩)]
/-- A capture with Bank 2's reads, one that has not come to its end, and one whose Bank is isolated (CAPLOST). -/
theorem test_captureEnd_reads : (let s := hung 12 { inc .capturing with banksLeft := [2] } (fun d => (d.setZ Reg.ZN_HANG_CTL 0xFE0))
    ({ inc .capturing with banksLeft := [2] } : Incident).readsOf 2 == [some 0, none] &&
    gives (.captureEnd 7 reads2) s (fun d => d.hang.incidents.map Incident.phase == [.awaitingCommand]) &&
    idle (.captureEnd 7 []) s && idle (.captureEnd 7 reads2.reverse) s &&
    gives (.captureEnd 7 []) (s.onDev (fun d => d.modBank 2 (fun k => { k with isolated := true }))) (fun d =>
      d.hang.incidents.map Incident.phase == [.awaitingCommand] && d.zreg Reg.ZN_HANG_CNT_CAPLOST == 2)) = true := by decide +kernel
/-- RECOVER in a capture is kept; a second one is BUSY; at Lock the host's is LOCKED. -/
theorem test_recover_more : (gives (.recover .hostP1) (hung 12 (inc .capturing) (fun d => d.setZ Reg.ZN_HANG_CTL 0)) (fun d =>
      d.zf Reg.ZN_RECOV_STAT 2 0 == 1 && d.hang.incidents.map Incident.asked == [true]) &&
    gives (.recover .hostP1) (hung 12 { inc .capturing with asked := true } (fun d => d.setZ Reg.ZN_HANG_CTL 0)) (fun d => d.zf Reg.ZN_RECOV_STAT 2 0 == 3) &&
    gives (.recover .hostP1) (hung 12 (inc .awaitingCommand) (fun d => { d with aon.alarmLevel := 2 })) (fun d => d.zf Reg.ZN_RECOV_STAT 2 0 == 5)) = true := by
  decide +kernel
/-- A FAIL while a chip reset is asked for is LATE. -/
theorem test_rcFail_late : gives (.rcFail 21) (hung 12 (inc .requested) (fun d => { d with hang.chipReset := true })) (fun d =>
    d.zreg Reg.ZN_HANG_CNT_LATE == 1 && d.hang.incidents == [inc .requested]) = true := by decide +kernel
/-- A reset whose pass came first is not isolated at its limit. -/
theorem test_anvRstLimit_passed : idle (.anvRstLimitExpire b2) (at' 19 (fun d => (d.setZ Reg.ZN_ANV_RST_LIMIT 16).modBank 2 (fun k =>
    { k with anv.resetAt := some 3, anv.resetPassed := true }))) = true := by decide +kernel
/-- In a stop the Bank's unit waits for its end. -/
theorem test_bankRstLimit_stop : gives (.bankRstLimitExpire b2) (at' 19 (fun d => ({ d with clock.stopped := true }.setZ Reg.ZN_BANK_RST_LIMIT 16).modBank 2 (fun k =>
    { k with resetAt := some 3 }))) (fun d => (d.bank 2).isolated && d.clock.stopHealth.contains (bankUnit 2, .eclipsed rISOLATED) &&
      d.healthOf (bankUnit 2) != .eclipse) = true := by decide +kernel

/-- A record of source 5 and context 3. -/
def rec5 (code rpt : Nat) : Rec := ⟨mkStamp 8 1, code, 0, 5, 3, rpt, 1, 2, 3, 4⟩
/-- A second CRC failure of the same source and context folds into the first (R368). -/
theorem test_fold : (let s := ring2 (fun r => { r with ring := [(3, rec5 0x15 1)], wr := 4, count := 1, presented := [pres 0x15 none .nothing] })
    !neverFolds 0x15 && (s.dev.bank 2).ring.foldAt 5 0x15 3 1 1 == some 3 &&
    gives (.bankRecordAccept b2 7) s (fun d => (d.bank 2).ring.ring == [(3, rec5 0x15 2)] && (d.bank 2).ring.count == 1 && (d.bank 2).ring.wr == 4)) = true := by
  decide +kernel
/-- A CRC failure with its details takes two records (R369). -/
theorem test_detail : (let x : Presented := ⟨5, none, ⟨0x15, 3, false, 1, 2, 3, 4, some (0x700000006, 0x900000008)⟩, .nothing⟩
    gives (.bankRecordAccept b2 7) (ring2 (fun r => { r with presented := [x] })) (fun d => (d.bank 2).ring.count == 2 &&
      (Tbl.find (d.bank 2).ring.ring 1).map (fun z => (z.code, z.p0, z.p1, z.p2, z.p3)) == some (0x16, 6, 7, 8, 9))) = true := by decide +kernel
/-- An owed REC_LOST goes first, and the record after it carries LOSS_BEFORE (R367). -/
theorem test_owed : (neverFolds 1 && gives (.bankRecordAccept b2 7) (ring2 (fun r => { r with owed := 3, owedFirst := 5, owedLast := 6, presented := [pres 1 none .nothing] })) (fun d =>
    (d.bank 2).ring.owed == 0 && (d.bank 2).ring.count == 2 && (Tbl.find (d.bank 2).ring.ring 0).map (fun z => (z.code, z.p0)) == some (3, 3) &&
    (Tbl.find (d.bank 2).ring.ring 1).map Rec.flags == some 8)) = true := by decide +kernel
/-- ARM and CLEAR of the host at Lock are LOCKED. -/
theorem test_recClr_locked : (let s := on (fun d => { d with aon.alarmLevel := 2 })
    s.dev.locked && !s.dev.notReady .hostP1 && gives (.recClrArm .hostP1 7) s (fun d => d.zf Reg.ZN_REC_CLR_STAT 2 0 == 3) &&
    gives (.recClrClear .hostP1 7) s (fun d => d.zf Reg.ZN_REC_CLR_STAT 2 0 == 3)) = true := by decide +kernel
set_option maxRecDepth 100000 in
/-- An owed JNL_LOST goes before the next entry; with no room for it, an entry that is no EVENT still fits the last 16 KiB (R378). -/
theorem test_journal_owed : (gives (.journalAppend 7) (jn (fun j => { j with waiting := [.entry (jev 0).body], lostEvents := 2 })) (fun d =>
      d.jnl.staging.map JEntry.seq == [0, 1] && d.jnl.lostEvents == 0 && d.zreg Reg.ZN_JNL_CNT_APPEND == 2) &&
    gives (.journalAppend 7) (jn (fun j => { j with waiting := [.entry (.patslot 1 2)], lostEvents := 2, staging := List.replicate 4094 (jev 0) })) (fun d =>
      d.jnl.staging.length == 4095 && d.jnl.lostEvents == 2)) = true := by decide +kernel
/-- The header of an EVENT entry: TYPE 1, LENGTH, START, SEQ (R374, R375). -/
theorem test_jentry : (jev 9).encode.take 16 = leBytes 2 1 ++ leBytes 2 48 ++ leBytes 4 1 ++ leBytes 8 9 ∧ (jev 9).encode.length = 64 := by decide +kernel
/-- With a checkpoint on its way no sector is erased and no further one called for (R418). -/
theorem test_sectorErase_coming : idle .sectorErase (jn (fun j => { j with staging := [jev 4], sector := 3, sectorFill := 65457, sectors := [(0, [jev 1])], waiting := [.entry (.ckptEnd 0 0)] })) = true := by decide +kernel

/-- A sample of a stream that holds nothing but its header: 64 bytes at the ring's start. -/
theorem test_counterSample_bytes : (let s := dbg8 (fun d => ({ d with dbg.due := [(194, 18)] }.setZ (Reg.ZN_CTR_S_SIZE + 0x20) 1).setZ (Reg.ZN_CTR_S_CTX + 0x20) 7)
    let l := s.dev.sampleBytes 1 2 8 false []
    let at_ := s.dev.dbgRegion.base + ((s.dev.streamSpan 1).1 + 2) * 4096
    l.length == 64 && match exec (.counterSample 1 b2) s with
      | .next t => t.mem.read at_ 64 == l && t.mem.read (at_ + 64) 16 == List.replicate 16 0
      | _ => false) = true := by decide +kernel
/-- The event of a loss goes before the next wait that finds room for both; with room for one alone it is lost too (R394). -/
theorem test_trace_loss : (let s := fun n => traced (fun d => d.modBank 2 (fun k => { k with dbg.staged := List.replicate n [], dbg.traceLost := 3, dbg.traceFirst := 9 }))
    (s 0).dev.tracing && (s 0).dev.checking 2 5 && decide (2 ≤ (s 0).dev.traceRoom 2) &&
    gives (.syncWaitEnd b2 p5 10 0x20 7) (s 0) (fun d => (d.bank 2).dbg.staged.length == 2 && (d.bank 2).dbg.traceLost == 0) &&
    (s 254).dev.traceRoom 2 == 1 && gives (.syncWaitEnd b2 p5 10 0x20 7) (s 254) (fun d => (d.bank 2).dbg.staged.length == 254 && (d.bank 2).dbg.traceLost == 4)) =
    true := by decide +kernel
/-- A wait of another context than the one chosen, and one at a fenced core, are not traced. -/
theorem test_trace_not : (idle (.syncWaitEnd b2 p5 10 0x20 7) (traced (fun d => d.setZ Reg.ZN_TRC_CTL 0xF)) &&
    idle (.syncWaitEnd b2 p5 10 0x20 7) (traced (fun d => d.modUht (coreUnit 2 5) (fun e => { e with state := .eclipse })))) = true := by decide +kernel
/-- A command for a logical core whose remap is queued is withheld; one for a fenced core is refused. -/
theorem test_offer_held : (let s := dbg8 (fun d => d.modBank 2 (fun k => { k with cc.remaps := [⟨5, 5, 256⟩] }))
    s.dev.cmdHeld 2 offer [] && gives (.commandOffer b2 offer) s (fun d => (d.bank 2).dbg.withheld == [⟨offer, false⟩]) &&
    (let f := dbg8 (fun d => d.modUht (coreUnit 2 5) (fun e => { e with state := .eclipse }))
     f.dev.cmdRefused 2 offer && idle (.commandOffer b2 offer) f)) = true := by decide +kernel
/-- DUMP ARM at Lock is LOCKED on the host's path too, and frozen. -/
theorem test_dumpArm_locked : gives (.dumpArm .hostP1 1) (dbg8 (fun d => { d with aon.alarmLevel := 2 })) (fun d =>
    d.zf Reg.ZN_DMP_RES 2 0 == 4 && d.zreg Reg.ZN_ALM_CNT_FROZEN == 1) = true := by decide +kernel
/-- EXPORT and SCRUB at Lock are LOCKED. -/
theorem test_lock_answers : (let s := on (fun d => { d with aon.alarmLevel := 2 })
    gives (.exportCmd .hostP1) s (fun d => d.zf Reg.ZN_EXP_STAT 2 0 == 5 && d.zreg Reg.ZN_ALM_CNT_FROZEN == 1) &&
    gives (.scrubStart .hostP1) s (fun d => d.zf Reg.ZN_SCR_STAT 5 2 == 5 && d.zreg Reg.ZN_ALM_CNT_FROZEN == 1)) = true := by decide +kernel
/-- In a stop an import waits for its end. -/
theorem test_import_stop : idle .importApply ((importing 9).onDev (fun d => { d with clock.stopped := true })) = true := by decide +kernel
/-- An alarm in a shutdown spoils its certificate; held in reset the slice alone keeps it. -/
theorem test_alarm_shutdown : gives .vglitch (on (fun d => { d with sd.phase := 2 })) (fun d => d.sd.alarmed && d.aon.alarmLevel == 2) = true := by decide +kernel
/-- Challenge and unlock do nothing while Zenith is held (R504). -/
theorem test_debug_off : (idle .debugChallenge (on (fun d => { d with pins.resetHeld := true })) &&
    idle (.debugUnlock 9) ((dbgTry 1).onDev (fun d => { d with pins.resetHeld := true }))) = true := by decide +kernel

/-- An uncorrectable page of a ring asks for a Bank's reset or isolation as its row says; a write behind a hit waits for the decode and is done then. -/
theorem test_page_waits : (let s := at' 8 (fun d => { d with prot.pages := [(pageKey (.ring b2) 0, ⟨diffs 0 1, [0]⟩)] })
    decodePage (diffs 0 1) == some ([], 1) && gives (.pageDecodeDone ⟨.ring b2, 0⟩) s (fun d =>
      d.page (pageKey (.ring b2) 0) == { cells := writeCell [] 0, waits := [] } && d.zreg Reg.ZN_PROT_CNT_CORR == 1)) = true := by decide +kernel

/-- A module's own content: copy A with the salt it was sealed under, copy B of a smaller WEAR. -/
def own (wa wb : Nat) : ModuleContent where
  copyA := some ⟨Config.chipId, 77, 1, wa, 0, 0, 0, 4, false, some 0⟩
  copyB := some ⟨Config.chipId, 77, 1, wb, 0, 0, 0, 4, false, some 0⟩
  sectors := [(1, [jev 1])]
  sector := 1
  sectorFill := 144
  erases := []
  slots := []
/-- The start with a valid salt of 0. -/
def salted : State := starting 1 (fun d => { d with aon.saltValid := true, aon.salt := 0 })
/-- The part binds to its own module by the copy of the larger WEAR and keeps the journal. -/
theorem test_bind_own : salted.dev.startAt 1 = true ∧ salted.dev.aon.saltValid = true ∧ some salted.dev.aon.salt = (some 0 : Option (BitVec 256)) ∧
    (own 9 4).copyA.map (fun h => (h.uid, h.wear, h.salt)) = some (77, 9, some salted.dev.aon.salt) ∧
    (own 9 4).copyB.map (fun h => h.wear) = some 4 ∧ (own 9 4).copyA.map (fun h => h.chip) = some Config.chipId := by
  refine ⟨by decide +kernel, by decide +kernel, by decide +kernel, by decide +kernel, by decide +kernel, rfl⟩
/-- In a stop a core reset touches no Wisp. -/
theorem test_hostCoreReset_stop : gives (.hostCoreReset b2 p5) (at' 8 (fun d => { (d.modWisp 2 5 (fun w => { w with pend := [dot] })) with clock.stopped := true })) (fun d =>
    (d.wisp 2 5).pend == [dot] && d.zreg Reg.ZN_STOP_LOST == 1) = true := by decide +kernel

/-- FREEZE by the bit window, a bit of IDX, a direct address, a hole between the two, and a frozen register. -/
theorem test_bitAlias_more : (okAt (.cc b2) (.bk 2 Reg.BK_REC_CTL) 0x10001 (at' 8 id) &&
    gives (.bitAliasWrite b2 (bitAt Reg.BK_REC_CTL 0) 1) (at' 8 id) (fun d => (d.bank 2).ring.frozenAt == some 8) &&
    okAt (.cc b2) (.bk 2 Reg.BK_REC_IDX) 0x400 (at' 8 id) &&
    gives (.bitAliasWrite b2 (bitAt Reg.BK_REC_IDX 10) 1) (at' 8 id) (fun d => (d.bank 2).ring.idx == 0x400) &&
    gives (.bitAliasWrite b2 (BitVec.ofNat 21 Reg.BK_REC_IDX) 9) (at' 8 id) (fun d => (d.bank 2).ring.idx == 9) &&
    gives (.bitAliasWrite b2 0x8000 1) (at' 8 id) (fun d => d.zreg Reg.ZN_REG_CNT_HOLE == 1) &&
    gives (.bitAliasWrite b2 0xFFFFF 1) (at' 8 id) (fun d => d.zreg Reg.ZN_REG_CNT_HOLE == 1)) = true := by decide +kernel
theorem test_bitAlias_frozen : (let s := at' 8 (fun d => { d with aon.alarmLevel := 2 })
    s.dev.frozen (.cc b2) (.bk 2 Reg.BK_REC_IDX) && gives (.bitAliasWrite b2 (bitAt Reg.BK_REC_IDX 3) 1) s (fun d =>
      d.zreg Reg.ZN_ALM_CNT_FROZEN == 1 && (d.bank 2).ring.idx == 0)) = true := by decide +kernel

end Sys2Proof.Tests
end

section
/-! PROOF. Health transitions and the age rules (R228, R233 to R235, R243, R246, R275): what a transition does to the health
table, its counters and everything else, and what the five age commands of O34 do. -/

namespace Sys2Proof.Machine

variable {d : Dev} {u v : Nat}

/-! ## Reading the health table after an update -/

theorem Dev.uht_modUht_same (f : UhtEntry → UhtEntry) (hu : unitKind u ≠ .reserved) : (d.modUht u f).uht u = f (d.uht u) := by
  simp only [Dev.modUht, hu, if_false, Dev.uht, Tbl.get_modify_same]

theorem Dev.uht_modUht_ne (f : UhtEntry → UhtEntry) (h : v ≠ u) : (d.modUht u f).uht v = d.uht v := by
  unfold Dev.modUht
  split
  · rfl
  · exact Tbl.get_modify_ne _ _ f h

theorem Dev.wisp_modUht (f : UhtEntry → UhtEntry) (b p : Nat) : (d.modUht u f).wisp b p = d.wisp b p := by
  unfold Dev.modUht
  split <;> rfl

theorem Dev.zreg_modUht (f : UhtEntry → UhtEntry) (off : Nat) : (d.modUht u f).zreg off = d.zreg off := by
  unfold Dev.modUht
  split <;> rfl

/-- A change that leaves the health engine alone leaves every entry. -/
theorem Dev.SameBut.uht_eq {l : List Part} {a b : Dev} (h : Dev.SameBut l a b) (hl : covers l .health = false) (v : Nat) :
    b.uht v = a.uht v :=
  congrArg (fun x : HealthEngine => Tbl.get UhtEntry.init x.uht v) (h .health hl)

/-! ## Asking for an image check (R275) -/

theorem coreUnit_div_mod (u : Nat) : coreUnit (u / 264) (u % 264) = u := Nat.div_add_mod' u 264

theorem Dev.uht_askCheck (v : Nat) : (d.askCheck u).uht v = d.uht v := rfl

theorem Dev.wisp_askCheck_same (h : (d.wisp (u / 264) (u % 264)).pat.valid = true) :
    ((d.askCheck u).wisp (u / 264) (u % 264)).pat.checking = true := by
  simp [Dev.askCheck, h]

theorem Dev.wisp_askCheck_ne {b p : Nat} (h : coreUnit b p ≠ u) : (d.askCheck u).wisp b p = d.wisp b p :=
  Dev.wisp_modWisp_ne _ _ (by rwa [coreUnit_div_mod])

/-! ## DUE set (R243) -/

section
variable (e : UhtEntry) (tier now : Nat)

@[simp] theorem UhtEntry.makeDue_due : (e.makeDue tier now).due = true := by
  unfold UhtEntry.makeDue
  split
  · assumption
  · rfl

@[simp] theorem UhtEntry.makeDue_state : (e.makeDue tier now).state = e.state := by
  unfold UhtEntry.makeDue; split <;> rfl

theorem UhtEntry.makeDue_of_not_due (h : e.due = false) :
    e.makeDue tier now = { e with due := true, dueTier := tier, dueAt := now, overdue := false } := by
  simp [UhtEntry.makeDue, h]

theorem UhtEntry.makeDue_of_due (h : e.due = true) : e.makeDue tier now = { e with dueTier := max e.dueTier tier } := by
  simp [UhtEntry.makeDue, h]

theorem UhtEntry.le_makeDue_dueTier : tier ≤ (e.makeDue tier now).dueTier := by
  unfold UhtEntry.makeDue
  split
  · exact Nat.le_max_right e.dueTier tier
  · exact Nat.le_refl tier

end

theorem Dev.uht_setDue_same (tier : Nat) (hu : unitKind u ≠ .reserved) :
    (d.setDue u tier).uht u = (d.uht u).makeDue tier d.health.graceClock := by
  rw [Dev.setDue, Dev.uht_askCheck, Dev.uht_modUht_same _ hu]

theorem Dev.uht_setDue_ne (tier : Nat) (h : v ≠ u) : (d.setDue u tier).uht v = d.uht v := by
  rw [Dev.setDue, Dev.uht_askCheck, Dev.uht_modUht_ne _ h]

theorem Dev.wisp_setDue_same (tier : Nat) (h : (d.wisp (u / 264) (u % 264)).pat.valid = true) :
    ((d.setDue u tier).wisp (u / 264) (u % 264)).pat.checking = true :=
  Dev.wisp_askCheck_same (by rwa [Dev.wisp_modUht])

theorem Dev.wisp_setDue_ne {b p : Nat} (tier : Nat) (h : coreUnit b p ≠ u) : (d.setDue u tier).wisp b p = d.wisp b p := by
  rw [Dev.setDue, Dev.wisp_askCheck_ne h, Dev.wisp_modUht]

/-! ## Transitions (R234, R238) -/

/-- A transition into Clear or Haze starts the counts since entry again and changes nothing else but STATE and REASON. -/
theorem UhtEntry.enter_of_mild (e : UhtEntry) (core : Bool) {new : Health} (reason now : Nat) (h : new = .clear ∨ new = .haze) :
    e.enter core new reason now = { e with state := new, reason := reason, charges := 0, fails := 0, overdueTier := none } := by
  rcases h with rfl | rfl <;> cases core <;> rfl

/-- A transition before its records, notice and remap: the unit's entry and the counter. -/
def Dev.entered (d : Dev) (u : Nat) (new : Health) (reason : Nat) : Dev :=
  (d.modUht u (fun e => e.enter (unitKind u == .core) new reason d.health.graceClock)).countInto new

theorem Dev.uht_countInto (new : Health) (v : Nat) : (d.countInto new).uht v = d.uht v := by
  cases new <;> rfl

theorem Dev.uht_entered_same (new : Health) (reason : Nat) (hu : unitKind u ≠ .reserved) :
    (d.entered u new reason).uht u = (d.uht u).enter (unitKind u == .core) new reason d.health.graceClock := by
  rw [Dev.entered, Dev.uht_countInto, Dev.uht_modUht_same _ hu]

theorem Dev.uht_entered_ne (new : Health) (reason : Nat) (h : v ≠ u) : (d.entered u new reason).uht v = d.uht v := by
  rw [Dev.entered, Dev.uht_countInto, Dev.uht_modUht_ne _ h]

/-- A transition into Clear or Haze makes no test due and remaps nothing: beyond the entry and its counter it only journals the
change and sends its notice. -/
theorem Dev.transition_of_mild {new : Health} (h : new = .clear ∨ new = .haze) (reason : Nat) (hu : unitKind u ≠ .reserved) :
    ∃ j body, d.transition u new reason = ((d.entered u new reason).jPush j).notice 0x01 false body := by
  have hdue : ((d.entered u new reason).uht u).due = (d.uht u).due := by
    rw [Dev.uht_entered_same _ _ hu, UhtEntry.enter_of_mild _ _ _ _ h]
  have hE : (new == Health.eclipse) = false := by rcases h with rfl | rfl <;> rfl
  have hO : (new == Health.overcast) = false := by rcases h with rfl | rfl <;> rfl
  unfold Dev.entered at hdue
  unfold Dev.transition
  simp only [hdue, Bool.and_not_self, Bool.and_assoc, Bool.and_false, hE, hO, Bool.false_and, Bool.or_false,
    Bool.false_eq_true, if_false]
  split <;> exact ⟨_, _, rfl⟩

section
variable {new : Health} (h : new = .clear ∨ new = .haze) (reason : Nat) (hu : unitKind u ≠ .reserved)
include h hu

theorem Dev.transition_sameBut_entered :
    Dev.SameBut [.afsin, .jnl, .reg Reg.ZN_AFS_CNT_LOST, .reg Reg.ZN_AFS_CNT_SENT] (d.entered u new reason)
      (d.transition u new reason) := by
  obtain ⟨j, body, heq⟩ := Dev.transition_of_mild (d := d) h reason hu
  rw [heq]
  exact Dev.notice_keeps _ _ _ rfl (Dev.jPush_keeps _ rfl (.refl _ _))

theorem Dev.uht_transition_same : (d.transition u new reason).uht u =
    { d.uht u with state := new, reason := reason, charges := 0, fails := 0, overdueTier := none } := by
  rw [(Dev.transition_sameBut_entered h reason hu).uht_eq rfl, Dev.uht_entered_same _ _ hu, UhtEntry.enter_of_mild _ _ _ _ h]

theorem Dev.uht_transition_ne (hv : v ≠ u) : (d.transition u new reason).uht v = d.uht v := by
  rw [(Dev.transition_sameBut_entered h reason hu).uht_eq rfl, Dev.uht_entered_ne _ _ hv]

end

/-- The frame of a transition into Clear. -/
theorem Dev.transition_clear_sameBut (reason : Nat) (hu : unitKind u ≠ .reserved) :
    Dev.SameBut [.afsin, .health, .jnl, .reg Reg.ZN_AFS_CNT_LOST, .reg Reg.ZN_AFS_CNT_SENT, .reg Reg.ZN_UHT_CNT_CLEAR] d
      (d.transition u .clear reason) :=
  (Dev.transition_sameBut_entered (.inl rfl) reason hu).step rfl (Dev.bumpZ_keeps _ rfl (Dev.modUht_keeps _ _ rfl (.refl _ _)))

/-- The frame of a transition into Haze. -/
theorem Dev.transition_haze_sameBut (reason : Nat) (hu : unitKind u ≠ .reserved) :
    Dev.SameBut [.afsin, .health, .jnl, .reg Reg.ZN_AFS_CNT_LOST, .reg Reg.ZN_AFS_CNT_SENT, .reg Reg.ZN_UHT_CNT_HAZE] d
      (d.transition u .haze reason) :=
  (Dev.transition_sameBut_entered (.inr rfl) reason hu).step rfl (Dev.bumpZ_keeps _ rfl (Dev.modUht_keeps _ _ rfl (.refl _ _)))

theorem Dev.zreg_cntClear_transition_clear (reason : Nat) (hu : unitKind u ≠ .reserved) :
    (d.transition u .clear reason).zreg Reg.ZN_UHT_CNT_CLEAR = d.zreg Reg.ZN_UHT_CNT_CLEAR + 1 := by
  have hkeep : (d.transition u .clear reason).zreg Reg.ZN_UHT_CNT_CLEAR = (d.entered u .clear reason).zreg Reg.ZN_UHT_CNT_CLEAR :=
    Dev.transition_sameBut_entered (.inl rfl) reason hu (.reg Reg.ZN_UHT_CNT_CLEAR) (by decide)
  rw [hkeep, Dev.entered, Dev.countInto, Dev.zreg_bumpZ_same, Dev.zreg_modUht]

/-! ## Observations (R232) -/

/-- An entry after an observation at the unit's visit `vis`: its age is zeroed, and Dawn and Clear go to Haze; `tier` is what an
OVERDUE observation of a Clear unit notes. -/
def UhtEntry.observed (e : UhtEntry) (vis reason : Nat) (tier : Option Nat) : UhtEntry :=
  if e.state = .dawn ∨ e.state = .clear then
    { e with cleanBase := Int.ofNat vis, state := .haze, reason := reason, charges := 0, fails := 0, overdueTier := tier }
  else { e with cleanBase := Int.ofNat vis }

section
variable (e : UhtEntry) (vis reason : Nat) (tier : Option Nat)

theorem UhtEntry.observed_due : (e.observed vis reason tier).due = e.due := by
  unfold UhtEntry.observed; split <;> rfl

theorem UhtEntry.observed_to_haze (h : e.state = .dawn ∨ e.state = .clear) :
    (e.observed vis reason tier).state = .haze ∧ (e.observed vis reason tier).reason = reason := by
  simp [UhtEntry.observed, h]

theorem UhtEntry.observed_state_of_other (hd : e.state ≠ .dawn) (hc : e.state ≠ .clear) :
    (e.observed vis reason tier).state = e.state := by
  simp [UhtEntry.observed, hd, hc]

end

theorem Dev.uht_observeRaw_same (reason : Nat) (hu : unitKind u ≠ .reserved) :
    ∃ tier, (d.observeRaw u reason).uht u = (d.uht u).observed (d.visits u) reason tier := by
  have hzero : (d.zeroAge u).uht u = { d.uht u with cleanBase := Int.ofNat (d.visits u) } := Dev.uht_modUht_same _ hu
  unfold Dev.observeRaw UhtEntry.observed Dev.healthOf
  dsimp only
  by_cases hfrom : (d.uht u).state = .dawn ∨ (d.uht u).state = .clear
  · simp only [hfrom, if_true]
    split
    · exact ⟨_, by rw [Dev.uht_modUht_same _ hu, Dev.uht_transition_same (.inr rfl) _ hu, hzero]⟩
    · exact ⟨_, by rw [Dev.uht_transition_same (.inr rfl) _ hu, hzero]⟩
  · have hclear : ¬ ((d.uht u).state = .clear ∧ reason = rOVERDUE) := fun hc => hfrom (.inr hc.1)
    simp only [hfrom, hclear, if_false]
    exact ⟨none, hzero⟩

theorem Dev.uht_observeRaw_ne (reason : Nat) (hu : unitKind u ≠ .reserved) (h : v ≠ u) :
    (d.observeRaw u reason).uht v = d.uht v := by
  have hzero : (d.zeroAge u).uht v = d.uht v := Dev.uht_modUht_ne _ h
  unfold Dev.observeRaw
  dsimp only
  split <;> split <;> simp only [Dev.uht_modUht_ne _ h, Dev.uht_transition_ne (.inr rfl) _ hu h, hzero]

/-- The frame of an observation. -/
theorem Dev.observeRaw_sameBut (reason : Nat) (hu : unitKind u ≠ .reserved) :
    Dev.SameBut [.afsin, .health, .jnl, .reg Reg.ZN_AFS_CNT_LOST, .reg Reg.ZN_AFS_CNT_SENT, .reg Reg.ZN_UHT_CNT_HAZE] d
      (d.observeRaw u reason) := by
  have hzero := Dev.zeroAge_keeps (l := [.afsin, .health, .jnl, .reg Reg.ZN_AFS_CNT_LOST, .reg Reg.ZN_AFS_CNT_SENT,
    .reg Reg.ZN_UHT_CNT_HAZE]) u rfl (Dev.SameBut.refl _ d)
  have hmove := Dev.SameBut.ite (p := d.healthOf u = .dawn ∨ d.healthOf u = .clear)
    (hzero.trans (Dev.transition_haze_sameBut reason hu)) hzero
  exact .ite (Dev.modUht_keeps _ _ rfl hmove) hmove

theorem Dev.hEvent_of_running (ev : HEvent) (hs : d.clock.stopped = false) (hu : unitKind u ≠ .reserved) :
    d.hEvent u ev = d.applyHealth u ev := by
  simp [Dev.hEvent, hs, hu]

/-! ## A due test not started in time (R246) -/

/-- The part after the grace of a unit's due test has run out, outside a stop. -/
def Dev.graceExpired (d : Dev) (u : Nat) : Dev :=
  ((d.bumpZ Reg.ZN_TST_CNT_OVERDUE).observeRaw u rOVERDUE).modUht u (fun e => { e with overdue := true })

theorem Dev.uht_graceExpired_same (hu : unitKind u ≠ .reserved) :
    ∃ tier, (d.graceExpired u).uht u = { (d.uht u).observed (d.visits u) rOVERDUE tier with overdue := true } := by
  obtain ⟨tier, hobs⟩ := Dev.uht_observeRaw_same (d := d.bumpZ Reg.ZN_TST_CNT_OVERDUE) rOVERDUE hu
  refine ⟨tier, ?_⟩
  rw [Dev.graceExpired, Dev.uht_modUht_same _ hu, hobs]
  rfl

theorem Dev.uht_graceExpired_ne (hu : unitKind u ≠ .reserved) (h : v ≠ u) : (d.graceExpired u).uht v = d.uht v := by
  rw [Dev.graceExpired, Dev.uht_modUht_ne _ h, Dev.uht_observeRaw_ne _ hu h]
  rfl

theorem Dev.zreg_cntOverdue_graceExpired (hu : unitKind u ≠ .reserved) :
    (d.graceExpired u).zreg Reg.ZN_TST_CNT_OVERDUE = d.zreg Reg.ZN_TST_CNT_OVERDUE + 1 := by
  have hkeep := Dev.observeRaw_sameBut (d := d.bumpZ Reg.ZN_TST_CNT_OVERDUE) rOVERDUE hu (.reg Reg.ZN_TST_CNT_OVERDUE) (by decide)
  rw [Dev.graceExpired, Dev.zreg_modUht, hkeep, Dev.zreg_bumpZ_same]

theorem Dev.graceExpired_sameBut (hu : unitKind u ≠ .reserved) :
    Dev.SameBut [.afsin, .health, .jnl, .reg Reg.ZN_AFS_CNT_LOST, .reg Reg.ZN_AFS_CNT_SENT, .reg Reg.ZN_TST_CNT_OVERDUE,
      .reg Reg.ZN_UHT_CNT_HAZE] d (d.graceExpired u) :=
  Dev.modUht_keeps _ _ rfl ((Dev.observeRaw_sameBut rOVERDUE hu).step rfl (Dev.bumpZ_keeps _ rfl (.refl _ _)))

/-! ## The tier whose age has reached its period (R243) -/

theorem Dev.tierReached_of_disabled (h : (d.uht u).state = .clear) (h0 : d.zf Reg.ZN_TST_PER_CLEAR 5 0 = 0)
    (h1 : d.zf Reg.ZN_TST_PER_CLEAR 11 6 = 0) (h2 : d.zf Reg.ZN_TST_PER_T2 5 0 = 0) : d.tierReached u 0 = none := by
  simp [Dev.tierReached, h, h0, h1, h2]

theorem Dev.tierReached_of_deep_age (h : (d.uht u).state = .clear) (hk : d.zf Reg.ZN_TST_PER_T2 5 0 ≠ 0)
    (hage : 2 ^ d.zf Reg.ZN_TST_PER_T2 5 0 ≤ 256 * ageOf (d.visits u) (d.uht u).t2Base) : d.tierReached u 0 = some 2 := by
  simp [Dev.tierReached, h, hk, hage]

/-! ## The five age commands -/

section
variable {s : State} {u : UnitId}

theorem exec_testDue_of_reached {tier : Nat} (hs : s.dev.clock.stopped = false) (hk : unitKind u.val = .core)
    (ht : s.dev.tierReached u.val 0 = some tier) : exec (.testDue u) s = .next { s with dev := s.dev.setDue u.val tier } := by
  change execTestDue u s = _
  simp [execTestDue, hs, hk, ht]

theorem exec_testDue_of_none (ht : s.dev.tierReached u.val 0 = none) : exec (.testDue u) s = .next s := by
  change execTestDue u s = _
  simp [execTestDue, ht]

theorem exec_graceExpire_of_late (hs : s.dev.clock.stopped = false) (hk : unitKind u.val = .core)
    (hdue : (s.dev.uht u.val).due = true) (hover : (s.dev.uht u.val).overdue = false) (htest : s.dev.testing u.val = false)
    (hage : (s.dev.uht u.val).dueAt + s.dev.zf Reg.ZN_TST_GRACE 24 0 ≤ s.dev.health.graceClock) :
    exec (.graceExpire u) s = .next { s with dev := s.dev.graceExpired u.val } := by
  have hu : unitKind u.val ≠ .reserved := by simp [hk]
  have hev : (s.dev.bumpZ Reg.ZN_TST_CNT_OVERDUE).hEvent u.val (.observe rOVERDUE) =
      (s.dev.bumpZ Reg.ZN_TST_CNT_OVERDUE).observeRaw u.val rOVERDUE := Dev.hEvent_of_running _ hs hu
  change execGraceExpire u s = _
  simp [execGraceExpire, hs, hk, hdue, hover, htest, Nat.not_lt.mpr hage, State.onDev, hev, Dev.graceExpired]

theorem exec_hazeClearAge_of_clean (hs : s.dev.clock.stopped = false) (hu : unitKind u.val ≠ .reserved)
    (hk : s.dev.zf Reg.ZN_UHT_WIN 13 8 ≠ 0) (hz : s.dev.healthOf u.val = .haze) (hdue : s.dev.isDue u.val = false)
    (hw : (s.dev.uht u.val).unwatched = false) (hp : (s.dev.uht u.val).patMissing = false)
    (hage : 2 ^ s.dev.zf Reg.ZN_UHT_WIN 13 8 ≤ s.dev.cleanFrames u.val) :
    exec (.hazeClearAge u) s = .next { s with dev := s.dev.transition u.val .clear rCLEAN } := by
  have hst : (s.dev.uht u.val).state = .haze := hz
  change execHazeClearAge u s = _
  simp [execHazeClearAge, hs, hu, hk, hst, hdue, hw, hp, Nat.not_lt.mpr hage]

theorem exec_hazeClearAge_idle (h : s.dev.zf Reg.ZN_UHT_WIN 13 8 = 0 ∨ s.dev.healthOf u.val ≠ .haze ∨ s.dev.isDue u.val = true ∨
    s.dev.cleanFrames u.val < 2 ^ s.dev.zf Reg.ZN_UHT_WIN 13 8) : exec (.hazeClearAge u) s = .next s := by
  change execHazeClearAge u s = _
  rcases h with hk | hz | hdue | hage
  · simp [execHazeClearAge, hk]
  · have hst : (s.dev.uht u.val).state ≠ .haze := hz
    simp [execHazeClearAge, hst]
  · simp [execHazeClearAge, hdue]
  · simp [execHazeClearAge, hage]

theorem agesOut_iff (k : UnitKind) : agesOut k = true ↔ k = .slice ∨ k = .region ∨ k = .lane ∨ k = .channel := by
  cases k <;> simp [agesOut]

theorem exec_dawnAgeQualify_of_clean (hs : s.dev.clock.stopped = false) (ha : agesOut (unitKind u.val) = true)
    (hk : s.dev.zf Reg.ZN_UHT_DAWN_AGE 5 0 ≠ 0) (hd : s.dev.healthOf u.val = .dawn)
    (hage : 2 ^ s.dev.zf Reg.ZN_UHT_DAWN_AGE 5 0 ≤ s.dev.cleanFrames u.val) :
    exec (.dawnAgeQualify u) s = .next { s with dev := s.dev.transition u.val .clear rQUALIFIED } := by
  change execDawnAgeQualify u s = _
  simp [execDawnAgeQualify, hs, ha, hk, hd, Nat.not_lt.mpr hage]

theorem exec_dawnAgeQualify_idle (ha : agesOut (unitKind u.val) = false) : exec (.dawnAgeQualify u) s = .next s := by
  change execDawnAgeQualify u s = _
  simp [execDawnAgeQualify, ha]

end

/-! ## The CE window (R233) -/

theorem UhtEntry.settleCe_state (e : UhtEntry) (vis visRestart : Nat) : (e.settleCe vis visRestart).state = e.state := by
  unfold UhtEntry.settleCe; split <;> rfl

theorem UhtEntry.settleCe_init (vis visRestart : Nat) : UhtEntry.init.settleCe vis visRestart = .init := by
  unfold UhtEntry.settleCe; split <;> rfl

/-- The part after a restart of the CE window. -/
def Dev.ceRestarted (d : Dev) : Dev :=
  { d with health := { d.health with
      uht := Tbl.mapAll UhtEntry.init (fun u e => e.settleCe (visitsAt d.health.sweepNo u) (visitsAt d.health.ceSweep u)) d.health.uht
      ceWindow := d.clock.frame
      ceSweep := d.health.sweepNo } }

theorem exec_ceWindowRestart_of_expired {s : State} (hk : s.dev.zf Reg.ZN_UHT_CE 13 8 ≠ 0)
    (hage : s.dev.health.ceWindow + 2 ^ s.dev.zf Reg.ZN_UHT_CE 13 8 ≤ s.dev.clock.frame) :
    exec .ceWindowRestart s = .next { s with dev := s.dev.ceRestarted } := by
  change execCeWindowRestart s = _
  simp [execCeWindowRestart, hk, Nat.not_lt.mpr hage, Dev.ceRestarted]

theorem Dev.healthOf_ceRestarted (u : Nat) : d.ceRestarted.healthOf u = d.healthOf u := by
  have hget : d.ceRestarted.uht u = (d.uht u).settleCe (visitsAt d.health.sweepNo u) (visitsAt d.health.ceSweep u) :=
    Tbl.get_mapAll (f := fun u (e : UhtEntry) => e.settleCe (visitsAt d.health.sweepNo u) (visitsAt d.health.ceSweep u))
      (fun _ => UhtEntry.settleCe_init _ _) d.health.uht u
  rw [Dev.healthOf, hget, UhtEntry.settleCe_state]
  rfl

theorem Dev.ceRestarted_sameBut : Dev.SameBut [.health] d d.ceRestarted := by
  unfold Dev.ceRestarted
  simp +decide only [Dev.SameBut.refl, Dev.SameBut.upd, true_or, or_true, and_self]

/-- Settles O34: each age command's state is one `setDue`, observation, transition or restart of the CE window, whose effect on the
table, the counters and the rest stands above. -/
theorem agesMakeTestsDueAndUnitsClear : Obligations.AgesMakeTestsDueAndUnitsClear := by
  unfold Obligations.AgesMakeTestsDueAndUnitsClear
  refine ⟨?_, ?_, ?_, ?_, ?_, ?_, ?_, ?_, ?_⟩
  · intro u tier s hs hk ht
    have hu : unitKind u.val ≠ .reserved := by simp [hk]
    refine ⟨_, exec_testDue_of_reached hs hk ht, ?_⟩
    rw [Dev.uht_setDue_same _ hu]
    refine ⟨UhtEntry.makeDue_due .., fun h => ?_, fun h => ?_, UhtEntry.makeDue_state .., fun v => Dev.uht_setDue_ne _,
      Dev.wisp_setDue_same _, fun b p => Dev.wisp_setDue_ne _, rfl, rfl, Dev.setDue_keeps _ _ rfl (.refl _ _)⟩
    · rw [UhtEntry.makeDue_of_not_due _ _ _ h]; exact ⟨rfl, rfl, rfl⟩
    · rw [UhtEntry.makeDue_of_due _ _ _ h]; exact ⟨rfl, rfl, rfl⟩
  · intro u s hst h0 h1 h2
    exact exec_testDue_of_none (Dev.tierReached_of_disabled hst h0 h1 h2)
  · intro u s hs hk hst hper hage
    have hu : unitKind u.val ≠ .reserved := by simp [hk]
    refine ⟨_, exec_testDue_of_reached hs hk (Dev.tierReached_of_deep_age hst hper hage), ?_⟩
    rw [Dev.uht_setDue_same _ hu]
    exact ⟨UhtEntry.makeDue_due .., UhtEntry.le_makeDue_dueTier ..⟩
  · intro u s hs hk hdue hover htest hage
    have hu : unitKind u.val ≠ .reserved := by simp [hk]
    obtain ⟨tier, hentry⟩ := Dev.uht_graceExpired_same (d := s.dev) hu
    refine ⟨_, exec_graceExpire_of_late hs hk hdue hover htest hage, ?_⟩
    refine ⟨by rw [hentry], by rw [hentry]; exact (UhtEntry.observed_due ..).trans hdue, Dev.zreg_cntOverdue_graceExpired hu,
      fun h => ?_, fun hc hd => ?_, fun v => Dev.uht_graceExpired_ne hu, rfl, rfl, Dev.graceExpired_sameBut hu⟩
    · rw [Dev.healthOf, hentry]
      exact UhtEntry.observed_to_haze _ _ _ _ h.symm
    · rw [Dev.healthOf, hentry]
      exact UhtEntry.observed_state_of_other _ _ _ _ hd hc
  · intro u s hs hu hper hz hdue hw hp hage
    have hentry := Dev.uht_transition_same (d := s.dev) (.inl rfl) rCLEAN hu
    refine ⟨_, exec_hazeClearAge_of_clean hs hu hper hz hdue hw hp hage, ?_⟩
    rw [Dev.healthOf, hentry]
    exact ⟨rfl, rfl, rfl, rfl, Dev.zreg_cntClear_transition_clear _ hu, fun v => Dev.uht_transition_ne (.inl rfl) _ hu,
      rfl, rfl, Dev.transition_clear_sameBut _ hu⟩
  · exact fun u s => exec_hazeClearAge_idle
  · intro u s hs hkind hper hd hage
    have ha := (agesOut_iff _).mpr hkind
    have hu : unitKind u.val ≠ .reserved := by rintro h; simp [h, agesOut] at ha
    have hentry := Dev.uht_transition_same (d := s.dev) (.inl rfl) rQUALIFIED hu
    refine ⟨_, exec_dawnAgeQualify_of_clean hs ha hper hd hage, ?_⟩
    rw [Dev.healthOf, hentry]
    exact ⟨rfl, rfl, fun v => Dev.uht_transition_ne (.inl rfl) _ hu, rfl, rfl, Dev.transition_clear_sameBut _ hu⟩
  · intro u s hkind
    exact exec_dawnAgeQualify_idle (by rcases hkind with h | h | h <;> rw [h] <;> rfl)
  · intro s hper hage
    exact ⟨_, exec_ceWindowRestart_of_expired hper hage, rfl, fun u => Dev.healthOf_ceRestarted u, rfl, rfl, Dev.ceRestarted_sameBut⟩

end Sys2Proof.Machine
end

section
/-! PROOF. Candidates of an Anvil (R125, R129, R149, R150): presenting one, accepting it as a descriptor or holding it for a seed, and
O18; with what a Bank reads as after an update, which the slots and submissions below use too. -/

namespace Sys2Proof.Machine

variable {d e : Dev} {b c : Nat}

/-! ## Reading a Bank after an update -/

/-- A reading of a Bank that a change of Banks leaves alone is the same at every Bank. -/
theorem Dev.bank_modBank_reads {α : Type} (g : Bank → α) {f : Bank → Bank} (hf : ∀ k, g (f k) = g k) (b c : Nat) :
    g ((d.modBank b f).bank c) = g (d.bank c) := by
  by_cases h : c = b
  · subst h; rw [Dev.bank_modBank_same, hf]
  · rw [Dev.bank_modBank_ne _ f h]

theorem Bank.chanQueue_setQueue_same (k : Bank) (ch : Nat) (l : List Desc) : (k.setQueue ch l).anv.chanQueue ch = l :=
  Tbl.get_set_same [] k.anv.queue ch l

@[simp] theorem Bank.reg_setReg_same (k : Bank) (off : Nat) (w : Word) : (k.setReg off w).reg off = w :=
  Tbl.get_set_same 0 k.regs off w

/-- The seed at a Bank rests on the timebase and on what the Bank's header brought. -/
theorem Dev.bankSeed_congr (hclock : e.clock = d.clock) (habsent : (e.bank b).seedAbsent = (d.bank b).seedAbsent)
    (hflip : (e.bank b).seedFlip = (d.bank b).seedFlip) : e.bankSeed b = d.bankSeed b := by
  simp only [Dev.bankSeed, Dev.seed, hclock, habsent, hflip]

/-! ## Presenting a candidate (R149) -/

theorem exec_candidatePresent_of_room {bank : BankId} {pos : Pos} {x : Cand} {s : State}
    (hx : (s.dev.wisp bank.val pos.val).pend[(s.dev.wisp bank.val pos.val).presented]? = some x)
    (hs : s.dev.clock.stopped = false) (hdown : s.dev.bankDown bank.val = false)
    (hroom : (s.dev.bank bank.val).anv.room x.chan 0 x.entries = true) :
    exec (.candidatePresent bank pos) s = .next (s.onDev (fun d =>
      (d.modWisp bank.val pos.val (fun w => { w with presented := w.presented + 1 })).modBank bank.val
        (fun k => { k with anv.presented := k.anv.presented ++ [x] }))) := by
  change execCandidatePresent bank pos s = _
  simp [execCandidatePresent, hx, hs, hdown, hroom]

/-! ## Accepting a candidate (R125, R129) -/

section
variable (x : Cand) (seed : Option DWord)

theorem Dev.newDesc_seq : (d.newDesc b x seed).seq = (d.bank b).anv.seq := rfl

theorem Dev.newDesc_strict : (d.newDesc b x seed).strict = (d.ctx x.ctx).core.strict := rfl

theorem Dev.newDesc_gate : (d.newDesc b x seed).gate = (d.ctx x.ctx).gate := rfl

theorem Dev.newDesc_key (w : DWord) : (d.newDesc b x (some w)).key = checkKey w b (d.bank b).anv.seq := rfl

end

section
variable {x : Cand} (hop : x.op ≠ opSIGCMP)
include hop

theorem Dev.newDesc_st (seed : Option DWord) : (d.newDesc b x seed).st = .fetching := by
  simp [Dev.newDesc, hop]

variable (hone : x.entries = 1)
include hone

/-- A candidate of one entry takes the next SEQ and stands last on its channel. -/
theorem Dev.acceptCand_of_one : d.acceptCand b x = (d.modBank b (fun k => { k with anv.seq := k.anv.seq + 1 })).modBank b
    (fun k => k.setQueue x.chan (k.anv.chanQueue x.chan ++ [d.newDesc b x (d.bankSeed b)])) := by
  simp [Dev.acceptCand, Dev.queueDesc, hop, hone]

theorem Dev.chanQueue_acceptCand : ((d.acceptCand b x).bank b).anv.chanQueue x.chan =
    (d.bank b).anv.chanQueue x.chan ++ [d.newDesc b x (d.bankSeed b)] := by
  rw [Dev.acceptCand_of_one hop hone, Dev.bank_modBank_same, Dev.bank_modBank_same, Bank.chanQueue_setQueue_same]
  rfl

theorem Dev.seq_acceptCand : ((d.acceptCand b x).bank b).anv.seq = (d.bank b).anv.seq + 1 := by
  rw [Dev.acceptCand_of_one hop hone, Dev.bank_modBank_same, Dev.bank_modBank_same]
  rfl

theorem Dev.presented_acceptCand : ((d.acceptCand b x).bank b).anv.presented = (d.bank b).anv.presented := by
  rw [Dev.acceptCand_of_one hop hone, Dev.bank_modBank_same, Dev.bank_modBank_same]
  rfl

theorem Dev.bank_acceptCand_ne (h : c ≠ b) : (d.acceptCand b x).bank c = d.bank c := by
  rw [Dev.acceptCand_of_one hop hone, Dev.bank_modBank_ne _ _ h, Dev.bank_modBank_ne _ _ h]

theorem Dev.wisp_acceptCand (p : Nat) : (d.acceptCand b x).wisp c p = d.wisp c p := by
  rw [Dev.acceptCand_of_one hop hone, Dev.wisp_modBank, Dev.wisp_modBank]

end

theorem Dev.bank_freePending (x : Cand) (c : Nat) : (d.freePending b x).bank c = d.bank c := by
  unfold Dev.freePending; dsimp only; split <;> rfl

theorem Dev.ctx_freePending (x : Cand) (c : Nat) : (d.freePending b x).ctx c = d.ctx c := by
  unfold Dev.freePending; dsimp only; split <;> rfl

theorem Dev.clock_freePending (x : Cand) : (d.freePending b x).clock = d.clock := by
  unfold Dev.freePending; dsimp only; split <;> rfl

theorem Dev.pend_freePending {x : Cand} (h : x.src = 0) :
    ((d.freePending b x).wisp b x.pos).pend = (d.wisp b x.pos).pend.erase x := by
  simp [Dev.freePending, h]

/-- The part once a candidate has left the presented ones and its Wisp's pending entry, and is not accepted yet. -/
def Dev.candTaken (d : Dev) (b : Nat) (x : Cand) : Dev := (d.modBank b (fun k => k.unpresent x)).freePending b x

theorem Dev.bank_candTaken_same (x : Cand) : (d.candTaken b x).bank b = (d.bank b).unpresent x := by
  rw [Dev.candTaken, Dev.bank_freePending, Dev.bank_modBank_same]

theorem Dev.bank_candTaken_ne (x : Cand) (h : c ≠ b) : (d.candTaken b x).bank c = d.bank c := by
  rw [Dev.candTaken, Dev.bank_freePending, Dev.bank_modBank_ne _ _ h]

theorem Dev.ctx_candTaken (x : Cand) (c : Nat) : (d.candTaken b x).ctx c = d.ctx c := by
  rw [Dev.candTaken, Dev.ctx_freePending]
  rfl

theorem Dev.bankSeed_candTaken (x : Cand) : (d.candTaken b x).bankSeed b = d.bankSeed b := by
  refine Dev.bankSeed_congr ?_ ?_ ?_
  · rw [Dev.candTaken, Dev.clock_freePending, Dev.modBank_clock]
  all_goals rw [Dev.bank_candTaken_same]; rfl

/-- DESCRIPTOR_ACCEPT where nothing is held and the first candidate presented has its entry and, if it needs one, its seed. -/
theorem exec_descriptorAccept_of_room {bank : BankId} {x : Cand} {rest : List Cand} {s : State} (hs : s.dev.clock.stopped = false)
    (hdown : s.dev.bankDown bank.val = false) (hheld : (s.dev.bank bank.val).anv.held = [])
    (hpres : (s.dev.bank bank.val).anv.presented = x :: rest)
    (hroom : (s.dev.bank bank.val).anv.room x.chan x.src x.entries = true)
    (hseed : x.needsSeed = false ∨ (s.dev.bankSeed bank.val).isSome = true) :
    exec (.descriptorAccept bank) s = .next { s with dev := (s.dev.candTaken bank.val x).acceptCand bank.val x } := by
  change execDescriptorAccept bank s = _
  rcases hseed with h | h
  · simp [execDescriptorAccept, hs, hdown, hheld, hpres, hroom, h, Dev.candTaken]
  · obtain ⟨seed, h⟩ := Option.isSome_iff_exists.mp h
    simp [execDescriptorAccept, hs, hdown, hheld, hpres, hroom, h, Dev.candTaken]

/-- DESCRIPTOR_ACCEPT where the first candidate presented needs a seed and the frame has none. -/
theorem exec_descriptorAccept_of_unseeded {bank : BankId} {x : Cand} {rest : List Cand} {s : State}
    (hs : s.dev.clock.stopped = false) (hdown : s.dev.bankDown bank.val = false)
    (hpres : (s.dev.bank bank.val).anv.presented = x :: rest) (hneeds : x.needsSeed = true)
    (hseed : s.dev.bankSeed bank.val = none) :
    exec (.descriptorAccept bank) s = .next { s with dev :=
      (s.dev.modBank bank.val (fun k => k.unpresent x)).modBank bank.val (fun k => k.hold x) } := by
  change execDescriptorAccept bank s = _
  simp [execDescriptorAccept, hs, hdown, hpres, hneeds, hseed]

theorem Bank.presented_unpresent_head {k : Bank} {x : Cand} {rest : List Cand} (h : k.anv.presented = x :: rest) :
    (k.unpresent x).anv.presented = rest := by
  simp [Bank.unpresent, h]

/-- Settles O18: each command's state is written out above; the Bank, the Wisp and the new descriptor are read off it. -/
theorem candidatesBecomeDescriptors : Obligations.CandidatesBecomeDescriptors := by
  unfold Obligations.CandidatesBecomeDescriptors
  refine ⟨?_, ?_, ?_⟩
  · intro bank pos x s hx hs hdown hroom
    refine ⟨_, exec_candidatePresent_of_room hx hs hdown hroom, ?_⟩
    simp only [State.onDev_dev, Dev.wisp_modBank, Dev.wisp_modWisp_same, Dev.bank_modBank_same, Dev.bank_modWisp]
    exact ⟨trivial, trivial, trivial, fun b p => Dev.wisp_modWisp_ne _ _, fun b => Dev.bank_modBank_ne _ _, rfl, rfl,
      Dev.modBank_keeps _ _ rfl (Dev.modWisp_keeps _ _ _ rfl (.refl _ _))⟩
  · intro bank x rest s hs hdown hheld hpres hop hone hroom hseed
    have hbank := Dev.bank_candTaken_same (d := s.dev) (b := bank.val) x
    refine ⟨_, (s.dev.candTaken bank.val x).newDesc bank.val x ((s.dev.candTaken bank.val x).bankSeed bank.val),
      exec_descriptorAccept_of_room hs hdown hheld hpres (by rwa [hone]) hseed, ?_⟩
    dsimp only
    rw [Dev.chanQueue_acceptCand hop hone, Dev.seq_acceptCand hop hone, Dev.presented_acceptCand hop hone,
      Dev.wisp_acceptCand hop hone, Dev.newDesc_st hop, hbank, Dev.bankSeed_candTaken]
    refine ⟨rfl, rfl, ?_, rfl, rfl, ?_, ?_, fun seed h => ?_, rfl, Bank.presented_unpresent_head hpres,
      Dev.pend_freePending, fun b hb => ?_, rfl, rfl,
      Dev.acceptCand_keeps _ _ rfl (Dev.freePending_keeps _ _ rfl (Dev.modBank_keeps _ _ rfl (.refl _ _)))⟩
    · rw [Dev.newDesc_seq, hbank]; rfl
    · rw [Dev.newDesc_strict, Dev.ctx_candTaken]
    · rw [Dev.newDesc_gate, Dev.ctx_candTaken]
    · rw [h, Dev.newDesc_key, hbank]; rfl
    · rw [Dev.bank_acceptCand_ne hop hone hb, Dev.bank_candTaken_ne x hb]
  · intro bank x rest s hs hdown hpres hop hseed
    have hneeds : x.needsSeed = true := by simpa [Cand.needsSeed] using hop
    refine ⟨_, exec_descriptorAccept_of_unseeded hs hdown hpres hneeds hseed, ?_⟩
    dsimp only
    rw [Dev.bank_modBank_same, Dev.bank_modBank_same]
    exact ⟨rfl, Bank.presented_unpresent_head hpres, rfl, rfl, rfl, Dev.modBank_keeps _ _ rfl (Dev.modBank_keeps _ _ rfl (.refl _ _))⟩

end Sys2Proof.Machine
end

section
/-! PROOF. The slots of an Anvil (R141 to R144, R148, R350): what running a channel leaves alone, and O20. -/

namespace Sys2Proof.Machine

variable {d e : Dev} {b c kb : Nat}

/-! ## What running a channel leaves alone (R142) -/

/-- What the slot table's side of a Bank reads as: its registers, the slots run in the frame and the channel of the slot before. -/
def Bank.slotView (k : Bank) : Tbl Word × Nat × Nat := (k.regs, k.anv.slotNo, k.anv.lastChan)

section
variable {k k' : Bank} (h : k'.slotView = k.slotView)
include h

theorem Bank.reg_of_slotView (off : Nat) : k'.reg off = k.reg off := congrArg (fun v : Tbl Word × Nat × Nat => Tbl.get 0 v.1 off) h

theorem Bank.slotNo_of_slotView : k'.anv.slotNo = k.anv.slotNo := congrArg (fun v : Tbl Word × Nat × Nat => v.2.1) h

theorem Bank.lastChan_of_slotView : k'.anv.lastChan = k.anv.lastChan := congrArg (fun v : Tbl Word × Nat × Nat => v.2.2) h

end

/-- Work of an Anvil for the channels of Bank `kb`: no other Bank changes, and none in what the slot table's side reads as. -/
structure Dev.ChanWork (kb : Nat) (d e : Dev) : Prop where
  other : ∀ c, c ≠ kb → e.bank c = d.bank c
  slotView : ∀ c, (e.bank c).slotView = (d.bank c).slotView

theorem Dev.ChanWork.refl (kb : Nat) (d : Dev) : Dev.ChanWork kb d d := ⟨fun _ _ => rfl, fun _ => rfl⟩

theorem Dev.ChanWork.trans {a : Dev} (h : Dev.ChanWork kb a d) (h' : Dev.ChanWork kb d e) : Dev.ChanWork kb a e :=
  ⟨fun c hc => (h'.other c hc).trans (h.other c hc), fun c => (h'.slotView c).trans (h.slotView c)⟩

section
variable {a : Dev} (h : Dev.ChanWork kb a d)
include h

theorem Dev.modBank_chanWork {f : Bank → Bank} (hf : ∀ k, (f k).slotView = k.slotView) : Dev.ChanWork kb a (d.modBank kb f) :=
  h.trans ⟨fun _ hc => Dev.bank_modBank_ne _ f hc, Dev.bank_modBank_reads Bank.slotView hf kb⟩

theorem Dev.bankEvent_chanWork (source code ctx : Nat) (p0 p1 p2 p3 : Word) (fwd : Forward) :
    Dev.ChanWork kb a (d.bankEvent kb source code ctx p0 p1 p2 p3 fwd) := by
  unfold Dev.bankEvent Dev.present
  split
  · exact h.trans ⟨fun _ _ => rfl, fun _ => rfl⟩
  split
  · exact h
  · exact Dev.modBank_chanWork h fun _ => rfl

theorem Dev.dropDesc_chanWork (x : Desc) : Dev.ChanWork kb a (d.dropDesc kb x) := Dev.modBank_chanWork h fun _ => rfl

theorem Dev.keepDesc_chanWork (x : Desc) : Dev.ChanWork kb a (d.keepDesc kb x) := Dev.modBank_chanWork h fun _ => rfl

theorem Dev.parkChan_chanWork (b id : Nat) (hb : chanBank b id = kb) : Dev.ChanWork kb a (d.parkChan b id) := by
  subst hb
  exact Dev.modBank_chanWork h fun _ => rfl

/-- A descriptor that finishes presents at most two events and moves to the finished ones. -/
theorem Dev.finishDesc_chanWork (x : Desc) : Dev.ChanWork kb a (d.finishDesc kb x) := by
  unfold Dev.finishDesc
  dsimp only
  have hfirst (v w : Dev) (hv : Dev.ChanWork kb a v) (hw : Dev.ChanWork kb a w) :
      Dev.ChanWork kb a (if verdictOf x.verdict = vBEYOND then v else if verdictOf x.verdict = vVOID then w else d) := by
    split
    · exact hv
    split
    · exact hw
    · exact h
  refine Dev.modBank_chanWork ?_ fun _ => rfl
  split
  · exact Dev.bankEvent_chanWork (hfirst _ _ (Dev.bankEvent_chanWork h ..) (Dev.bankEvent_chanWork h ..)) ..
  · exact hfirst _ _ (Dev.bankEvent_chanWork h ..) (Dev.bankEvent_chanWork h ..)

end

theorem Dev.runChan_chanWork {a : Dev} (b id fuel z : Nat) (h : Dev.ChanWork (chanBank b id) a d) :
    Dev.ChanWork (chanBank b id) a (d.runChan b id fuel z) := by
  induction fuel generalizing d z with
  | zero => exact h
  | succ fuel ih =>
    unfold Dev.runChan
    split
    · exact h
    dsimp only
    split
    · exact h
    · next x _ =>
      generalize x.runIn _ z = r
      obtain ⟨y, acc, left, fin⟩ := r
      have hctx := Dev.modBank_chanWork h (f := fun k => { k with anv.ctxs := Tbl.set ChanCtx.init k.anv.ctxs (id % 16) acc })
        fun _ => rfl
      dsimp only
      split
      · exact ih _ (Dev.finishDesc_chanWork (Dev.dropDesc_chanWork hctx y) y)
      · exact Dev.keepDesc_chanWork hctx y

/-! ## A slot (R141, R143) -/

theorem ne_chanBank (id : Nat) (hb : c ≠ b) (hp : c ≠ partner b) : c ≠ chanBank b id := by
  unfold chanBank; split <;> assumption

/-- An Anvil that runs its slots: outside a stop, its Bank taking part, neither isolated nor in reset, its partner not serving its channels
and the frame's 64 slots not all run. -/
structure Dev.RunsSlot (d : Dev) (b : Nat) : Prop where
  running : d.clock.stopped = false
  up : d.bankDown b = false
  attached : (d.bank b).anv.isolated = false
  noReset : (d.bank b).anv.resetAt = none
  notHosted : (d.bank (partner b)).anv.hostTable = false
  slots : (d.bank b).anv.slotNo < 64

/-- The part with a slot counted. -/
def Dev.slotCounted (d : Dev) (b : Nat) : Dev := d.modBank b (fun k => { k with anv.slotNo := k.anv.slotNo + 1 })

/-- The part with a slot counted and, where the slot before had another channel than `id`, that channel parked and a switch counted. -/
def Dev.slotSwitched (d : Dev) (b id : Nat) : Dev :=
  if id ≠ (d.bank b).anv.lastChan then
    ((d.slotCounted b).parkChan b (d.bank b).anv.lastChan).modBank b (fun k => k.add Reg.BK_ANV_SWITCHES 1)
  else d.slotCounted b

/-- The part with a slot given to channel `id`. -/
def Dev.slotGiven (d : Dev) (b id : Nat) : Dev := (d.slotSwitched b id).modBank b (fun k => { k with anv.lastChan := id })

/-- The same, the slot noted among those that the channel's Bank saw run in the frame. -/
def Dev.slotNoted (d : Dev) (b id : Nat) : Dev :=
  (d.slotGiven b id).modBank (chanBank b id) (fun k =>
    { k with anv.slotsRun := Tbl.set 0 k.anv.slotsRun (id % 16) (Tbl.get 0 k.anv.slotsRun (id % 16) + 1) })

theorem exec_slot_of_none {bank : BankId} {s : State} (h : s.dev.RunsSlot bank.val)
    (hch : s.dev.slotChannel bank.val (s.dev.bank bank.val).anv.slotNo = none) :
    exec (.slot bank) s = .next { s with dev := s.dev.slotCounted bank.val } := by
  change execSlot bank s = _
  simp [execSlot, h.running, h.up, h.attached, h.noReset, h.notHosted, Nat.not_le.mpr h.slots, hch, Dev.slotCounted]

/-- A slot given to a channel is counted in the channel's Bank, and the channel runs. -/
theorem exec_slot_of_some {bank : BankId} {s : State} {id : Nat} (h : s.dev.RunsSlot bank.val)
    (hch : s.dev.slotChannel bank.val (s.dev.bank bank.val).anv.slotNo = some id) :
    ∃ e, exec (.slot bank) s = .next { s with dev := e } ∧
      Dev.ChanWork (chanBank bank.val id) (s.dev.slotGiven bank.val id) e ∧
      Dev.SameBut [.banks, .reg Reg.ZN_STOP_LOST] (s.dev.slotGiven bank.val id) e := by
  obtain ⟨z, hexec⟩ : ∃ z, exec (.slot bank) s = .next { s with dev := (s.dev.slotNoted bank.val id).runChan bank.val id 17 z } := by
    change ∃ z, execSlot bank s = _
    refine ⟨if id ≠ (s.dev.bank bank.val).anv.lastChan then 28 else 32, ?_⟩
    simp [execSlot, h.running, h.up, h.attached, h.noReset, h.notHosted, Nat.not_le.mpr h.slots, hch, Dev.slotCounted, Dev.slotSwitched,
      Dev.slotGiven, Dev.slotNoted]
  exact ⟨_, hexec, Dev.runChan_chanWork _ _ _ _ (Dev.modBank_chanWork (.refl _ _) fun _ => rfl),
    Dev.runChan_keeps _ _ _ _ rfl (Dev.modBank_keeps _ _ rfl (.refl _ _))⟩

theorem exec_slot_idle {bank : BankId} {s : State} (h : ¬ s.dev.RunsSlot bank.val) : exec (.slot bank) s = .next s := by
  change execSlot bank s = _
  unfold execSlot
  dsimp only
  split
  · rfl
  · next hgo =>
    simp only [Bool.or_eq_true, decide_eq_true_eq, not_or, Bool.not_eq_true, Nat.not_le, Option.isSome_eq_false_iff,
      Option.isNone_iff_eq_none] at hgo
    obtain ⟨⟨⟨⟨⟨hrun, hup⟩, hatt⟩, hres⟩, hhost⟩, hslot⟩ := hgo
    exact absurd ⟨hrun, hup, hatt, hres, hhost, hslot⟩ h

/-! ## What a slot changes (R141 to R143) -/

theorem Dev.bank_slotCounted_same : (d.slotCounted b).bank b = { d.bank b with anv.slotNo := (d.bank b).anv.slotNo + 1 } :=
  Dev.bank_modBank_same _ _ _

theorem Bank.slotNo_add (k : Bank) (off n : Nat) : (k.add off n).anv.slotNo = k.anv.slotNo := rfl

/-- Parking a channel's descriptor leaves what the slot table's side of every Bank reads as. -/
theorem Dev.slotView_parkChan (id : Nat) : ((d.parkChan b id).bank c).slotView = (d.bank c).slotView :=
  (Dev.parkChan_chanWork (.refl _ _) _ _ rfl).slotView c

theorem Dev.slotNo_slotGiven (id : Nat) : ((d.slotGiven b id).bank b).anv.slotNo = (d.bank b).anv.slotNo + 1 := by
  rw [Dev.slotGiven, Dev.bank_modBank_same]
  unfold Dev.slotSwitched
  split
  · rw [Dev.bank_modBank_same, Bank.slotNo_add, Bank.slotNo_of_slotView (Dev.slotView_parkChan _), Dev.bank_slotCounted_same]
  · rw [Dev.bank_slotCounted_same]

theorem Dev.lastChan_slotGiven (id : Nat) : ((d.slotGiven b id).bank b).anv.lastChan = id := by
  rw [Dev.slotGiven, Dev.bank_modBank_same]

/-- A switch is counted where the slot's channel differs from that of the slot before. -/
theorem Dev.switches_slotGiven (id : Nat) : ((d.slotGiven b id).bank b).reg Reg.BK_ANV_SWITCHES =
    (d.bank b).reg Reg.BK_ANV_SWITCHES + (if id = (d.bank b).anv.lastChan then 0 else 1) := by
  have hcount : ((d.slotCounted b).bank b).reg Reg.BK_ANV_SWITCHES = (d.bank b).reg Reg.BK_ANV_SWITCHES := by
    rw [Dev.bank_slotCounted_same]; rfl
  rw [Dev.slotGiven, Dev.bank_modBank_same]
  change ((d.slotSwitched b id).bank b).reg Reg.BK_ANV_SWITCHES = _
  unfold Dev.slotSwitched
  by_cases h : id = (d.bank b).anv.lastChan
  · simp [h, hcount]
  · rw [if_pos h, if_neg h, Dev.bank_modBank_same, Bank.add, Bank.reg_setReg_same,
      Bank.reg_of_slotView (Dev.slotView_parkChan _), hcount]
    rfl

/-- A slot given to a channel changes no other Bank than this one and its partner. -/
theorem Dev.bank_slotGiven_ne (id : Nat) (hb : c ≠ b) (hp : c ≠ partner b) : (d.slotGiven b id).bank c = d.bank c := by
  have hcount : (d.slotCounted b).bank c = d.bank c := Dev.bank_modBank_ne _ _ hb
  rw [Dev.slotGiven, Dev.bank_modBank_ne _ _ hb]
  unfold Dev.slotSwitched
  split
  · rw [Dev.bank_modBank_ne _ _ hb, Dev.parkChan, Dev.bank_modBank_ne _ _ (ne_chanBank _ hb hp), hcount]
  · exact hcount

theorem Dev.slotGiven_sameBut (id : Nat) : Dev.SameBut [.banks, .reg Reg.ZN_STOP_LOST] d (d.slotGiven b id) := by
  have hcount : Dev.SameBut [.banks, .reg Reg.ZN_STOP_LOST] d (d.slotCounted b) := Dev.modBank_keeps _ _ rfl (.refl _ _)
  exact Dev.modBank_keeps _ _ rfl (.ite (Dev.modBank_keeps _ _ rfl (Dev.parkChan_keeps _ _ rfl hcount)) hcount)

/-- Settles O20: the slot is given first, which counts it and the switch; the work of the channel then changes none of that. -/
theorem slotsSwitchChannels : Obligations.SlotsSwitchChannels := by
  unfold Obligations.SlotsSwitchChannels
  refine ⟨?_, ?_⟩
  · intro bank s hs hdown hiso hreset hslots hhost
    have hrun : s.dev.RunsSlot bank.val := ⟨hs, hdown, hiso, hreset, hhost, hslots⟩
    cases hch : s.dev.slotChannel bank.val (s.dev.bank bank.val).anv.slotNo with
    | none =>
      refine ⟨_, exec_slot_of_none hrun hch, ?_⟩
      dsimp only
      rw [Dev.bank_slotCounted_same]
      exact ⟨rfl, by simp, fun _ => rfl, fun b hb _ => Dev.bank_modBank_ne _ _ hb, rfl, rfl, Dev.modBank_keeps _ _ rfl (.refl _ _)⟩
    | some id =>
      obtain ⟨e, hexec, hwork, hkeep⟩ := exec_slot_of_some hrun hch
      have hview := hwork.slotView bank.val
      refine ⟨_, hexec, (Bank.slotNo_of_slotView hview).trans (Dev.slotNo_slotGiven id), ?_, by simp, fun b hb hp => ?_, rfl, rfl,
        (Dev.slotGiven_sameBut id).trans hkeep⟩
      · rintro _ ⟨⟩
        exact ⟨(Bank.lastChan_of_slotView hview).trans (Dev.lastChan_slotGiven id),
          (Bank.reg_of_slotView hview _).trans (Dev.switches_slotGiven id)⟩
      · exact (hwork.other b (ne_chanBank id hb hp)).trans (Dev.bank_slotGiven_ne id hb hp)
  · intro bank s h
    refine exec_slot_idle fun hrun => ?_
    simp [hrun.running, hrun.up, hrun.attached, hrun.noReset, hrun.notHosted, Nat.not_le.mpr hrun.slots] at h

end Sys2Proof.Machine
end

section
/-! PROOF. A submission of the control core (R152, R156): where a command of a Bank register is accepted, the codes of SUBMIT in their
order, and O21. -/

namespace Sys2Proof.Machine

variable {d : Dev} {b : Nat} {mem : HostMem}

/-! ## An accepted command of a Bank or Wisp register (R481, R491, R494) -/

/-- A command that is accepted acts, on the part itself or, through the indirect window, once its result is noted in the path's copy. -/
theorem Dev.cmdAt_of_takesAt {p : Path} {t : Target} {v : Word} (h : d.takesAt p t v) (f : Dev → Dev) :
    d.cmdAt p t v f = f d ∨ d.cmdAt p t v f = f (d.indResult p (d.reach t false)) := by
  obtain ⟨hoff, hrefuse, hreach, hreset, hpath⟩ := h
  cases hcc : pathCc p with
  | true =>
    left
    simp only [hcc, if_true] at hpath
    simp [Dev.cmdAt, Dev.atTarget, hoff, hcc, hpath, hreach, hrefuse, hreset]
  | false =>
    right
    simp only [hcc, Bool.false_eq_true, if_false] at hpath
    have hready : d.notReady p = false := by
      cases hn : d.notReady p with
      | false => rfl
      | true => simp [Dev.refuse, hn] at hrefuse
    have hrefuse' (r : Nat) : (d.indResult p r).refuse p t v = none := hrefuse
    have hreset' (r : Nat) : (d.indResult p r).inReset t = false := hreset
    simp [Dev.cmdAt, Dev.atTarget, hoff, hcc, hready, hrefuse, hrefuse', hreach, hpath, hreset']

/-! ## The codes of a submission (R156) -/

/-- The candidate that BK_SUB_D0 to BK_SUB_D7 hold, TWOVEC read from its declaration. -/
def Dev.submission (d : Dev) (mem : HostMem) (b : Nat) : Cand :=
  (d.bank b).subCand (Decl.parse (mem.read ((d.bank b).subCand false).decl.toNat 128)).twoVec

section
variable {k : Bank} {x : Cand}

theorem Bank.subRefusal_badsrc (h : x.src ≠ 2 ∨ x.op = opSIGCMP) : k.subRefusal x = 3 := by
  simp [Bank.subRefusal, h]

variable (hsrc : x.src = 2) (hop : x.op ≠ opSIGCMP)
include hsrc hop

theorem Bank.subRefusal_badpos (h : 263 < x.pos ∨ k.cc.chanOf x.pos = none) : k.subRefusal x = 4 := by
  simp [Bank.subRefusal, hsrc, hop, h]

variable (hpos : x.pos ≤ 263) (hchan : (k.cc.chanOf x.pos).isSome = true)
include hpos hchan

theorem Bank.subRefusal_badop (h : x.op = 0 ∨ 7 ≤ x.op) : k.subRefusal x = 5 := by
  simp [Bank.subRefusal, hsrc, hop, Nat.not_lt.mpr hpos, Option.ne_none_iff_isSome.mpr hchan, h]

variable (hlo : 1 ≤ x.op) (hhi : x.op ≤ 6)
include hlo hhi

theorem Bank.subRefusal_full (hroom : k.anv.room x.chan 2 x.entries = false) : k.subRefusal x = 2 := by
  have hcode : ¬ (x.op = 0 ∨ 7 ≤ x.op) := by omega
  simp [Bank.subRefusal, hsrc, hop, Nat.not_lt.mpr hpos, Option.ne_none_iff_isSome.mpr hchan, hcode, hroom]

theorem Bank.subRefusal_accepted (hroom : k.anv.room x.chan 2 x.entries = true) : k.subRefusal x = 0 := by
  have hcode : ¬ (x.op = 0 ∨ 7 ≤ x.op) := by omega
  simp [Bank.subRefusal, hsrc, hop, Nat.not_lt.mpr hpos, Option.ne_none_iff_isSome.mpr hchan, hcode, hroom]

end

/-! ## What a submission does (R152) -/

/-- RESULT OK and SEQ_LO read back from the word an accepted submission leaves. -/
theorem bitsOf_okStat (n : Nat) (h : n < 65536) :
    bitsOf (w32 (1 + 65536 * n)) 2 0 = 1 ∧ bitsOf (w32 (1 + 65536 * n)) 31 16 = n := by
  simp only [bitsOf, w32, BitVec.toNat_ofNat]
  omega

section
variable (hs : d.clock.stopped = false)
include hs

/-- A refused submission leaves its code in RESULT of BK_SUB_STAT. -/
theorem Dev.result_submit_of_refused {r : Nat} (hr : (d.bank b).subRefusal (d.submission mem b) = r) (hpos : 0 < r) (hlt : r < 8) :
    bitsOf (((d.submit mem b).bank b).reg Reg.BK_SUB_STAT) 2 0 = r := by
  have hsub : d.submit mem b = d.modBank b (fun k => k.setReg Reg.BK_SUB_STAT (setBits (k.reg Reg.BK_SUB_STAT) 2 0 r)) := by
    obtain ⟨n, rfl⟩ := Nat.exists_eq_add_one_of_ne_zero (Nat.ne_of_gt hpos)
    simp only [Dev.submission] at hr
    simp [Dev.submit, hs, hr]
  rw [hsub, Dev.bank_modBank_same, Bank.reg_setReg_same]
  exact bitsOf_setBits _ 2 0 r (by omega) (by omega) (by omega)

/-- An accepted submission of one entry that waits for no seed is queued, with OK and SEQ_LO of its descriptor in BK_SUB_STAT. -/
theorem Dev.submit_of_accepted (hr : (d.bank b).subRefusal (d.submission mem b) = 0) (hone : (d.submission mem b).entries = 1)
    (hseed : (d.submission mem b).needsSeed = false ∨ (d.bankSeed b).isSome = true) :
    d.submit mem b = (d.acceptCand b (d.submission mem b)).modBank b
      (fun k => k.setReg Reg.BK_SUB_STAT (w32 (1 + 65536 * ((d.bank b).anv.seq.toNat % 65536)))) := by
  have hgo : ¬ ((d.submission mem b).needsSeed = true ∧ d.bankSeed b = none) := by
    rcases hseed with h | h
    · simp [h]
    · simp [Option.ne_none_iff_isSome.mpr h]
  simp only [Dev.submission] at hr hone hgo ⊢
  simp [Dev.submit, hs, hr, hone, hgo]

section
variable (hr : (d.bank b).subRefusal (d.submission mem b) = 0) (hone : (d.submission mem b).entries = 1)
  (hseed : (d.submission mem b).needsSeed = false ∨ (d.bankSeed b).isSome = true)
include hr hone hseed

theorem Dev.stat_submit_of_accepted : bitsOf (((d.submit mem b).bank b).reg Reg.BK_SUB_STAT) 2 0 = 1 ∧
    bitsOf (((d.submit mem b).bank b).reg Reg.BK_SUB_STAT) 31 16 = (d.bank b).anv.seq.toNat % 65536 := by
  rw [Dev.submit_of_accepted hs hr hone hseed, Dev.bank_modBank_same, Bank.reg_setReg_same]
  exact bitsOf_okStat _ (Nat.mod_lt _ (by decide))

theorem Dev.chanQueue_submit_of_accepted (hop : (d.submission mem b).op ≠ opSIGCMP) :
    (((d.submit mem b).bank b).anv.chanQueue (d.submission mem b).chan).map (fun y => y.cand) =
      ((d.bank b).anv.chanQueue (d.submission mem b).chan).map (fun y => y.cand) ++ [d.submission mem b] := by
  rw [Dev.submit_of_accepted hs hr hone hseed, Dev.bank_modBank_same]
  change (((d.acceptCand b (d.submission mem b)).bank b).anv.chanQueue _).map _ = _
  rw [Dev.chanQueue_acceptCand hop hone, List.map_append]
  rfl

end

end

/-- SUBMIT where the write is accepted submits on the part itself or on one that differs in the path's own copy. -/
theorem exec_submit_of_takesAt {p : Path} {bank : BankId} {s : State} (h : s.dev.takesAt p (.bk bank.val Reg.BK_SUB_CMD) 1) :
    ∃ e : Dev, exec (.submit p bank) s = .next { s with dev := e.submit s.mem bank.val } ∧ e.clock = s.dev.clock ∧
      e.banks = s.dev.banks ∧ Dev.SameBut [.port] s.dev e := by
  have hexec (e : Dev) (he : s.dev.cmdB p bank.val Reg.BK_SUB_CMD 1 (fun d => d.submit s.mem bank.val) = e.submit s.mem bank.val) :
      exec (.submit p bank) s = .next { s with dev := e.submit s.mem bank.val } := by
    change execSubmit p bank s = _
    rw [execSubmit, State.onDev, he]
  rcases Dev.cmdAt_of_takesAt h (fun d => d.submit s.mem bank.val) with he | he
  · exact ⟨_, hexec _ he, rfl, rfl, .refl _ _⟩
  · exact ⟨_, hexec _ he, rfl, rfl, Dev.indResult_keeps _ _ rfl (.refl _ _)⟩

/-- Settles O21: each code is the refusal that stands first in the order of R156, and OK comes with the queued descriptor. -/
theorem submitAnswers : Obligations.SubmitAnswers := by
  unfold Obligations.SubmitAnswers
  intro p bank x s htake hs hx
  obtain ⟨e, hexec, hclock, hbanks, hport⟩ := exec_submit_of_takesAt htake
  have hbank : s.dev.bank bank.val = e.bank bank.val := by rw [Dev.bank, Dev.bank, hbanks]
  have hse : e.clock.stopped = false := by rw [hclock, hs]
  have hseed : s.dev.bankSeed bank.val = e.bankSeed bank.val := Dev.bankSeed_congr hclock.symm (by rw [hbank]) (by rw [hbank])
  rw [hbank] at hx
  obtain rfl : x = e.submission s.mem bank.val := hx
  rw [hbank, hseed]
  refine ⟨_, hexec, fun hsrc => ?_, fun hsrc hop hpos => ?_, fun hsrc hop hpos hchan hcode => ?_,
    fun hsrc hop hpos hchan hlo hhi hroom => ?_, fun hsrc hop hpos hchan hlo hhi hroom hone hsd => ?_, rfl, rfl,
    Dev.submit_keeps _ _ rfl (hport.mono rfl)⟩
  · exact Dev.result_submit_of_refused hse (Bank.subRefusal_badsrc hsrc) (by decide) (by decide)
  · exact Dev.result_submit_of_refused hse (Bank.subRefusal_badpos hsrc hop hpos) (by decide) (by decide)
  · exact Dev.result_submit_of_refused hse (Bank.subRefusal_badop hsrc hop hpos hchan hcode) (by decide) (by decide)
  · exact Dev.result_submit_of_refused hse (Bank.subRefusal_full hsrc hop hpos hchan hlo hhi hroom) (by decide) (by decide)
  · have hok := Bank.subRefusal_accepted hsrc hop hpos hchan hlo hhi hroom
    obtain ⟨hresult, hseq⟩ := Dev.stat_submit_of_accepted hse hok hone hsd
    exact ⟨hresult, hseq, Dev.chanQueue_submit_of_accepted hse hok hone hsd hop⟩

end Sys2Proof.Machine
end

section
/-! PROOF. Epochs of the commit horizon (R190, R191): what a change of an epoch does to its context, when an epoch is counted, when
the oldest undecided one settles, and O28. -/

namespace Sys2Proof.Machine

variable {d : Dev} {c k : Nat} {num : Word} {f : Epoch → Epoch}

/-! ## Changing an epoch of a context -/

theorem Dev.epochs_modEpoch : ((d.modEpoch c num f).ctx c).hz.epochs =
    (d.ctx c).hz.epochs.map (fun e => if e.num = num then f e else e) := by
  rw [Dev.modEpoch, Dev.ctx_modCtx_same]

theorem Dev.core_modEpoch : ((d.modEpoch c num f).ctx c).core = (d.ctx c).core := by
  rw [Dev.modEpoch, Dev.ctx_modCtx_same]

theorem Dev.ctx_modEpoch_ne (h : k ≠ c) : (d.modEpoch c num f).ctx k = d.ctx k := Dev.ctx_modCtx_ne _ _ h

/-- Where a list's selected epochs are changed, an epoch selected in the outcome has been changed. -/
theorem forall_selected_map {sel P : Epoch → Prop} [DecidablePred sel] (l : List Epoch) (hP : ∀ e, P (f e)) :
    ∀ x ∈ l.map (fun e => if sel e then f e else e), sel x → P x := by
  intro x hx hsel
  obtain ⟨e, -, rfl⟩ := List.mem_map.mp hx
  by_cases he : sel e
  · rw [if_pos he]; exact hP e
  · rw [if_neg he] at hsel; exact absurd hsel he

/-- What the change makes true of every epoch is true of the epochs of that number. -/
theorem Dev.forall_epochs_modEpoch {P : Epoch → Prop} (hP : ∀ e, P (f e)) :
    ∀ x ∈ ((d.modEpoch c num f).ctx c).hz.epochs, x.num = num → P x := by
  rw [Dev.epochs_modEpoch]
  exact forall_selected_map (sel := fun e => e.num = num) _ hP

/-! ## Counting an epoch (R190) -/

/-- The part with an epoch of a context counted. -/
def Dev.epochCounted (d : Dev) (c : Nat) (num : Word) : Dev := d.modEpoch c num (fun e => { e with counted := true })

theorem exec_epochCounted_of_due {c : CtxId} {e : Epoch} {b : Nat} {s : State} (hs : s.dev.clock.stopped = false)
    (he : e ∈ (s.dev.ctx c.val).hz.epochs) (hcount : e.counted = false) (hclose : e.closing = some b)
    (hdue : b + 2 ≤ s.dev.clock.frame) :
    exec (.epochCounted c e.num) s = .next { s with dev := s.dev.epochCounted c.val e.num } := by
  change execEpochCounted c e.num s = _
  unfold execEpochCounted
  refine if_pos ?_
  rw [hs, Bool.not_false, Bool.and_true, List.any_eq_true]
  exact ⟨e, he, by simp [hcount, hclose, hdue]⟩

theorem exec_epochCounted_idle {c : CtxId} {n : Word} {s : State}
    (h : ∀ e ∈ (s.dev.ctx c.val).hz.epochs, e.num = n → e.counted = true ∨ e.closing = none ∨
      ∃ b, e.closing = some b ∧ s.dev.clock.frame < b + 2) : exec (.epochCounted c n) s = .next s := by
  change execEpochCounted c n s = _
  unfold execEpochCounted
  refine if_neg fun hany => ?_
  obtain ⟨e, he, hdue⟩ := List.any_eq_true.mp (Bool.and_eq_true_iff.mp hany).1
  simp only [Bool.and_eq_true, decide_eq_true_eq] at hdue
  obtain ⟨⟨hnum, hcount⟩, hclose⟩ := hdue
  rcases h e he hnum with hc | hn | ⟨b, hb, hlt⟩
  · simp [hc] at hcount
  · simp [hn] at hclose
  · simp only [hb, decide_eq_true_eq] at hclose
    omega

/-! ## Settling the oldest undecided epoch (R191) -/

/-- Every condition of R191, written out. -/
theorem Dev.settles_iff (e : Epoch) : d.settles c e = true ↔ e.counted = true ∧ e.outstanding = 0 ∧ e.suspects = [] ∧
    (∀ i ∈ d.hz.inbound, i.ctx = c → serLe i.depend e.num = false) ∧
    (e.first = true ∨ ((d.ctx c).hz.committedAny = true ∧ (d.ctx c).hz.committed + 1 = e.num)) := by
  simp [Dev.settles, and_assoc]

/-- The part with an epoch of a context settled: decided, its COMMIT queued. -/
def Dev.epochSettled (d : Dev) (c : Nat) (num : Word) : Dev :=
  (d.modEpoch c num (fun e => { e with fate := .committing })).queueToken c (.commit num)

theorem Dev.tokens_epochSettled : (d.epochSettled c num).hz.tokens = d.hz.tokens ++ [(c, .commit num, d.clock.frame)] := rfl

theorem Dev.epochs_epochSettled : ∀ x ∈ ((d.epochSettled c num).ctx c).hz.epochs, x.num = num → x.fate = .committing :=
  Dev.forall_epochs_modEpoch (P := fun x => x.fate = .committing) fun _ => rfl

theorem Dev.ctx_epochSettled_ne (h : k ≠ c) : (d.epochSettled c num).ctx k = d.ctx k := Dev.ctx_modEpoch_ne h

theorem Dev.epochSettled_sameBut : Dev.SameBut [.ctxs, .hz] d (d.epochSettled c num) :=
  Dev.queueToken_keeps _ _ rfl (Dev.modEpoch_keeps _ _ _ rfl (.refl _ _))

section
variable {c : CtxId} {e : Epoch} {rest : List Epoch} {s : State} (hlive : (s.dev.ctx c.val).hz.liveEpochs = e :: rest)
include hlive

theorem exec_epochSettle_of_settles (hs : s.dev.clock.stopped = false) (h : s.dev.settles c.val e = true) :
    exec (.epochSettle c) s = .next { s with dev := s.dev.epochSettled c.val e.num } := by
  change execEpochSettle c s = _
  simp [execEpochSettle, hs, hlive, h, State.onDev, Dev.epochSettled]

theorem exec_epochSettle_idle (h : s.dev.settles c.val e = false) : exec (.epochSettle c) s = .next s := by
  change execEpochSettle c s = _
  cases hs : s.dev.clock.stopped <;> simp [execEpochSettle, hs, hlive, h]

end

/-- Settles O28: counting and settling are each one change of an epoch, the second with its COMMIT queued; a condition of R190 or R191
that is not met leaves the state as it is. -/
theorem epochsSettleInOrder : Obligations.EpochsSettleInOrder := by
  unfold Obligations.EpochsSettleInOrder
  refine ⟨?_, ?_, ?_, ?_⟩
  · intro c e b s hs he hcount hclose hdue
    exact ⟨_, exec_epochCounted_of_due hs he hcount hclose hdue,
      Dev.forall_epochs_modEpoch (P := fun x => x.counted = true) fun _ => rfl,
      Dev.core_modEpoch, fun k => Dev.ctx_modEpoch_ne, rfl, rfl, Dev.modEpoch_keeps _ _ _ rfl (.refl _ _)⟩
  · exact fun c n s => exec_epochCounted_idle
  · intro c e rest s hs hlive hcount hout hsusp hin hprev
    have hsettles := (Dev.settles_iff e).mpr ⟨hcount, hout, hsusp, hin, hprev⟩
    exact ⟨_, exec_epochSettle_of_settles hlive hs hsettles, Dev.tokens_epochSettled, Dev.epochs_epochSettled,
      fun k => Dev.ctx_epochSettled_ne, rfl, rfl, Dev.epochSettled_sameBut⟩
  · intro c e rest s hlive h
    refine exec_epochSettle_idle hlive (Bool.eq_false_iff.mpr fun hsettles => ?_)
    obtain ⟨hcount, hout, hsusp, hin, hprev⟩ := (Dev.settles_iff e).mp hsettles
    rcases h with h | h | h | ⟨i, hi, hctx, hdep⟩ | ⟨hfirst, hany⟩ | ⟨hfirst, hnext⟩
    · simp [h] at hcount
    · exact h hout
    · exact h hsusp
    · simp [hin i hi hctx] at hdep
    · simp [hfirst, hany] at hprev
    · exact hnext (hprev.resolve_left (by simp [hfirst])).2

end Sys2Proof.Machine
end

section
/-! PROOF. Transfers, refresh and HELLO of the commit horizon (R192, R195, R198, R200, R217, R218, R226): what leaves through the switch
port where nothing is clamped, and O30. -/

namespace Sys2Proof.Machine

variable {d : Dev} {c k : Nat}

/-! ## Messages handed to the switch port -/

theorem Dev.swSend_of_unclamped (h : d.clamped = false) (dest : MsgDest) (bytes : List Byte) :
    d.swSend dest bytes = { d with hz.out := d.hz.out ++ [⟨bytes, dest⟩] } := by
  simp [Dev.swSend, h]

theorem Dev.hz_sameBut (x : Horizon) : Dev.SameBut [.hz] d { d with hz := x } := by
  simp +decide only [Dev.SameBut.refl, Dev.SameBut.upd, true_or, or_true, and_self]

/-! ## Transfers (R192, R195) -/

/-- The part with a transfer of a context issued. -/
def Dev.swIssued (d : Dev) (c : Nat) : Dev :=
  ({ d with hz.transfers := d.hz.transfers ++ [d.horizonTag c] }).modCtx c (fun x => { x with hz.issued := some x.core.step })

theorem exec_swIssue (c : CtxId) (s : State) : exec (.swIssue c) s = .next { s with dev := s.dev.swIssued c.val } := rfl

/-- The epoch that a context's work is marked with, its condition as a proposition (R72, R192). -/
theorem Ctx.mark_eq (x : Ctx) : x.mark =
    if 3 ≤ x.core.level ∧ (x.core.state = .active ∨ x.core.state = .failed ∨ x.core.state = .closing) then some x.hz.epoch else none := by
  simp only [Ctx.mark, Bool.and_eq_true, Bool.or_eq_true, decide_eq_true_eq, or_assoc]

/-- The tag of R192, written out. -/
theorem Dev.horizonTag_of_unclamped (h : d.clamped = false) : d.horizonTag c = BitVec.ofNat 48 (c + 2 ^ 10 * (d.ctx c).core.incarn +
    (if 3 ≤ (d.ctx c).core.level ∧
        ((d.ctx c).core.state = .active ∨ (d.ctx c).core.state = .failed ∨ (d.ctx c).core.state = .closing)
      then 2 ^ 26 * ((d.ctx c).hz.epoch.toNat % 256) + 2 ^ 34 else 0)) := by
  simp only [Dev.horizonTag, h, Bool.false_eq_true, if_false, Ctx.mark_eq]
  by_cases hmark : 3 ≤ (d.ctx c).core.level ∧
      ((d.ctx c).core.state = .active ∨ (d.ctx c).core.state = .failed ∨ (d.ctx c).core.state = .closing)
  · rw [if_pos hmark, if_pos hmark]
  · rw [if_neg hmark, if_neg hmark]

theorem Dev.issued_swIssued : ((d.swIssued c).ctx c).hz.issued = some (d.ctx c).core.step := by
  rw [Dev.swIssued, Dev.ctx_modCtx_same]
  rfl

theorem Dev.ctx_swIssued_ne (h : k ≠ c) : (d.swIssued c).ctx k = d.ctx k := by
  rw [Dev.swIssued, Dev.ctx_modCtx_ne _ _ h]
  rfl

theorem Dev.swIssued_sameBut : Dev.SameBut [.ctxs, .hz] d (d.swIssued c) :=
  Dev.modCtx_keeps _ _ rfl ((Dev.hz_sameBut _).mono rfl)

/-- The part with the epochs of a context whose numbers end in `e8` exposed. -/
def Dev.nochkExposed (d : Dev) (c : Nat) (e8 : BitVec 8) : Dev :=
  d.modCtx c (fun x => { x with hz.epochs := x.hz.epochs.map (fun e =>
    if e.num.toNat % 256 = e8.toNat then { e with exposed := true } else e) })

theorem exec_nochkTransfer (c : CtxId) (e8 : BitVec 8) (s : State) :
    exec (.nochkTransfer c e8) s = .next { s with dev := s.dev.nochkExposed c.val e8 } := rfl

theorem Dev.epochs_nochkExposed (e8 : BitVec 8) : ((d.nochkExposed c e8).ctx c).hz.epochs =
    (d.ctx c).hz.epochs.map (fun e => if e.num.toNat % 256 = e8.toNat then { e with exposed := true } else e) := by
  rw [Dev.nochkExposed, Dev.ctx_modCtx_same]

theorem Dev.exposed_nochkExposed (e8 : BitVec 8) :
    ∀ x ∈ ((d.nochkExposed c e8).ctx c).hz.epochs, x.num.toNat % 256 = e8.toNat → x.exposed = true := by
  rw [Dev.epochs_nochkExposed]
  exact forall_selected_map (sel := fun e => e.num.toNat % 256 = e8.toNat) (P := fun e => e.exposed = true) _ fun _ => rfl

/-! ## Refresh (R200) -/

theorem Tbl.find_of_mem {α : Type} [DecidableEq α] {x0 x : α} {lo : Option Nat} {t : Tbl α} (h : Tbl.wfFrom x0 lo t)
    (hm : (k, x) ∈ t) : Tbl.find t k = some x := by
  induction t generalizing lo with
  | nil => cases hm
  | cons entry t ih =>
    obtain ⟨j, y⟩ := entry
    obtain ⟨-, -, htail⟩ := h
    rcases List.mem_cons.mp hm with heq | hm
    · cases heq; simp [Tbl.find]
    · have hfind := ih htail hm
      have hkj : k ≠ j := fun heq => by
        rw [Tbl.find_of_wfFrom htail (Nat.le_of_eq heq)] at hfind
        cases hfind
      rw [Tbl.find, if_neg hkj, hfind]

/-- A listed context is what its key reads as. -/
theorem Dev.ctx_of_mem {x : Ctx} (h : Tbl.wf Ctx.init d.ctxs = true) (hm : (c, x) ∈ d.ctxs) : d.ctx c = x := by
  rw [Dev.ctx, Tbl.get, Tbl.find_of_mem ((Tbl.wf_iff _ _).mp h) hm, Option.getD_some]

/-- The message that a refresh sends for a listed context: its latest token, where EN is set and the token is not too old. -/
def Dev.refreshMsg (d : Dev) (x : Nat × Ctx) : Option OutMsg :=
  match x.2.hz.lastToken with
  | some (t, f) =>
    if x.2.hz.en = true ∧ d.clock.frame < f + d.zf Reg.ZN_HZ_TIMEOUT 24 0 then
      some { bytes := hzMessage t.type d.selfId x.1 x.2.core.incarn t.body, dest := .group x.2.hz.group }
    else none
  | none => none

/-- What a refresh that began in `d` does for a listed context. -/
def Dev.refreshOne (d acc : Dev) (x : Nat × Ctx) : Dev :=
  match x.2.hz.lastToken with
  | some (t, f) =>
    if d.clock.frame < f + d.zf Reg.ZN_HZ_TIMEOUT 24 0 && x.2.hz.en then
      (acc.hzSend x.1 (d.tokenBytes x.1 t)).bumpZ Reg.ZN_HZ_CNT_REFRESH
    else acc
  | none => acc

/-- A refreshed token handed to the switch port and counted. -/
def Dev.sendRefresh (acc : Dev) (m : OutMsg) : Dev := ({ acc with hz.out := acc.hz.out ++ [m] }).bumpZ Reg.ZN_HZ_CNT_REFRESH

theorem exec_tokenRefresh_of_due {s : State} (hs : s.dev.clock.stopped = false) (hk : s.dev.zf Reg.ZN_HZ_REFRESH 15 0 ≠ 0)
    (hdue : s.dev.hz.refreshAt + s.dev.zf Reg.ZN_HZ_REFRESH 15 0 ≤ s.dev.clock.frame) :
    exec .tokenRefresh s = .next { s with dev := s.dev.ctxs.foldl s.dev.refreshOne { s.dev with hz.refreshAt := s.dev.clock.frame } } := by
  change execTokenRefresh s = _
  unfold execTokenRefresh
  refine (if_neg ?_).trans rfl
  simp [hs, hk, Nat.not_lt.mpr hdue]

/-- In a part that still holds the contexts of `d`, one context's refresh hands over its message, where it has one. -/
theorem Dev.refreshOne_eq {acc : Dev} {x : Nat × Ctx} (hx : d.ctx x.1 = x.2) (hctxs : acc.ctxs = d.ctxs) (hclamp : acc.clamped = false) :
    d.refreshOne acc x = (d.refreshMsg x).elim acc acc.sendRefresh := by
  have hacc : acc.ctx x.1 = x.2 := by rw [← hx, Dev.ctx, Dev.ctx, hctxs]
  unfold Dev.refreshOne Dev.refreshMsg
  cases x.2.hz.lastToken with
  | none => rfl
  | some token =>
    obtain ⟨t, f⟩ := token
    by_cases hsend : x.2.hz.en = true ∧ d.clock.frame < f + d.zf Reg.ZN_HZ_TIMEOUT 24 0
    · obtain ⟨hen, hage⟩ := hsend
      simp [hen, hage, Dev.hzSend, hacc, Dev.swSend_of_unclamped hclamp, Dev.tokenBytes, hx, Dev.sendRefresh]
    · simp only [hsend, if_false, Option.elim_none]
      exact if_neg (by simpa [and_comm] using hsend)

/-- The refresh of listed contexts hands over their messages, in the order of the list. -/
theorem Dev.foldl_refreshOne {l : Tbl Ctx} {acc : Dev} (hl : ∀ x ∈ l, d.ctx x.1 = x.2) (hctxs : acc.ctxs = d.ctxs)
    (hclamp : acc.clamped = false) : l.foldl d.refreshOne acc = (l.filterMap d.refreshMsg).foldl Dev.sendRefresh acc := by
  induction l generalizing acc with
  | nil => rfl
  | cons x l ih =>
    have htail := fun y hy => hl y (List.mem_cons_of_mem x hy)
    rw [List.foldl_cons, Dev.refreshOne_eq (hl x List.mem_cons_self) hctxs hclamp, List.filterMap_cons]
    cases d.refreshMsg x with
    | none => exact ih htail hctxs hclamp
    | some m => exact ih (acc := acc.sendRefresh m) htail hctxs hclamp

theorem Dev.hz_foldl_sendRefresh (l : List OutMsg) : (l.foldl Dev.sendRefresh d).hz = { d.hz with out := d.hz.out ++ l } := by
  induction l generalizing d with
  | nil => simp
  | cons m l ih =>
    rw [List.foldl_cons, ih]
    simp [Dev.sendRefresh]

theorem Dev.zreg_foldl_sendRefresh (l : List OutMsg) : (l.foldl Dev.sendRefresh d).zreg Reg.ZN_HZ_CNT_REFRESH =
    d.zreg Reg.ZN_HZ_CNT_REFRESH + w32 l.length := by
  induction l generalizing d with
  | nil => simp [w32]
  | cons m l ih =>
    have hone : (d.sendRefresh m).zreg Reg.ZN_HZ_CNT_REFRESH = d.zreg Reg.ZN_HZ_CNT_REFRESH + w32 1 := Dev.zreg_addZ_same _ _ _
    have hlen : w32 (l.length + 1) = w32 1 + w32 l.length := by rw [Nat.add_comm]; exact BitVec.ofNat_add 1 l.length
    rw [List.foldl_cons, ih, hone, List.length_cons, hlen, BitVec.add_assoc]

theorem Dev.foldl_sendRefresh_keeps {a : Dev} (l : List OutMsg) (h : Dev.SameBut [.hz, .reg Reg.ZN_HZ_CNT_REFRESH] a d) :
    Dev.SameBut [.hz, .reg Reg.ZN_HZ_CNT_REFRESH] a (l.foldl Dev.sendRefresh d) :=
  Dev.SameBut.foldl (fun _ _ => Dev.bumpZ_keeps _ rfl ((Dev.hz_sameBut _).mono rfl)) h

/-! ## HELLO and links (R198, R217, R218) -/

/-- A HELLO that asks for an echo, stamped with the next draw. -/
def Dev.helloMsg (d : Dev) (start : Bool) (dest : MsgDest) (link : Nat) : OutMsg where
  bytes := d.hello (9 + 2 * bit start) link (mkStamp d.clock.frame (Config.freeZc d.draws).val)
  dest := dest

/-- Byte 9 of a HELLO names its link (R197). -/
theorem Dev.helloMsg_link (start : Bool) (dest : MsgDest) (link : Nat) :
    (d.helloMsg start dest link).bytes[9]? = some (BitVec.ofNat 8 link) := rfl

theorem Dev.sendHello_of_unclamped (h : d.clamped = false) (start : Bool) (dest : MsgDest) (link : Nat) :
    d.sendHello start dest link = { d with draws := d.draws + 1, hz.out := d.hz.out ++ [d.helloMsg start dest link] } :=
  Dev.swSend_of_unclamped (d := { d with draws := d.draws + 1 }) h _ _

/-- A HELLO on each of some links: each message goes out on its link and names it. -/
theorem Dev.foldl_sendHello (start : Bool) (links : List Nat) (h : d.clamped = false) :
    ∃ l, (links.foldl (fun (acc : Dev) k => acc.sendHello start (.broadcast k) k) d).hz = { d.hz with out := d.hz.out ++ l } ∧
      l.map (fun m => (m.dest, m.bytes[9]?)) = links.map (fun k => (.broadcast k, some (BitVec.ofNat 8 k))) := by
  induction links generalizing d with
  | nil => exact ⟨[], by simp, rfl⟩
  | cons k links ih =>
    obtain ⟨l, hhz, hl⟩ := ih (d := d.sendHello start (.broadcast k) k) (by rw [Dev.sendHello_of_unclamped h]; exact h)
    refine ⟨d.helloMsg start (.broadcast k) k :: l, ?_, ?_⟩
    · rw [List.foldl_cons, hhz, Dev.sendHello_of_unclamped h]
      simp
    · rw [List.map_cons, List.map_cons, hl, Dev.helloMsg_link]
      rfl

theorem exec_periodicHello_of_due {s : State} (hclamp : s.dev.clamped = false) (hk : s.dev.zf Reg.ZN_HZ_CTL 12 8 ≠ 0)
    (hdue : s.dev.hz.helloAt + 2 ^ s.dev.zf Reg.ZN_HZ_CTL 12 8 ≤ s.dev.clock.frame) :
    exec .periodicHello s = .next { s with dev := ({ s.dev with hz.helloAt := s.dev.clock.frame }).broadcastHello false } := by
  change execPeriodicHello s = _
  unfold execPeriodicHello
  refine (if_neg ?_).trans rfl
  simp [hclamp, hk, Nat.not_lt.mpr hdue]

theorem Dev.link_modLink_same (l : Nat) (f : Link → Link) : (d.modLink l f).link l = f (d.link l) := Tbl.get_modify_same _ _ _ _

theorem Dev.link_modLink_ne {l : Nat} (f : Link → Link) (h : k ≠ l) : (d.modLink l f).link k = d.link k := Tbl.get_modify_ne _ _ _ h

theorem Dev.link_swSend (dest : MsgDest) (bytes : List Byte) : (d.swSend dest bytes).link k = d.link k := by
  unfold Dev.swSend
  split <;> rfl

/-- A HELLO leaves every link as it is. -/
theorem Dev.link_sendHello (start : Bool) (dest : MsgDest) (link : Nat) : (d.sendHello start dest link).link k = d.link k :=
  Dev.link_swSend (d := { d with draws := d.draws + 1 }) dest _

/-- The part with a link trained, before its HELLO. -/
def Dev.linkUp (d : Dev) (l width : Nat) : Dev := d.modLink l (fun _ => { rtt := 0, measured := false, width := width, up := true })

theorem exec_linkTrained_of_unclamped {s : State} (h : s.dev.clamped = false) (l : Fin 16) (width : Fin 65) :
    exec (.linkTrained l width) s =
      .next { s with dev := (s.dev.linkUp l.val width.val).sendHello false (.onLink l.val) l.val } := by
  change execLinkTrained l width s = _
  simp [execLinkTrained, h, State.onDev, Dev.linkUp]

/-- Settles O30: each command's state is written out above; a refresh and the HELLOs are folds whose messages are read off in order. -/
theorem transfersAndRefresh : Obligations.TransfersAndRefresh := by
  unfold Obligations.TransfersAndRefresh
  refine ⟨?_, ?_, ?_, ?_, ?_, ?_, ?_⟩
  · intro c s hclamp
    refine ⟨_, exec_swIssue c s, ?_, Dev.issued_swIssued, fun k => Dev.ctx_swIssued_ne, rfl, rfl, Dev.swIssued_sameBut⟩
    rw [← Dev.horizonTag_of_unclamped hclamp]
    rfl
  · intro c e8 s
    exact ⟨_, exec_nochkTransfer c e8 s, Dev.exposed_nochkExposed e8, by rw [Dev.epochs_nochkExposed, List.length_map],
      fun k => Dev.ctx_modCtx_ne _ _, rfl, rfl, Dev.modCtx_keeps _ _ rfl (.refl _ _)⟩
  · intro l s hs hclamp hk hdue hwf hl
    obtain rfl : l = s.dev.ctxs.filterMap s.dev.refreshMsg := hl
    have hfold := Dev.foldl_refreshOne (acc := { s.dev with hz.refreshAt := s.dev.clock.frame })
      (fun x hx => Dev.ctx_of_mem hwf hx) rfl hclamp
    refine ⟨_, exec_tokenRefresh_of_due hs hk hdue, ?_⟩
    rw [hfold, Dev.hz_foldl_sendRefresh, Dev.zreg_foldl_sendRefresh]
    exact ⟨rfl, rfl, rfl, rfl, rfl, Dev.foldl_sendRefresh_keeps _ ((Dev.hz_sameBut _).mono rfl)⟩
  · exact fun id s => ⟨_, rfl, rfl, rfl, rfl, rfl, Dev.hz_sameBut _⟩
  · intro l width s hclamp
    have hup : (s.dev.linkUp l.val width.val).clamped = false := hclamp
    refine ⟨_, (s.dev.linkUp l.val width.val).helloMsg false (.onLink l.val) l.val, exec_linkTrained_of_unclamped hclamp l width, ?_⟩
    rw [Dev.link_sendHello, Dev.linkUp, Dev.link_modLink_same]
    refine ⟨rfl, rfl, rfl, congrArg (fun e : Dev => e.hz.out) (Dev.sendHello_of_unclamped hup _ _ _), rfl, fun k h => ?_, rfl, rfl,
      Dev.sendHello_keeps _ _ _ rfl (Dev.modLink_keeps _ _ rfl (.refl _ _))⟩
    rw [Dev.link_sendHello, Dev.link_modLink_ne _ h]
  · intro l s
    refine ⟨_, rfl, ?_⟩
    rw [State.onDev_dev, Dev.link_modLink_same]
    exact ⟨rfl, rfl, fun k => Dev.link_modLink_ne _, rfl, rfl, rfl, Dev.modLink_keeps _ _ rfl (.refl _ _)⟩
  · intro s hclamp hk hdue
    obtain ⟨l, hhz, hl⟩ := Dev.foldl_sendHello (d := { s.dev with hz.helloAt := s.dev.clock.frame }) false s.dev.linksUp hclamp
    refine ⟨_, l, exec_periodicHello_of_due hclamp hk hdue, ?_⟩
    exact ⟨congrArg Horizon.helloAt hhz, congrArg Horizon.out hhz, hl, rfl, rfl,
      Dev.broadcastHello_keeps _ rfl ((Dev.hz_sameBut _).mono rfl)⟩

end Sys2Proof.Machine
end
